-- ==== Sys2Proof/Word.lean ====
section
/-! DEFINITION. The word types of the V-144 and their plainest arithmetic.  Registers, predicates
masks, addresses and encoded words are bit vectors because the manual numbers their bits (R6,
R13, R250, R257); counts, identifiers and exact arithmetic are natural numbers or integers. -/

namespace Sys2Proof

/-- A byte of any memory of the module. -/
abbrev Byte := BitVec 8
/-- A 32-bit word: one lane of a vector register, a scalar register, an instruction word (R65, R250). -/
abbrev Word := BitVec 32
/-- A 64-bit word: a generic address, a literal, a register of a register block (R13, R254). -/
abbrev Dword := BitVec 64

end Sys2Proof
end

