-- ==== Sys2Proof/Machine/Bits.lean ====
section
/-! DEFINITION. Bit fields, sign extension, byte order and the lookups over sorted lists that
State is made of.  Words are stored little-endian (R250). -/

namespace Sys2Proof.Machine

/-- Bits `[lo + len - 1 : lo]` of a register or record, as a number. -/
def fld {w : Nat} (x : BitVec w) (lo len : Nat) : Nat := (x.toNat / 2 ^ lo) % 2 ^ len

/-- Bit `i` of `x`. -/
def bit {w : Nat} (x : BitVec w) (i : Nat) : Bool := x.getLsbD i

/-- `x` with bits `[lo + len - 1 : lo]` replaced by the low bits of `v`. -/
def setFld {w : Nat} (x : BitVec w) (lo len v : Nat) : BitVec w :=
  let m : BitVec w := BitVec.ofNat w ((2 ^ len - 1) * 2 ^ lo)
  (x &&& ~~~m) ||| (BitVec.ofNat w ((v % 2 ^ len) * 2 ^ lo))

/-- The bits of `new` under the mask, the bits of `old` elsewhere: a write to a register whose
other bits are reserved or read-only (R10). -/
def mergeMask {w : Nat} (m old new : BitVec w) : BitVec w := (old &&& ~~~m) ||| (new &&& m)

/-- A mask of `len` bits from bit `lo`. -/
def maskBits (w lo len : Nat) : BitVec w := BitVec.ofNat w ((2 ^ len - 1) * 2 ^ lo)

/-- The number as a word. -/
def w32 (n : Nat) : Word := BitVec.ofNat 32 n
/-- The number as a double word. -/
def w64 (n : Nat) : Dword := BitVec.ofNat 64 n
/-- A truth value as a number. -/
def b2n (b : Bool) : Nat := if b then 1 else 0

/-- `⌈n / d⌉`. -/
def ceilDiv (n d : Nat) : Nat := (n + d - 1) / d

/-- The least `k` with `n ≤ 2 ^ k`, searched upwards on fuel (R72's `ceil(log2 n)`). -/
def clog2Aux (n : Nat) : Nat → Nat → Nat
  | 0, k => k
  | f + 1, k => if n ≤ 2 ^ k then k else clog2Aux n f (k + 1)

/-- `ceil(log2 n)`, with 0 for 0 and 1 (R72). -/
def clog2 (n : Nat) : Nat := clog2Aux n 64 0

/-- Little-endian number of a byte list (R250). -/
def leNat : List Byte → Nat
  | [] => 0
  | b :: bs => b.toNat + 256 * leNat bs

/-- The `n` low bytes of a number, little-endian. -/
def leBytes : Nat → Nat → List Byte
  | 0, _ => []
  | n + 1, x => BitVec.ofNat 8 (x % 256) :: leBytes n (x / 256)

/-- The `i`th element of a list of naturals, 0 past the end. -/
def nth {α : Type} (d : α) : List α → Nat → α
  | [], _ => d
  | x :: _, 0 => x
  | _ :: xs, n + 1 => nth d xs n

/-- The lanes (or groups) whose bit is set in a mask, lowest first. -/
def lanesOf (m : Word) : List Nat := (List.range 32).filter (fun l => m.getLsbD l)

/-- The mask with exactly bit `l`. -/
def laneBit (l : Nat) : Word := BitVec.ofNat 32 (2 ^ l)

/-- A mask from a predicate over the 32 lanes. -/
def maskOf (p : Nat → Bool) : Word :=
  (List.range 32).foldl (fun m l => if p l then m ||| laneBit l else m) 0

/-- How many bits of a mask are set. -/
def popc {w : Nat} (m : BitVec w) : Nat := ((List.range w).filter (fun i => m.getLsbD i)).length

/-- The number of the lowest set bit, or the default. -/
def lowBit (d : Nat) (m : Word) : Nat :=
  match lanesOf m with
  | [] => d
  | l :: _ => l

/-- The entry of a keyed list, if it is there. -/
def kfind {α : Type} (k : Nat) : List (Nat × α) → Option α
  | [] => none
  | (j, v) :: r => if j = k then some v else kfind k r

/-- The entry of a keyed list, or what an unlisted key holds. -/
def kget {α : Type} (d : α) (k : Nat) (l : List (Nat × α)) : α :=
  match kfind k l with
  | some v => v
  | none => d

/-- The keyed list with one entry written, kept in rising order of keys. -/
def kset {α : Type} (k : Nat) (v : α) : List (Nat × α) → List (Nat × α)
  | [] => [(k, v)]
  | (j, u) :: r =>
    if k < j then (k, v) :: (j, u) :: r
    else if j = k then (k, v) :: r
    else (j, u) :: kset k v r

/-- The keyed list without one key. -/
def kdel {α : Type} (k : Nat) (l : List (Nat × α)) : List (Nat × α) := l.filter (fun e => e.1 != k)

/-- A key set kept in rising order without repeats. -/
def sinsert (k : Nat) : List Nat → List Nat
  | [] => [k]
  | j :: r => if k < j then k :: j :: r else if j = k then j :: r else j :: sinsert k r

/-- Whether a key is in a set. -/
def smem (k : Nat) (l : List Nat) : Bool := l.any (fun j => j == k)

/-- The set without one key. -/
def sdel (k : Nat) (l : List Nat) : List Nat := l.filter (fun j => j != k)

/-- The reading of a sparse store: what is listed, zero elsewhere. -/
def zget {w : Nat} (k : Nat) (l : List (Nat × BitVec w)) : BitVec w := kget 0 k l

/-- Writing a sparse store: a zero is not listed, so equal contents are equal lists. -/
def zset {w : Nat} (k : Nat) (v : BitVec w) (l : List (Nat × BitVec w)) : List (Nat × BitVec w) :=
  if v = 0 then kdel k l else kset k v l

/-- The canonical form of a sparse store: keys strictly rising, no zero listed. -/
def zwf {w : Nat} : List (Nat × BitVec w) → Bool
  | [] => true
  | [(_, u)] => u != 0
  | (j, u) :: (k, v) :: r => decide (j < k) && u != 0 && zwf ((k, v) :: r)

/-- The sparse store without the keys of `[lo, hi)`. -/
def zclear {w : Nat} (lo hi : Nat) (l : List (Nat × BitVec w)) : List (Nat × BitVec w) :=
  l.filter (fun c => decide (c.1 < lo) || decide (hi ≤ c.1))

/-- The first element that passes, with its place. -/
def findIdx {α : Type} (p : α → Bool) : List α → Nat → Option (Nat × α)
  | [], _ => none
  | x :: xs, n => if p x then some (n, x) else findIdx p xs (n + 1)

/-- The element of a list that is least by a key, the first among equals. -/
def leastBy {α : Type} (key : α → Nat) : List α → Option α
  | [] => none
  | x :: xs =>
    match leastBy key xs with
    | none => some x
    | some y => if key y < key x then some y else some x

/-- Stable insertion by a key. -/
def insertBy {α : Type} (key : α → Nat) (x : α) : List α → List α
  | [] => [x]
  | y :: ys => if key x ≤ key y then x :: y :: ys else y :: insertBy key x ys

/-- Stable sort by a key, least first. -/
def sortBy {α : Type} (key : α → Nat) (l : List α) : List α :=
  l.foldr (insertBy key) []

/-- Two's complement value of the low `n` bits. -/
def sval (n : Nat) (x : Nat) : Int :=
  let y := x % 2 ^ n
  if 2 ^ (n - 1) ≤ y ∧ 0 < n then (y : Int) - (2 ^ n : Nat) else (y : Int)

/-- The low `n` bits of an integer. -/
def wrapInt (n : Nat) (x : Int) : Nat := (x % ((2 ^ n : Nat) : Int)).toNat

end Sys2Proof.Machine
end

