-- ==== Sys2Proof/Machine/Cause.lean ====
section
/-! DEFINITION. The 64 cause codes of R449, in code order. -/

namespace Sys2Proof.Machine

/-- R449: the causes a group or a command can meet, in ascending code. -/
inductive Cause where
  | illegalOpcode | reservedField | badLength | privileged | regRange | typeInvalid
  | roleUnbound | fmtInvalid
  | jumpMisaligned | jumpUnmapped | notLanding | fetchFault | stackLimit | memberExited
  | memberMissing | joinMismatch
  | pageNotPresent | pagePermission | compressedWrite | keyInvalid | addressNoncanonical
  | misaligned | scratchRange | privateRange | tileRange | accRange | tagRange | poisonRead
  | atomicUnsupported | spaceInvalid | regaddrRange | viViolation
  | queueDeadlock | guardInvalid | commandMalformed | streamInvalid | shadowEmpty
  | barrierInvalid | barrierOverflow | exchangeMismatch
  | spliceShape | spliceDenied | splicePartial | recursionLimit | recordSize | nodeInvalid
  | launchInvalid | launchQuota
  | meshOverflow | meshIndex | viewInvalid | tileNotBound | rayRecordInvalid | samplerInvalid
  | breakpoint | watchpoint | singleStep | softwareTrap | watchdog | uncorrectable
  | throttleNotice | preempt | debugHalt | arithTrap
  deriving DecidableEq, Repr

/-- R449: the code of a cause. -/
def Cause.code : Cause → Nat
  | .illegalOpcode => 0x00 | .reservedField => 0x01 | .badLength => 0x02 | .privileged => 0x03
  | .regRange => 0x04 | .typeInvalid => 0x05 | .roleUnbound => 0x06 | .fmtInvalid => 0x07
  | .jumpMisaligned => 0x08 | .jumpUnmapped => 0x09 | .notLanding => 0x0A | .fetchFault => 0x0B
  | .stackLimit => 0x0C | .memberExited => 0x0D | .memberMissing => 0x0E | .joinMismatch => 0x0F
  | .pageNotPresent => 0x10 | .pagePermission => 0x11 | .compressedWrite => 0x12
  | .keyInvalid => 0x13 | .addressNoncanonical => 0x14 | .misaligned => 0x15
  | .scratchRange => 0x16 | .privateRange => 0x17 | .tileRange => 0x18 | .accRange => 0x19
  | .tagRange => 0x1A | .poisonRead => 0x1B | .atomicUnsupported => 0x1C
  | .spaceInvalid => 0x1D | .regaddrRange => 0x1E | .viViolation => 0x1F
  | .queueDeadlock => 0x20 | .guardInvalid => 0x21 | .commandMalformed => 0x22
  | .streamInvalid => 0x23 | .shadowEmpty => 0x24 | .barrierInvalid => 0x25
  | .barrierOverflow => 0x26 | .exchangeMismatch => 0x27
  | .spliceShape => 0x28 | .spliceDenied => 0x29 | .splicePartial => 0x2A
  | .recursionLimit => 0x2B | .recordSize => 0x2C | .nodeInvalid => 0x2D
  | .launchInvalid => 0x2E | .launchQuota => 0x2F
  | .meshOverflow => 0x30 | .meshIndex => 0x31 | .viewInvalid => 0x32 | .tileNotBound => 0x33
  | .rayRecordInvalid => 0x34 | .samplerInvalid => 0x35
  | .breakpoint => 0x36 | .watchpoint => 0x37 | .singleStep => 0x38 | .softwareTrap => 0x39
  | .watchdog => 0x3A | .uncorrectable => 0x3B | .throttleNotice => 0x3C | .preempt => 0x3D
  | .debugHalt => 0x3E | .arithTrap => 0x3F

/-- R449: the causes in the order of their codes. -/
def allCauses : List Cause :=
  [.illegalOpcode, .reservedField, .badLength, .privileged, .regRange, .typeInvalid, .roleUnbound, .fmtInvalid,
   .jumpMisaligned, .jumpUnmapped, .notLanding, .fetchFault, .stackLimit, .memberExited, .memberMissing, .joinMismatch,
   .pageNotPresent, .pagePermission, .compressedWrite, .keyInvalid, .addressNoncanonical, .misaligned, .scratchRange, .privateRange,
   .tileRange, .accRange, .tagRange, .poisonRead, .atomicUnsupported, .spaceInvalid, .regaddrRange, .viViolation,
   .queueDeadlock, .guardInvalid, .commandMalformed, .streamInvalid, .shadowEmpty, .barrierInvalid, .barrierOverflow, .exchangeMismatch,
   .spliceShape, .spliceDenied, .splicePartial, .recursionLimit, .recordSize, .nodeInvalid, .launchInvalid, .launchQuota,
   .meshOverflow, .meshIndex, .viewInvalid, .tileNotBound, .rayRecordInvalid, .samplerInvalid, .breakpoint, .watchpoint,
   .singleStep, .softwareTrap, .watchdog, .uncorrectable, .throttleNotice, .preempt, .debugHalt, .arithTrap]

/-- R449: the cause of a code. -/
def Cause.ofCode (n : Nat) : Cause := (allCauses.drop n).headD .illegalOpcode

end Sys2Proof.Machine
end

