-- ==== Sys2Proof/Syntax.lean ====
section
/-! DEFINITION. The steps of the machine: one constructor of `Instr` for each row of the opcode
table.  A row of an instruction word carries that word's operand fields; a row of an event carries
what singles the event out (which core, team, fragment, register, value).  File 95: the table
lists the part's steps, each whole and indivisible. -/

namespace Sys2Proof

/-- R258: the kind of a source field. -/
inductive Kind where
  | vec | scal | left | right
  deriving DecidableEq, Repr

/-- R260: the TYPE field. -/
inductive Ty where
  | b32 | s8 | s16 | s32 | s64 | n8 | n16 | n32 | n64 | f32 | f16 | bf16 | e4m3 | e5m2 | qn4
  deriving DecidableEq, Repr

/-- R195, R261: the neighbour edge mode. -/
inductive Edge where
  | zero | clamp | wrap
  deriving DecidableEq, Repr

/-- R265: the conditions of `ICMP` and `SCMP`. -/
inductive Cc where
  | eq | ne | lt | le | gt | ge
  deriving DecidableEq, Repr

/-- R265: the conditions of `FCMP`. -/
inductive FCc where
  | eq | ne | lt | le | gt | ge | ord | uno
  deriving DecidableEq, Repr

/-- R265: the lane selections of `SHFL`. -/
inductive ShflMode where
  | idx | up | down | xor
  deriving DecidableEq, Repr

/-- R265: the votes of `VOTE`. -/
inductive VoteOp where
  | any | all | ballot
  deriving DecidableEq, Repr

/-- R265: the operations of `REDUX` and `SCAN`. -/
inductive RedOp where
  | add | min | max | and | or | xor
  deriving DecidableEq, Repr

/-- R251: the fields of a short form.  `b` is bits [31:26]; where those bits hold a sub-opcode
(R266) it is zero here, for the constructor names the sub-opcode.  `lit` is the literal of
length 0b01. -/
structure SOps where
  sw : Bool
  lit : Option Dword
  d : BitVec 8
  a : BitVec 8
  b : BitVec 6
  deriving DecidableEq, Repr

/-- R252: the fields of an extended form.  `w3` is word 3; `lit` the literal of length 0b11. -/
structure XOps where
  sw : Bool
  lit : Option Dword
  d : BitVec 8
  a : BitVec 8
  b : BitVec 8
  c : BitVec 8
  pred : BitVec 3
  pneg : Bool
  ka : Kind
  kb : Kind
  kc : Kind
  ty : Ty
  edge : Edge
  w3 : Word
  deriving DecidableEq, Repr

/-- The register blocks a write can name: the VI pages, the partition manager's space, the
memory-control block, a core's control block, the display block, the power block, the Ngaskaset
block and the identity block (R51, R112, R45, R62, R428, R470, R479, R484). -/
inductive RegBlock where
  | vi (vi : Nat) | partman | memctl | core (core : Nat) | display | power | ngaskaset | ident
  deriving DecidableEq, Repr

/-- R100, R464: where a bit error arises. -/
inductive ErrorSite where
  | reg (team group reg lane : Nat)
  | scratch (team offset : Nat)
  | priv (team group lane offset : Nat)
  | acc (team tile row col : Nat)
  | mem (addr : Nat)
  | l1 (core addr : Nat)
  | exec (team : Nat)
  deriving DecidableEq, Repr

/-- The steps of the machine, one constructor per row of the opcode table, in its order. -/
inductive Instr where
  /-- IADD_SHORT (R301). -/
  | iaddShort (o : SOps)
  /-- IADD (R301). -/
  | iadd (o : XOps)
  /-- ISUB_SHORT (R301). -/
  | isubShort (o : SOps)
  /-- ISUB (R301). -/
  | isub (o : XOps)
  /-- IMUL_SHORT (R301). -/
  | imulShort (o : SOps)
  /-- IMUL (R301). -/
  | imul (o : XOps)
  /-- IMULH_SHORT (R302). -/
  | imulhShort (o : SOps)
  /-- IMULH (R302). -/
  | imulh (o : XOps)
  /-- IMAD (R301). -/
  | imad (o : XOps)
  /-- IMADW (R301). -/
  | imadw (o : XOps)
  /-- IDIV_SHORT (R303). -/
  | idivShort (o : SOps)
  /-- IDIV (R303). -/
  | idiv (o : XOps)
  /-- IMIN_SHORT (R301). -/
  | iminShort (o : SOps)
  /-- IMIN (R301). -/
  | imin (o : XOps)
  /-- IMAX_SHORT (R301). -/
  | imaxShort (o : SOps)
  /-- IMAX (R301). -/
  | imax (o : XOps)
  /-- IABS_SHORT (R301). -/
  | iabsShort (o : SOps)
  /-- IABS (R301). -/
  | iabs (o : XOps)
  /-- INEG_SHORT (R301). -/
  | inegShort (o : SOps)
  /-- INEG (R301). -/
  | ineg (o : XOps)
  /-- NOT_SHORT (R301). -/
  | notShort (o : SOps)
  /-- NOT (R301). -/
  | not (o : XOps)
  /-- POPC_SHORT (R301). -/
  | popcShort (o : SOps)
  /-- POPC (R301). -/
  | popc (o : XOps)
  /-- CLZ_SHORT (R301). -/
  | clzShort (o : SOps)
  /-- CLZ (R301). -/
  | clz (o : XOps)
  /-- BREV_SHORT (R301). -/
  | brevShort (o : SOps)
  /-- BREV (R301). -/
  | brev (o : XOps)
  /-- AND_SHORT (R301). -/
  | andShort (o : SOps)
  /-- AND (R301). -/
  | and (o : XOps)
  /-- OR_SHORT (R301). -/
  | orShort (o : SOps)
  /-- OR (R301). -/
  | or (o : XOps)
  /-- XOR_SHORT (R301). -/
  | xorShort (o : SOps)
  /-- XOR (R301). -/
  | xor (o : XOps)
  /-- ANDN_SHORT (R301). -/
  | andnShort (o : SOps)
  /-- ANDN (R301). -/
  | andn (o : XOps)
  /-- SHL_SHORT (R304). -/
  | shlShort (o : SOps)
  /-- SHL (R304). -/
  | shl (o : XOps)
  /-- SHRL_SHORT (R304). -/
  | shrlShort (o : SOps)
  /-- SHRL (R304). -/
  | shrl (o : XOps)
  /-- SHRA_SHORT (R304). -/
  | shraShort (o : SOps)
  /-- SHRA (R304). -/
  | shra (o : XOps)
  /-- ROTL_SHORT (R304). -/
  | rotlShort (o : SOps)
  /-- ROTL (R304). -/
  | rotl (o : XOps)
  /-- BFX (R305). -/
  | bfx (o : XOps)
  /-- BFI (R305). -/
  | bfi (o : XOps)
  /-- ICMP (R306). -/
  | icmp (cc : Cc) (o : XOps)
  /-- ISEL (R306). -/
  | isel (o : XOps)
  /-- LEA_SHORT (R307). -/
  | leaShort (o : SOps)
  /-- LEA (R307). -/
  | lea (o : XOps)
  /-- FADD_SHORT (R308). -/
  | faddShort (o : SOps)
  /-- FADD (R308). -/
  | fadd (o : XOps)
  /-- FSUB_SHORT (R308). -/
  | fsubShort (o : SOps)
  /-- FSUB (R308). -/
  | fsub (o : XOps)
  /-- FMUL_SHORT (R308). -/
  | fmulShort (o : SOps)
  /-- FMUL (R308). -/
  | fmul (o : XOps)
  /-- FFMA (R308). -/
  | ffma (o : XOps)
  /-- FMIN_SHORT (R309). -/
  | fminShort (o : SOps)
  /-- FMIN (R309). -/
  | fmin (o : XOps)
  /-- FMAX_SHORT (R309). -/
  | fmaxShort (o : SOps)
  /-- FMAX (R309). -/
  | fmax (o : XOps)
  /-- FCMP (R309). -/
  | fcmp (cc : FCc) (o : XOps)
  /-- FDIV_SHORT (R308). -/
  | fdivShort (o : SOps)
  /-- FDIV (R308). -/
  | fdiv (o : XOps)
  /-- FABS_SHORT (R308). -/
  | fabsShort (o : SOps)
  /-- FABS (R308). -/
  | fabs (o : XOps)
  /-- FNEG_SHORT (R308). -/
  | fnegShort (o : SOps)
  /-- FNEG (R308). -/
  | fneg (o : XOps)
  /-- FRCP_SHORT (R308). -/
  | frcpShort (o : SOps)
  /-- FRCP (R308). -/
  | frcp (o : XOps)
  /-- FRSQ_SHORT (R308). -/
  | frsqShort (o : SOps)
  /-- FRSQ (R308). -/
  | frsq (o : XOps)
  /-- FSQRT_SHORT (R308). -/
  | fsqrtShort (o : SOps)
  /-- FSQRT (R308). -/
  | fsqrt (o : XOps)
  /-- FEXP2_SHORT (R308). -/
  | fexp2Short (o : SOps)
  /-- FEXP2 (R308). -/
  | fexp2 (o : XOps)
  /-- FLOG2_SHORT (R308). -/
  | flog2Short (o : SOps)
  /-- FLOG2 (R308). -/
  | flog2 (o : XOps)
  /-- FSIN_SHORT (R308). -/
  | fsinShort (o : SOps)
  /-- FSIN (R308). -/
  | fsin (o : XOps)
  /-- FCOS_SHORT (R308). -/
  | fcosShort (o : SOps)
  /-- FCOS (R308). -/
  | fcos (o : XOps)
  /-- FROUND_SHORT (R308). -/
  | froundShort (o : SOps)
  /-- FROUND (R308). -/
  | fround (o : XOps)
  /-- FCLASS_SHORT (R310). -/
  | fclassShort (o : SOps)
  /-- FCLASS (R310). -/
  | fclass (o : XOps)
  /-- CVT (R311). -/
  | cvt (o : XOps)
  /-- HFMA2 (R313). -/
  | hfma2 (o : XOps)
  /-- DOT4 (R313). -/
  | dot4 (o : XOps)
  /-- MOV_SHORT (R314). -/
  | movShort (o : SOps)
  /-- MOV (R314). -/
  | mov (o : XOps)
  /-- MOVI_SHORT (R314). -/
  | moviShort (o : SOps)
  /-- MOVI (R314). -/
  | movi (o : XOps)
  /-- BCAST_SHORT (R314). -/
  | bcastShort (o : SOps)
  /-- BCAST (R314). -/
  | bcast (o : XOps)
  /-- MOVS_SHORT (R314). -/
  | movsShort (o : SOps)
  /-- MOVS (R314). -/
  | movs (o : XOps)
  /-- SHFL (R316). -/
  | shfl (mode : ShflMode) (o : XOps)
  /-- VOTE (R317). -/
  | vote (op : VoteOp) (o : XOps)
  /-- REDUX (R318). -/
  | redux (op : RedOp) (o : XOps)
  /-- SCAN (R318). -/
  | scan (op : RedOp) (excl : Bool) (o : XOps)
  /-- SMOV_SHORT (R320). -/
  | smovShort (o : SOps)
  /-- SMOV (R320). -/
  | smov (o : XOps)
  /-- SMOVI_SHORT (R320). -/
  | smoviShort (o : SOps)
  /-- SMOVI (R320). -/
  | smovi (o : XOps)
  /-- SADD_SHORT (R320). -/
  | saddShort (o : SOps)
  /-- SADD (R320). -/
  | sadd (o : XOps)
  /-- SSUB_SHORT (R320). -/
  | ssubShort (o : SOps)
  /-- SSUB (R320). -/
  | ssub (o : XOps)
  /-- SMUL_SHORT (R320). -/
  | smulShort (o : SOps)
  /-- SMUL (R320). -/
  | smul (o : XOps)
  /-- SAND_SHORT (R320). -/
  | sandShort (o : SOps)
  /-- SAND (R320). -/
  | sand (o : XOps)
  /-- SOR_SHORT (R320). -/
  | sorShort (o : SOps)
  /-- SOR (R320). -/
  | sor (o : XOps)
  /-- SXOR_SHORT (R320). -/
  | sxorShort (o : SOps)
  /-- SXOR (R320). -/
  | sxor (o : XOps)
  /-- SSHL_SHORT (R320). -/
  | sshlShort (o : SOps)
  /-- SSHL (R320). -/
  | sshl (o : XOps)
  /-- SSHR_SHORT (R320). -/
  | sshrShort (o : SOps)
  /-- SSHR (R320). -/
  | sshr (o : XOps)
  /-- SCMP (R320). -/
  | scmp (cc : Cc) (o : XOps)
  /-- SSEL (R320). -/
  | ssel (o : XOps)
  /-- BRA (R323). -/
  | bra (o : XOps)
  /-- BRD (R324). -/
  | brd (o : XOps)
  /-- JOIN (R325). -/
  | join (o : SOps)
  /-- JMPI (R326). -/
  | jmpi (o : XOps)
  /-- CALL (R327). -/
  | call (o : XOps)
  /-- CALLI_SHORT (R327). -/
  | calliShort (o : SOps)
  /-- CALLI (R327). -/
  | calli (o : XOps)
  /-- RET_SHORT (R327). -/
  | retShort (o : SOps)
  /-- RET (R327). -/
  | ret (o : XOps)
  /-- LAND (R328). -/
  | land (o : SOps)
  /-- EXIT_SHORT (R329). -/
  | exitShort (o : SOps)
  /-- EXIT (R329). -/
  | exit (o : XOps)
  /-- EXECR_SHORT (R330). -/
  | execrShort (o : SOps)
  /-- EXECR (R330). -/
  | execr (o : XOps)
  /-- EXECW_SHORT (R330). -/
  | execwShort (o : SOps)
  /-- EXECW (R330). -/
  | execw (o : XOps)
  /-- NOP (R331). -/
  | nop (o : SOps)
  /-- YIELD (R331). -/
  | yield (o : SOps)
  /-- FFENCE (R332). -/
  | ffence (o : SOps)
  /-- LD_SHORT (R338). -/
  | ldShort (o : SOps)
  /-- LD (R338). -/
  | ld (o : XOps)
  /-- ST_SHORT (R338). -/
  | stShort (o : SOps)
  /-- ST (R338). -/
  | st (o : XOps)
  /-- LDU_SHORT (R338). -/
  | lduShort (o : SOps)
  /-- LDU (R338). -/
  | ldu (o : XOps)
  /-- PREF_SHORT (R338). -/
  | prefShort (o : SOps)
  /-- PREF (R338). -/
  | pref (o : XOps)
  /-- LDT (R339). -/
  | ldt (o : XOps)
  /-- STT (R339). -/
  | stt (o : XOps)
  /-- LDACC (R340). -/
  | ldacc (o : XOps)
  /-- STACC (R340). -/
  | stacc (o : XOps)
  /-- TLOOK (R341). -/
  | tlook (o : XOps)
  /-- TLOOK_CLM (R341). -/
  | tlookClm (o : XOps)
  /-- TFILL (R341). -/
  | tfill (o : XOps)
  /-- TEVICT (R341). -/
  | tevict (o : XOps)
  /-- TINV (R341). -/
  | tinv (o : XOps)
  /-- ATOM (R343). -/
  | atom (o : XOps)
  /-- ATOMCAS (R343). -/
  | atomcas (o : XOps)
  /-- RED (R343). -/
  | red (o : XOps)
  /-- FENCE (R344). -/
  | fence (o : XOps)
  /-- OPFENCE (R345). -/
  | opfence (o : SOps)
  /-- BARINIT (R347). -/
  | barinit (o : XOps)
  /-- BARA_SHORT (R348). -/
  | baraShort (o : SOps)
  /-- BARA (R348). -/
  | bara (o : XOps)
  /-- BARW_SHORT (R348). -/
  | barwShort (o : SOps)
  /-- BARW (R348). -/
  | barw (o : XOps)
  /-- BARAW_SHORT (R348). -/
  | barawShort (o : SOps)
  /-- BARAW (R348). -/
  | baraw (o : XOps)
  /-- WAITC (R348). -/
  | waitc (o : XOps)
  /-- GSET_SHORT (R351). -/
  | gsetShort (o : SOps)
  /-- GSET (R351). -/
  | gset (o : XOps)
  /-- GCLR_SHORT (R351). -/
  | gclrShort (o : SOps)
  /-- GCLR (R351). -/
  | gclr (o : XOps)
  /-- XCH (R363). -/
  | xch (o : XOps)
  /-- QPUSH_SHORT (R354). -/
  | qpushShort (o : SOps)
  /-- QPUSH (R354). -/
  | qpush (o : XOps)
  /-- QPOP_SHORT (R357). -/
  | qpopShort (o : SOps)
  /-- QPOP (R357). -/
  | qpop (o : XOps)
  /-- QSTAT_SHORT (R357). -/
  | qstatShort (o : SOps)
  /-- QSTAT (R357). -/
  | qstat (o : XOps)
  /-- QSTAT_SAT_SHORT (R388). -/
  | qstatSatShort (o : SOps)
  /-- QSTAT_SAT (R388). -/
  | qstatSat (o : XOps)
  /-- MLDW (R376). -/
  | mldw (o : XOps)
  /-- MSWAP_SHORT (R377). -/
  | mswapShort (o : SOps)
  /-- MSWAP (R377). -/
  | mswap (o : XOps)
  /-- MMA (R378). -/
  | mma (o : XOps)
  /-- MMA_J (R380). -/
  | mmaJ (o : XOps)
  /-- MMAS (R382). -/
  | mmas (o : XOps)
  /-- MHAD (R383). -/
  | mhad (o : XOps)
  /-- MQNT (R385). -/
  | mqnt (o : XOps)
  /-- ACCZ (R386). -/
  | accz (o : XOps)
  /-- ACCCVT (R387). -/
  | acccvt (o : XOps)
  /-- SUBSCRIBE (R390). -/
  | subscribe (o : XOps)
  /-- PUBLISH (R391). -/
  | publish (o : XOps)
  /-- MCAD (R394). -/
  | mcad (o : XOps)
  /-- VOUT (R401). -/
  | vout (o : XOps)
  /-- POUT (R401). -/
  | pout (o : XOps)
  /-- MSETCNT (R402). -/
  | msetcnt (o : XOps)
  /-- VAMP (R400). -/
  | vamp (o : XOps)
  /-- RAYL (R411). -/
  | rayl (o : XOps)
  /-- RAYQ (R414). -/
  | rayq (o : XOps)
  /-- SAMPLE (R416). -/
  | sample (o : XOps)
  /-- SAMPLEV (R416). -/
  | samplev (o : XOps)
  /-- TILEBIND (R405). -/
  | tilebind (o : XOps)
  /-- TILEDONE (R408). -/
  | tiledone (o : XOps)
  /-- TILEREL (R406). -/
  | tilerel (o : XOps)
  /-- EMIT_SHORT (R418). -/
  | emitShort (o : SOps)
  /-- EMIT (R418). -/
  | emit (o : XOps)
  /-- EMITQ_SHORT (R418). -/
  | emitqShort (o : SOps)
  /-- EMITQ (R418). -/
  | emitq (o : XOps)
  /-- LAUNCH_SHORT (R419). -/
  | launchShort (o : SOps)
  /-- LAUNCH (R419). -/
  | launch (o : XOps)
  /-- SPLICE_SHORT (R225). -/
  | spliceShort (o : SOps)
  /-- SPLICE (R225). -/
  | splice (o : XOps)
  /-- SPLICE_REL_SHORT (R225). -/
  | spliceRelShort (o : SOps)
  /-- SPLICE_REL (R225). -/
  | spliceRel (o : XOps)
  /-- TRAP_SHORT (R421). -/
  | trapShort (o : SOps)
  /-- TRAP (R421). -/
  | trap (o : XOps)
  /-- BKPT_SHORT (R421). -/
  | bkptShort (o : SOps)
  /-- BKPT (R421). -/
  | bkpt (o : XOps)
  /-- ICINV_SHORT (R200). -/
  | icinvShort (o : SOps)
  /-- ICINV (R200). -/
  | icinv (o : XOps)
  /-- TIME_SHORT (R423). -/
  | timeShort (o : SOps)
  /-- TIME (R423). -/
  | time (o : XOps)
  /-- PERF_SHORT (R423). -/
  | perfShort (o : SOps)
  /-- PERF (R423). -/
  | perf (o : XOps)
  /-- RDSR_SHORT (R424). -/
  | rdsrShort (o : SOps)
  /-- RDSR (R424). -/
  | rdsr (o : XOps)
  /-- WRSR_SHORT (R425). -/
  | wrsrShort (o : SOps)
  /-- WRSR (R425). -/
  | wrsr (o : XOps)
  /-- MFLAG_SHORT (R403). -/
  | mflagShort (o : SOps)
  /-- MFLAG (R403). -/
  | mflag (o : XOps)
  /-- WAY_ISSUE_SELECT (R218). -/
  | wayIssueSelect (core way : Nat)
  /-- FRAGMENT_PROMOTE (R217). -/
  | fragmentPromote (team frag : Nat)
  /-- DIVERGENCE_MEETING_COMPLETE (R182). -/
  | divergenceMeetingComplete (team frag : Nat)
  /-- MEMBER_ARRIVAL_COMPLETE (R193). -/
  | memberArrivalComplete (team group : Nat)
  /-- XCH_PAIR (R363). -/
  | xchPair (team group : Nat)
  /-- MMA_J_FORM (R380). -/
  | mmaJForm (team frag : Nat)
  /-- QPUSH_ENTER (R355). -/
  | qpushEnter (core queue : Nat)
  /-- QPOP_UNBLOCK (R357). -/
  | qpopUnblock (team frag : Nat)
  /-- BARRIER_WAIT_RELEASE (R348). -/
  | barrierWaitRelease (team frag : Nat)
  /-- WAITC_REACTIVATE (R348). -/
  | waitcReactivate (team frag : Nat)
  /-- PUBLISH_RESERVE (R391). -/
  | publishReserve (team frag : Nat)
  /-- SUBSCRIBE_CLOSE_COMPLETE (R390). -/
  | subscribeCloseComplete (team frag : Nat)
  /-- TILEBIND_PROCEED (R405). -/
  | tilebindProceed (team frag : Nat)
  /-- SPLICE_MEETING_COMPLETE (R225). -/
  | spliceMeetingComplete (team : Nat)
  /-- SPLICE_DRAIN_DONE (R227). -/
  | spliceDrainDone (team : Nat)
  /-- SPLICE_GROWTH_RETRY (R229). -/
  | spliceGrowthRetry (team : Nat)
  /-- COPY (R359). -/
  | copy (core : Nat)
  /-- COPY2D (R359). -/
  | copy2d (core : Nat)
  /-- COPY3D (R359). -/
  | copy3d (core : Nat)
  /-- MCAST (R359). -/
  | mcast (core : Nat)
  /-- PUBLISH_COMMAND (R393). -/
  | publishCommand (core : Nat)
  /-- MIGRATE (R48). -/
  | migrate (core : Nat)
  /-- MIGRATE_COPY (R48). -/
  | migrateCopy (core cmd : Nat)
  /-- MATRIX_COMMAND (R374). -/
  | matrixCommand (core : Nat)
  /-- SNUB_INJECTION_GRANT (R467). -/
  | snubInjectionGrant (die : Nat)
  /-- SNUB_WINDOW_BOUNDARY (R467). -/
  | snubWindowBoundary (die : Nat)
  /-- ENGINE_COMMAND_COMPLETE (R360). -/
  | engineCommandComplete (core cmd : Nat)
  /-- MESHLET_RASTER (R439). -/
  | meshletRaster (core req : Nat)
  /-- RAY_REQUEST_TRACE (R412). -/
  | rayRequestTrace (core req : Nat)
  /-- INTERSECTION_REQUEST_COMPLETE (R404). -/
  | intersectionRequestComplete (core req : Nat)
  /-- RAYQ_TRACE_DONE (R414). -/
  | rayqTraceDone (team group : Nat)
  /-- TRANSLATION_WALK (R24). -/
  | translationWalk (core vi : Nat) (addr : Dword)
  /-- HOME_ACCESS_PERFORM (R174). -/
  | homeAccessPerform (slice : Nat)
  /-- SC_TICKET_GRANT (R126). -/
  | scTicketGrant
  /-- LOAD_RETURN (R58). -/
  | loadReturn (team group : Nat)
  /-- WRITE_BUFFER_DRAIN (R173). -/
  | writeBufferDrain (core : Nat)
  /-- INVALIDATION_PROBE (R175). -/
  | invalidationProbe (core : Nat)
  /-- SLICE_FILL (R44). -/
  | sliceFill (slice : Nat) (addr : Dword)
  /-- HOT_COUNTER_INCREMENT (R44). -/
  | hotCounterIncrement (slice : Nat)
  /-- BLOCK_DECODE_COMPLETE (R122). -/
  | blockDecodeComplete (vi : Nat) (addr : Dword)
  /-- TOKEN_BUCKET_ADMIT (R118). -/
  | tokenBucketAdmit (queue : Nat)
  /-- VI_INVAL (R27). -/
  | viInval (vi : Nat) (v : Dword)
  /-- VI_INVAL_COMPLETE (R28). -/
  | viInvalComplete (vi : Nat)
  /-- HOT_HALVE (R45). -/
  | hotHalve (v : Dword)
  /-- HOT_HALVE_DONE (R46). -/
  | hotHalveDone
  /-- ST_SPLIT_WRITE (R63). -/
  | stSplitWrite (core : Nat) (v : Dword)
  /-- PART_GEOM_WRITE (R113). -/
  | partGeomWrite (part : Nat) (v : Dword)
  /-- PART_GEOM_APPLY_DONE (R113). -/
  | partGeomApplyDone (part : Nat)
  /-- VI_PRANGE_WRITE (R103). -/
  | viPrangeWrite (vi n : Nat) (limit : Bool) (v : Dword)
  /-- VI_CFG_WRITE (R52). -/
  | viCfgWrite (vi : Nat) (v : Dword)
  /-- TB_WRITE (R116). -/
  | tbWrite (offset : Nat) (v : Dword)
  /-- LQ_CFG_WRITE (R203). -/
  | lqCfgWrite (vi : Nat) (v : Dword)
  /-- LQ_TAIL_WRITE (R204). -/
  | lqTailWrite (vi : Nat) (v : Dword)
  /-- LAUNCH_RECORD_CONSUME (R204). -/
  | launchRecordConsume (vi : Nat)
  /-- GRID_ACCEPT (R207). -/
  | gridAccept (vi : Nat)
  /-- TEAM_PLACE (R212). -/
  | teamPlace (part : Nat)
  /-- EVICTION (R215). -/
  | eviction (part : Nat)
  /-- PREEMPT_SAVE_COMPLETE (R459). -/
  | preemptSaveComplete (team : Nat)
  /-- TEAM_RETIRE (R238). -/
  | teamRetire (team : Nat)
  /-- GRAPH_TEAM_START (R244). -/
  | graphTeamStart (core grid : Nat)
  /-- STEAL_ATTEMPT (R246). -/
  | stealAttempt (core grid : Nat)
  /-- EVENT_RECORD_WRITE (R221). -/
  | eventRecordWrite (vi ring : Nat)
  /-- EVENT_RING_COUNT_INTERRUPT (R222). -/
  | eventRingCountInterrupt (vi ring : Nat)
  /-- EVENT_RING_TIME_INTERRUPT (R222). -/
  | eventRingTimeInterrupt (vi ring : Nat)
  /-- EV_CFG_WRITE (R219). -/
  | evCfgWrite (vi ring : Nat) (v : Dword)
  /-- DISP_CFG_WRITE (R429). -/
  | dispCfgWrite (output : Nat) (v : Dword)
  /-- LINK_TRAINED (R432). -/
  | linkTrained (output rate lanes : Nat)
  /-- STRIP_LATCH (R435). -/
  | stripLatch (output strip : Nat)
  /-- STRIP_DEADLINE (R408). -/
  | stripDeadline (output strip : Nat)
  /-- SERIALISER_TILE_READ (R409). -/
  | serialiserTileRead (output read : Nat)
  /-- GAZE_MAILBOX_WRITE (R477). -/
  | gazeMailboxWrite (offset size : Nat) (v : Dword)
  /-- GOVERNOR_TICK (R472). -/
  | governorTick (power : Nat)
  /-- NEAR_THRESHOLD_ENTER (R474). -/
  | nearThresholdEnter (core way : Nat)
  /-- WATCHDOG (R463). -/
  | watchdog (team group : Nat)
  /-- CORE_DBG_HALT (R461). -/
  | coreDbgHalt (core : Nat) (v : Dword)
  /-- CORE_DBG_RESUME (R461). -/
  | coreDbgResume (core : Nat) (v : Dword)
  /-- HOST_MEMORY_ACCESS (R476). -/
  | hostMemoryAccess (vi size : Nat) (addr : Dword) (data : Option (BitVec 128))
  /-- PEER_TAIL_WRITE (R483). -/
  | peerTailWrite (vi : Nat) (v : Dword)
  /-- PEER_COPY_COMPLETE (R483). -/
  | peerCopyComplete (vi : Nat) (data : List Byte) (ok : Bool)
  /-- PEER_REQUEST (R482). -/
  | peerRequest (port size : Nat) (addr : Dword) (data : Option (BitVec 128))
  /-- REG_RD (R480). -/
  | regRd
  /-- REG_WR (R480). -/
  | regWr
  /-- KEY_LOAD (R481). -/
  | keyLoad
  /-- KEY_EMPTY (R480). -/
  | keyEmpty
  /-- KEY_EMPTY_DONE (R38). -/
  | keyEmptyDone (slot : Nat)
  /-- ATTEST (R486). -/
  | attest
  /-- ATTEST_KEYS (R486). -/
  | attestKeys
  /-- DBG_RD (R480). -/
  | dbgRd
  /-- DBG_WR (R480). -/
  | dbgWr
  /-- FW_UPDATE (R485). -/
  | fwUpdate
  /-- PEER_BIND (R482). -/
  | peerBind
  /-- NGK_UNASSIGNED_COMMAND (R480). -/
  | ngkUnassignedCommand
  /-- MODULE_RESET (R484). -/
  | moduleReset
  /-- ROM_IMAGE_VERIFY (R485). -/
  | romImageVerify
  /-- FW_BRINGUP_COMPLETE (R484). -/
  | fwBringupComplete (fail first : Nat)
  /-- REGISTER_WRITE (R10). -/
  | registerWrite (block : RegBlock) (offset : Nat) (v : Dword)
  /-- SOFT_ERROR (R100). -/
  | softError (site : ErrorSite) (unc : Bool)
  /-- LINK_LOST (R431). -/
  | linkLost (output : Nat)
  /-- PEER_REMOTE_BIND (R482). -/
  | peerRemoteBind (port : Nat)
  deriving DecidableEq, Repr

end Sys2Proof
end

