-- ==== Sys2Proof/Machine/Forms.lean ====
section
/-! DEFINITION. Which fields each instruction uses, what they name, and which values of them
RESERVED_FIELD and TYPE_INVALID refuse (R253 to R262, R266, R267 and the encoding tables of the
instruction chapters).  A short form is read as the extended form it abbreviates (R251, R266). -/

namespace Sys2Proof.Machine

/-- R298: how many registers an operand takes: by the type, or a fixed number. -/
inductive OpW where
  | ty | n (k : Nat)
  deriving DecidableEq, Repr

/-- What the D field names. -/
inductive DUse where
  /-- the field must be zero -/
  | zero
  /-- vector registers by the type's width -/
  | regTy
  /-- `k` vector registers from a multiple of `k` (1, 2 or 4) -/
  | reg (k : Nat)
  /-- the register operand of an access, by TYPE and QUAD (R336) -/
  | acc
  /-- a predicate in D[2:0] (R257) -/
  | pred
  /-- `k` scalar registers from a multiple of `k` -/
  | scal (k : Nat)
  /-- scalar registers by the type's width -/
  | scalTy
  /-- a number under a mask -/
  | num (m : BitVec 8)
  deriving DecidableEq, Repr

/-- What a source field names. -/
inductive SUse where
  /-- the field and its kind must be zero -/
  | zero
  /-- a per-lane value, of kind v or s, or a neighbour where `nb` (R258, R299) -/
  | val (nb : Bool) (w : OpW)
  /-- `k` vector registers from a multiple of `al`, kind v only -/
  | vecs (k al : Nat)
  /-- `k` scalar registers, kind s only (R371) -/
  | scals (k : Nat)
  /-- a scalar-major field, kind zero (R257) -/
  | sfld (w : OpW)
  /-- a number under a mask, kind zero -/
  | num (m : BitVec 8)
  deriving DecidableEq, Repr

/-- R266: the operand a literal takes the place of. -/
inductive LitPos where
  | none | a | b | c | val | join
  deriving DecidableEq, Repr

/-- The form of one instruction. -/
structure XSpec where
  d : DUse := .zero
  a : SUse := .zero
  b : SUse := .zero
  c : SUse := .zero
  /-- R259 -/
  predicable : Bool := true
  /-- the accepted types; `.b32` alone where the instruction takes none (R260) -/
  tys : List Ty := [.b32]
  lit : LitPos := .none
  /-- the bits of word 3 that have a meaning (R252) -/
  w3 : Word := 0
  /-- further conditions that raise RESERVED_FIELD -/
  bad : XOps → Bool := fun _ => false
  /-- further conditions that raise TYPE_INVALID -/
  badTy : XOps → Bool := fun _ => false

/-- What bits [31:26] of a short form hold (R266). -/
inductive SK where
  | bVec | bImm | immS | bZero | bLane | mem
  deriving DecidableEq, Repr

/-- R260: the TYPE code. -/
def tyCode : Ty → Nat
  | .b32 => 0 | .s8 => 1 | .s16 => 2 | .s32 => 3 | .s64 => 4 | .n8 => 5 | .n16 => 6 | .n32 => 7
  | .n64 => 8 | .f32 => 9 | .f16 => 10 | .bf16 => 11 | .e4m3 => 12 | .e5m2 => 13 | .qn4 => 14

/-- R260: the type of a TYPE code. -/
def tyOf : Nat → Option Ty
  | 0 => some .b32 | 1 => some .s8 | 2 => some .s16 | 3 => some .s32 | 4 => some .s64
  | 5 => some .n8 | 6 => some .n16 | 7 => some .n32 | 8 => some .n64 | 9 => some .f32
  | 10 => some .f16 | 11 => some .bf16 | 12 => some .e4m3 | 13 => some .e5m2 | 14 => some .qn4
  | _ => none

/-- R258: the code of a kind. -/
def kindCode : Kind → Nat
  | .vec => 0 | .scal => 1 | .left => 2 | .right => 3

/-- R258: the kind of a code. -/
def kindOf : Nat → Kind
  | 0 => .vec | 1 => .scal | 2 => .left | _ => .right

/-- R261: the code of an edge mode. -/
def edgeCode : Edge → Nat
  | .zero => 0 | .clamp => 1 | .wrap => 2

/-- R195: the edge mode of a code; 0b11 is refused. -/
def edgeOf : Nat → Option Edge
  | 0 => some .zero | 1 => some .clamp | 2 => some .wrap | _ => none

/-- R298: registers of an operand of the type. -/
def tyRegs : Ty → Nat
  | .s64 => 2 | .n64 => 2 | _ => 1

/-- R336: bytes of an access of the type. -/
def tyBytes : Ty → Nat
  | .s8 => 1 | .n8 => 1 | .e4m3 => 1 | .e5m2 => 1
  | .s16 => 2 | .n16 => 2 | .f16 => 2 | .bf16 => 2
  | .s64 => 8 | .n64 => 8 | _ => 4

/-- R311: elements of the type in a word. -/
def tyElems : Ty → Nat
  | .s8 => 4 | .n8 => 4 | .e4m3 => 4 | .e5m2 => 4
  | .s16 => 2 | .n16 => 2 | .f16 => 2 | .bf16 => 2
  | _ => 1

def OpW.count (t : Ty) : OpW → Nat
  | .ty => tyRegs t
  | .n k => k

/-- The QUAD bit of an addressed access (R335). -/
def XOps.quad (o : XOps) : Bool := bit o.w3 8

/-- R336: registers of the access operand. -/
def accRegs (o : XOps) : Nat := if XOps.quad o then 4 else tyRegs o.ty

/-- R336: bytes of one access. -/
def accBytes (o : XOps) : Nat := if XOps.quad o then 16 else tyBytes o.ty

def intTys : List Ty := [.s32, .s8, .s16, .s64, .n8, .n16, .n32, .n64]
def mulTys : List Ty := [.s32, .n32, .s64, .n64]
def absTys : List Ty := [.s32, .s8, .s16, .s64]
def bitTys : List Ty := [.b32, .n32, .s32, .n64, .s64]
def wideTys : List Ty := [.b32, .n64]
def fltTys : List Ty := [.f32, .f16, .bf16]
def cvtTys : List Ty :=
  [.s8, .s16, .s32, .s64, .n8, .n16, .n32, .n64, .f32, .f16, .bf16, .e4m3, .e5m2]
def memTys : List Ty :=
  [.b32, .s8, .s16, .s32, .s64, .n8, .n16, .n32, .n64, .f32, .f16, .bf16, .e4m3, .e5m2]
def rowTys : List Ty := [.e4m3, .e5m2, .f16, .bf16]

/-- R257: a register number is even for a pair, a multiple of 4 for a quad. -/
def misfit (f : BitVec 8) (k : Nat) : Bool := decide (1 < k) && decide (f.toNat % k ≠ 0)

/-- R263, R266: the low two bits of a branch offset must be zero. -/
def badOff (w : Word) : Bool := fld w 0 2 != 0

/-- R301, R308: one source, its literal in A. -/
def alu1 (ts : List Ty) : XSpec :=
  { d := .regTy, a := .val true .ty, tys := ts, lit := .a }
/-- R301: `POPC` and `CLZ` write a 32-bit count. -/
def cnt1 : XSpec := { d := .reg 1, a := .val true .ty, tys := wideTys, lit := .a }
/-- R301, R308: two sources, the literal in B. -/
def alu2 (ts : List Ty) : XSpec :=
  { d := .regTy, a := .val true .ty, b := .val true .ty, tys := ts, lit := .b }
/-- R301, R308, R313: three sources, the literal in C. -/
def alu3 (ts : List Ty) : XSpec :=
  { d := .regTy, a := .val true .ty, b := .val true .ty, c := .val true .ty, tys := ts, lit := .c }
/-- R301: `IMADW` adds a pair to a widened product. -/
def imadwSpec : XSpec :=
  { d := .reg 2, a := .val true (.n 1), b := .val true (.n 1), c := .val true (.n 2),
    tys := [.s32, .n32], lit := .c }
/-- R304: the shift amount is 32 bits. -/
def shiftSpec : XSpec :=
  { d := .regTy, a := .val true .ty, b := .val true (.n 1), tys := bitTys, lit := .b }
/-- R305. -/
def bf3 (ts : List Ty) : XSpec :=
  { d := .reg 1, a := .val true (.n 1), b := .val true (.n 1), c := .val true (.n 1), tys := ts,
    lit := .c }
/-- R306, R309. -/
def cmpSpec (ts : List Ty) : XSpec :=
  { d := .pred, a := .val true .ty, b := .val true .ty, tys := ts, lit := .b }
/-- R307. -/
def leaSpec : XSpec :=
  { d := .reg 2, a := .val false (.n 2), b := .val true .ty, tys := [.s32, .n32, .s64], lit := .b,
    w3 := 7 }
/-- R311: the source type in word 3. -/
def cvtSty (o : XOps) : Ty := (tyOf (fld o.w3 0 4)).getD .b32
/-- R311. -/
def cvtSpec : XSpec :=
  { d := .regTy, a := .val true .ty, tys := cvtTys, lit := .a, w3 := 0x1FF,
    bad := fun o => (tyOf (fld o.w3 0 4)).isNone || decide (tyElems (cvtSty o) ≤ fld o.w3 4 2)
      || decide (tyElems o.ty ≤ fld o.w3 6 2),
    badTy := fun o => !cvtTys.contains (cvtSty o) }
/-- R314: `MOVI` and `SMOVI` take their value from a literal or from word 3. -/
def moviSpec (d : DUse) : XSpec :=
  { d := d, tys := wideTys, lit := .val, w3 := 0xFFFFFFFF,
    bad := fun o => o.lit.isSome && o.w3 != 0 }
/-- R314: `BCAST` and `MOVS` name a home lane. -/
def laneSpec (d : DUse) : XSpec := { d := d, a := .vecs 1 1, b := .num 0x1F }
/-- R316. -/
def shflSpec : XSpec :=
  { d := .reg 1, a := .val false (.n 1), b := .val false (.n 1), w3 := 0xFFFFFFFF }
/-- R317. -/
def voteSpec (op : VoteOp) : XSpec :=
  { d := (match op with | .ballot => .reg 1 | _ => .pred), a := .num 7, w3 := 0xFFFFFFFF }
/-- R318. -/
def reduxSpec (op : RedOp) : XSpec :=
  { d := .reg 1, a := .val false (.n 1), w3 := 0xFFFFFFFF,
    tys := (match op with
      | .add => [.s32, .n32, .f32, .b32] | .min => [.s32, .n32, .f32, .b32]
      | .max => [.s32, .n32, .f32, .b32] | _ => [.b32, .s32, .n32]) }
/-- R320. -/
def smovSpec : XSpec := { d := .scalTy, a := .sfld .ty, tys := wideTys, lit := .a }
/-- R320. -/
def salu2 (ts : List Ty) : XSpec :=
  { d := .scalTy, a := .sfld .ty, b := .sfld .ty, tys := ts, lit := .b }
/-- R320: the shift amount is 32 bits. -/
def sshSpec : XSpec :=
  { d := .scalTy, a := .sfld .ty, b := .sfld (.n 1), tys := bitTys, lit := .b }
/-- R320. -/
def scmpSpec : XSpec := { d := .pred, a := .sfld .ty, b := .sfld .ty, tys := intTys, lit := .b }
/-- R320. -/
def sselSpec : XSpec :=
  { d := .scalTy, a := .sfld .ty, b := .sfld .ty, c := .sfld .ty, tys := wideTys, lit := .c }
/-- R321. -/
def braSpec : XSpec := { w3 := 0xFFFFFFFF, bad := fun o => badOff o.w3 }
/-- R321, R324. -/
def brdSpec : XSpec :=
  { b := .num 0x0F, lit := .join, w3 := 0xFFFFFFFF,
    bad := fun o => badOff o.w3 || (match o.lit with | some l => fld l 0 2 != 0 | none => false) }
/-- R321, R326. -/
def jmpiSpec : XSpec := { a := .vecs 2 2, w3 := 0xFFFFFFFF, bad := fun o => badOff o.w3 }
/-- R321, R327. -/
def callSpec : XSpec :=
  { d := .reg 2, predicable := false, w3 := 0xFFFFFFFF, bad := fun o => badOff o.w3 }
/-- R321, R327. -/
def calliSpec : XSpec := { d := .reg 2, a := .val false (.n 2), predicable := false }
/-- R321, R327. -/
def retSpec : XSpec := { a := .val false (.n 2), predicable := false }
/-- R321: nothing but the switch marker. -/
def bareSpec : XSpec := { predicable := false }
/-- Nothing but PRED and PNEG. -/
def predSpec : XSpec := {}
/-- R330. -/
def execrSpec : XSpec := { d := .reg 1, predicable := false }
/-- R330. -/
def execwSpec : XSpec := { a := .val false (.n 1), predicable := false }
/-- R143, R262: the order and scope an instruction accepts. -/
def badOrder (ok : List Nat) (w : Word) : Bool :=
  decide (4 < fld w 0 3) || !ok.contains (fld w 3 3)
/-- R335, R338. -/
def memSpec (hasD : Bool) (orders : List Nat) : XSpec :=
  { d := (if hasD then .acc else .zero), a := .val false (.n 2), tys := memTys, w3 := 0xFFFFFDFF,
    bad := fun o => badOrder orders o.w3 || (XOps.quad o && o.ty != .b32) }
/-- R339. -/
def tileSpec : XSpec :=
  { d := .reg 1, a := .val false (.n 1), b := .val false (.n 1), tys := [.b32, .f32], w3 := 0xFF,
    bad := fun o => badOrder [0] o.w3 }
/-- R340. -/
def accSpec : XSpec :=
  { d := .reg 1, a := .val false (.n 1), tys := [.b32, .f32], w3 := 0x3FFF,
    bad := fun o => badOrder [0] o.w3 }
/-- R341. -/
def tagSpec (hasD hasA hasB : Bool) : XSpec :=
  { d := (if hasD then .reg 1 else .zero), a := (if hasA then .val false (.n 2) else .zero),
    b := (if hasB then .val false (.n 1) else .zero) }
/-- R342: the types an atomic operation accepts. -/
def atomTys (aop : Nat) : List Ty :=
  if aop ≤ 2 then [.s32, .n32, .s64, .n64, .f32]
  else if aop ≤ 5 then [.b32, .s32, .n32, .s64, .n64] else wideTys
/-- R342. -/
def atomSpec : XSpec :=
  { d := .regTy, a := .val false (.n 2), b := .val false .ty,
    tys := [.b32, .s32, .n32, .s64, .n64, .f32], w3 := 0xFFF,
    bad := fun o => badOrder [0, 1, 2, 3, 4] o.w3 || decide (6 < fld o.w3 8 4),
    badTy := fun o => !(atomTys (fld o.w3 8 4)).contains o.ty }
/-- R342. -/
def casSpec : XSpec :=
  { d := .regTy, a := .val false (.n 2), b := .val false .ty, c := .val false .ty, tys := wideTys,
    w3 := 0xFF, bad := fun o => badOrder [0, 1, 2, 3, 4] o.w3 }
/-- R342. -/
def redSpec : XSpec :=
  { a := .val false (.n 2), b := .val false .ty,
    tys := [.b32, .s32, .n32, .s64, .n64, .f32], w3 := 0xFFF,
    bad := fun o => badOrder [0, 2, 4] o.w3 || decide (5 < fld o.w3 8 4),
    badTy := fun o => !(atomTys (fld o.w3 8 4)).contains o.ty }
/-- R344. -/
def fenceSpec : XSpec :=
  { predicable := false, w3 := 0x3F, bad := fun o => badOrder [1, 2, 3, 4] o.w3 }
/-- R346. -/
def barinitSpec : XSpec :=
  { predicable := false, w3 := 0xFFFF070F,
    bad := fun o => decide (fld o.w3 8 3 < 1) || decide (4 < fld o.w3 8 3) }
/-- R346. -/
def barSpec (m : BitVec 8) : XSpec := { d := .num m, predicable := false }
/-- R346. -/
def waitcSpec : XSpec :=
  { d := .num 0x0F, predicable := false, w3 := 0xFFFFFFFF, bad := fun o => badOff o.w3 }
/-- R362. -/
def xchSpec : XSpec :=
  { d := .regTy, a := .val false .ty, b := .num 0xFF, c := .num 0x3F, tys := wideTys,
    w3 := 0xFFFFFFFF }
/-- R352. -/
def qpushSpec : XSpec :=
  { d := .num 3, a := .sfld (.n 8), bad := fun o => decide (1 < o.d.toNat) }
/-- R352. -/
def qpopSpec : XSpec := { d := .scal 8, a := .num 3, bad := fun o => o.a != 2 }
/-- R352, R388. -/
def qstatSpec (m : BitVec 8) : XSpec :=
  { d := .reg 1, a := .num m, bad := fun o => fld o.a 0 2 == 3 }
/-- R371: the strand selector in word 2 C. -/
def badSsel (mode : Nat) (o : XOps) : Bool :=
  fld o.c 0 2 == 3 || (bit o.c 2 && fld o.c 0 2 != 0)
    || ((mode == 1 || mode == 2) && o.c != 0)
/-- R372: ROLE is zero unless the strand is named by role. -/
def badRole (o : XOps) : Bool := !bit o.c 2 && fld o.w3 16 6 != 0
/-- R371, R376. -/
def mldwSpec : XSpec :=
  { a := .scals 1, c := .num 7, tys := [.e4m3, .e5m2, .f16, .bf16, .qn4], w3 := 0x3F3FFF,
    bad := fun o => badSsel 0 o || badRole o }
/-- R371, R377: in the short form A[3:0] is BAR. -/
def mswapSpec (short : Bool) : XSpec :=
  { d := .num 7, a := (if short then .num 0x0F else .zero), w3 := (if short then 0 else 0x3FFF),
    bad := fun o => o.d == 0 }
/-- R371, R378: Q4 takes FP8 rows only. -/
def mmaSpec : XSpec :=
  { d := .num 0xFF, a := .vecs 1 1, c := .num 7, tys := rowTys, w3 := 0x3FFFFF,
    bad := fun o => badSsel (fld o.w3 14 2) o || badRole o,
    badTy := fun o => fld o.w3 14 2 == 3 && (o.ty == .f16 || o.ty == .bf16) }
/-- R371, R380. -/
def mmajSpec : XSpec :=
  { d := .num 0x3F, a := .vecs 1 1, b := .num 0x3F, c := .num 3, tys := rowTys, w3 := 0xFFFFFFFF,
    bad := fun o => badSsel (fld o.b 4 2) o,
    badTy := fun o => fld o.b 4 2 == 3 && (o.ty == .f16 || o.ty == .bf16) }
/-- R371, R382. -/
def mmasSpec : XSpec :=
  { d := .num 0x3F, a := .scals 1, b := .scals 1, c := .num 7, tys := rowTys, w3 := 0x1FFFFFFF,
    bad := fun o => badSsel (fld o.w3 14 2) o || badRole o,
    badTy := fun o => fld o.w3 14 2 == 3 && (o.ty == .f16 || o.ty == .bf16) }
/-- R383, R384: SRC chooses between a source tile and a scratch offset. -/
def mhadSpec (o : XOps) : XSpec :=
  { d := .num 0x3F, a := (if bit o.w3 17 then .scals 1 else .num 0x3F),
    tys := (if bit o.w3 17 then [.f32, .f16, .bf16, .e4m3, .e5m2] else [.f32]), w3 := 0x3FFFF,
    bad := fun o => fld o.w3 14 2 == 3 }
/-- R385: CAL adds the calibration operand. -/
def mqntSpec (o : XOps) : XSpec :=
  { a := .num 0x3F, b := .scals 1, c := (if bit o.w3 16 then .scals 1 else .zero), tys := [.qn4],
    w3 := 0x13FFF }
/-- R386: COUNT in 1 to 128 and ROW0 + COUNT at most 128. -/
def badRows (o : XOps) : Bool :=
  decide (fld o.w3 23 8 < 1) || decide (128 < fld o.w3 16 7 + fld o.w3 23 8)
/-- R386. -/
def acczSpec : XSpec := { d := .num 0x3F, w3 := 0x7FFF3FFF, bad := badRows }
/-- R387. -/
def acccvtSpec : XSpec :=
  { d := .num 0x3F, a := .scals 1, tys := [.e4m3, .e5m2, .f16, .bf16, .f32], w3 := 0xFFFF3FFF,
    bad := badRows }
/-- R390: `.open` takes A and B, `.rel` A, `.close` neither. -/
def subscribeSpec (o : XOps) : XSpec :=
  { a := (if fld o.w3 0 2 < 2 then .scals 1 else .zero),
    b := (if fld o.w3 0 2 = 0 then .scals 1 else .zero), w3 := 0x3FF,
    bad := fun o => fld o.w3 0 2 == 3 || (fld o.w3 0 2 != 0 && fld o.w3 6 4 != 0) }
/-- R391; a nonzero word 3 [21:20] is a run-time COMMAND_MALFORMED. -/
def publishSpec : XSpec := { a := .scals 2, b := .scals 1, c := .scals 1, w3 := 0x3FFFFF }
/-- R394. -/
def mcadSpec : XSpec :=
  { w3 := 0x1F, bad := fun o => decide (fld o.w3 0 5 < 1) || decide (16 < fld o.w3 0 5) }
/-- R397. -/
def voutSpec : XSpec := { a := .val false (.n 1), b := .val false (.n 1), w3 := 0x1F }
/-- R397. -/
def poutSpec : XSpec :=
  { a := .val false (.n 1), b := .val false (.n 1), c := .val false (.n 1) }
/-- R397: one 32-bit source. -/
def src1Spec : XSpec := { a := .val false (.n 1) }
/-- R397: two 32-bit sources. -/
def src2Spec : XSpec := { a := .val false (.n 1), b := .val false (.n 1) }
/-- R397, R399. -/
def vampSpec : XSpec :=
  { a := .val false (.n 1), b := .val false (.n 1), w3 := 0xFFFFFF,
    bad := fun o => decide (fld o.w3 0 9 < 1) || decide (256 < fld o.w3 0 9)
      || decide (fld o.w3 9 9 < 1) || decide (256 < fld o.w3 9 9) || decide (28 < fld o.w3 18 5) }
/-- R397, R414. -/
def rayqSpec : XSpec := { d := .reg 4, a := .vecs 8 8, b := .val false (.n 2), w3 := 3 }
/-- R397. -/
def sampleSpec : XSpec := { d := .reg 4, a := .vecs 2 2, b := .val false (.n 1) }
/-- R397. -/
def samplevSpec : XSpec := { d := .reg 1, a := .vecs 3 1, b := .val false (.n 1) }
/-- R397, R405. -/
def tilebindSpec : XSpec := { a := .scals 1, b := .scals 1, c := .scals 1 }
/-- R397, R407. -/
def tiledoneSpec : XSpec := { d := .reg 1, a := .val false (.n 1), b := .val false (.n 1) }
/-- R397, R418. -/
def emitqSpec : XSpec := { d := .pred, a := .val false (.n 1) }
/-- R397, R419. -/
def launchSpec : XSpec := { a := .val false (.n 2) }
/-- R397, R420. -/
def spliceSpec : XSpec := { d := .num 7, predicable := false }
/-- R397, R421. -/
def trapSpec : XSpec := { d := .num 0xFF }
/-- R397, R423. -/
def timeSpec : XSpec := { d := .reg 2 }
/-- R397, R423. -/
def perfSpec : XSpec := { d := .reg 2, a := .num 0x0F, bad := fun o => decide (5 < fld o.a 0 4) }
/-- R268, R455: the listed special registers. -/
def srListed (n : Nat) : Bool := decide (n ≤ 0x13) || (decide (0x20 ≤ n) && decide (n ≤ 0x2F))
/-- R268, R455: the special registers of 64 bits. -/
def sr64 (n : Nat) : Bool := [0x0A, 0x10, 0x21, 0x22, 0x23, 0x2B, 0x2C, 0x2D, 0x2E].contains n
/-- R268, R455: the special registers that `WRSR` writes. -/
def srWritable (n : Nat) : Bool :=
  [0x0F, 0x13, 0x23, 0x28, 0x29, 0x2A, 0x2B, 0x2C, 0x2D, 0x2E, 0x2F].contains n
/-- R455: the trap registers, reached in handler mode only. -/
def srTrap (n : Nat) : Bool := decide (0x20 ≤ n) && decide (n ≤ 0x2F)
/-- R397, R424: a 64-bit special register goes to a pair. -/
def rdsrSpec : XSpec :=
  { d := .reg 1, a := .num 0xFF,
    bad := fun o => !srListed o.a.toNat || (sr64 o.a.toNat && misfit o.d 2) }
/-- R397, R425: the source is a pair for a 64-bit register.  A read-only trap register is refused
here only in handler mode, so that check stands with PRIVILEGED (R269). -/
def wrsrSpec (o : XOps) : XSpec :=
  { d := .num 0xFF, a := .val false (.n (if sr64 o.d.toNat then 2 else 1)),
    bad := fun o => !srListed o.d.toNat || (!srWritable o.d.toNat && !srTrap o.d.toNat) }
/-- R397, R403. -/
def mflagSpec : XSpec := { d := .reg 1, a := .num 1 }

/-- R251, R266, R267: the extended form that a short form abbreviates. -/
def normShort (k : SK) (t : Ty) (o : SOps) : XOps :=
  { sw := o.sw, d := o.d, a := o.a, pred := 0, pneg := false, ka := .vec, kb := .vec, kc := .vec,
    ty := t, edge := .zero, c := 0,
    lit := (match k with
      | .bImm => (match o.lit with | some l => some l | none => some (o.b.setWidth 64))
      | .immS => (match o.lit with | some l => some l | none => some (o.b.signExtend 64))
      | _ => o.lit),
    b := (match k with
      | .bVec => o.b.setWidth 8
      | .bLane => o.b.setWidth 8
      | _ => 0),
    w3 := (match k with
      | .mem => (o.b.signExtend 32) <<< 10 ||| 3
      | _ => 0) }

/-- R254, R266: bits [31:26] of a short form that must be zero and are not. -/
def badShort (k : SK) (o : SOps) : Bool :=
  match k with
  | .bZero => o.b != 0
  | .bImm => o.lit.isSome && o.b != 0
  | .immS => o.lit.isSome && o.b != 0
  | _ => false

/-- The form of an instruction: its specification, its operands as an extended form, and what a
short form adds to the reserved fields. -/
structure Form where
  spec : XSpec
  x : XOps
  badS : Bool := false
  /-- R198 and the rules it lists: the instruction waits as though switch-marked -/
  waits : Bool := false

/-- The form of every instruction row; an event row has none. -/
def form : Instr → Option Form
  | .iaddShort o => some (Form.mk (alu2 intTys) (normShort .bVec .s32 o) (badShort .bVec o) false)
  | .iadd o => some (Form.mk (alu2 intTys) o false false)
  | .isubShort o => some (Form.mk (alu2 intTys) (normShort .bVec .s32 o) (badShort .bVec o) false)
  | .isub o => some (Form.mk (alu2 intTys) o false false)
  | .imulShort o => some (Form.mk (alu2 intTys) (normShort .bVec .s32 o) (badShort .bVec o) false)
  | .imul o => some (Form.mk (alu2 intTys) o false false)
  | .imulhShort o => some (Form.mk (alu2 mulTys) (normShort .bVec .s32 o) (badShort .bVec o) false)
  | .imulh o => some (Form.mk (alu2 mulTys) o false false)
  | .imad o => some (Form.mk (alu3 intTys) o false false)
  | .imadw o => some (Form.mk (imadwSpec) o false false)
  | .idivShort o => some (Form.mk (alu2 mulTys) (normShort .bVec .s32 o) (badShort .bVec o) false)
  | .idiv o => some (Form.mk (alu2 mulTys) o false false)
  | .iminShort o => some (Form.mk (alu2 intTys) (normShort .bVec .s32 o) (badShort .bVec o) false)
  | .imin o => some (Form.mk (alu2 intTys) o false false)
  | .imaxShort o => some (Form.mk (alu2 intTys) (normShort .bVec .s32 o) (badShort .bVec o) false)
  | .imax o => some (Form.mk (alu2 intTys) o false false)
  | .iabsShort o => some (Form.mk (alu1 absTys) (normShort .bZero .s32 o) (badShort .bZero o) false)
  | .iabs o => some (Form.mk (alu1 absTys) o false false)
  | .inegShort o => some (Form.mk (alu1 intTys) (normShort .bZero .s32 o) (badShort .bZero o) false)
  | .ineg o => some (Form.mk (alu1 intTys) o false false)
  | .notShort o => some (Form.mk (alu1 bitTys) (normShort .bZero .b32 o) (badShort .bZero o) false)
  | .not o => some (Form.mk (alu1 bitTys) o false false)
  | .popcShort o => some (Form.mk (cnt1) (normShort .bZero .b32 o) (badShort .bZero o) false)
  | .popc o => some (Form.mk (cnt1) o false false)
  | .clzShort o => some (Form.mk (cnt1) (normShort .bZero .b32 o) (badShort .bZero o) false)
  | .clz o => some (Form.mk (cnt1) o false false)
  | .brevShort o => some (Form.mk (alu1 wideTys) (normShort .bZero .b32 o) (badShort .bZero o) false)
  | .brev o => some (Form.mk (alu1 wideTys) o false false)
  | .andShort o => some (Form.mk (alu2 bitTys) (normShort .bVec .b32 o) (badShort .bVec o) false)
  | .and o => some (Form.mk (alu2 bitTys) o false false)
  | .orShort o => some (Form.mk (alu2 bitTys) (normShort .bVec .b32 o) (badShort .bVec o) false)
  | .or o => some (Form.mk (alu2 bitTys) o false false)
  | .xorShort o => some (Form.mk (alu2 bitTys) (normShort .bVec .b32 o) (badShort .bVec o) false)
  | .xor o => some (Form.mk (alu2 bitTys) o false false)
  | .andnShort o => some (Form.mk (alu2 bitTys) (normShort .bVec .b32 o) (badShort .bVec o) false)
  | .andn o => some (Form.mk (alu2 bitTys) o false false)
  | .shlShort o => some (Form.mk (shiftSpec) (normShort .bImm .b32 o) (badShort .bImm o) false)
  | .shl o => some (Form.mk (shiftSpec) o false false)
  | .shrlShort o => some (Form.mk (shiftSpec) (normShort .bImm .b32 o) (badShort .bImm o) false)
  | .shrl o => some (Form.mk (shiftSpec) o false false)
  | .shraShort o => some (Form.mk (shiftSpec) (normShort .bImm .b32 o) (badShort .bImm o) false)
  | .shra o => some (Form.mk (shiftSpec) o false false)
  | .rotlShort o => some (Form.mk (shiftSpec) (normShort .bImm .b32 o) (badShort .bImm o) false)
  | .rotl o => some (Form.mk (shiftSpec) o false false)
  | .bfx o => some (Form.mk (bf3 [.n32, .s32, .b32]) o false false)
  | .bfi o => some (Form.mk (bf3 [.b32]) o false false)
  | .icmp _ o => some (Form.mk (cmpSpec intTys) o false false)
  | .isel o => some (Form.mk (alu3 bitTys) o false false)
  | .leaShort o => some (Form.mk (leaSpec) (normShort .bVec .s32 o) (badShort .bVec o) false)
  | .lea o => some (Form.mk (leaSpec) o false false)
  | .faddShort o => some (Form.mk (alu2 fltTys) (normShort .bVec .f32 o) (badShort .bVec o) false)
  | .fadd o => some (Form.mk (alu2 fltTys) o false false)
  | .fsubShort o => some (Form.mk (alu2 fltTys) (normShort .bVec .f32 o) (badShort .bVec o) false)
  | .fsub o => some (Form.mk (alu2 fltTys) o false false)
  | .fmulShort o => some (Form.mk (alu2 fltTys) (normShort .bVec .f32 o) (badShort .bVec o) false)
  | .fmul o => some (Form.mk (alu2 fltTys) o false false)
  | .ffma o => some (Form.mk (alu3 fltTys) o false false)
  | .fminShort o => some (Form.mk (alu2 fltTys) (normShort .bVec .f32 o) (badShort .bVec o) false)
  | .fmin o => some (Form.mk (alu2 fltTys) o false false)
  | .fmaxShort o => some (Form.mk (alu2 fltTys) (normShort .bVec .f32 o) (badShort .bVec o) false)
  | .fmax o => some (Form.mk (alu2 fltTys) o false false)
  | .fcmp _ o => some (Form.mk (cmpSpec fltTys) o false false)
  | .fdivShort o => some (Form.mk (alu2 [.f32]) (normShort .bVec .f32 o) (badShort .bVec o) false)
  | .fdiv o => some (Form.mk (alu2 [.f32]) o false false)
  | .fabsShort o => some (Form.mk (alu1 fltTys) (normShort .bZero .f32 o) (badShort .bZero o) false)
  | .fabs o => some (Form.mk (alu1 fltTys) o false false)
  | .fnegShort o => some (Form.mk (alu1 fltTys) (normShort .bZero .f32 o) (badShort .bZero o) false)
  | .fneg o => some (Form.mk (alu1 fltTys) o false false)
  | .frcpShort o => some (Form.mk (alu1 [.f32]) (normShort .bZero .f32 o) (badShort .bZero o) false)
  | .frcp o => some (Form.mk (alu1 [.f32]) o false false)
  | .frsqShort o => some (Form.mk (alu1 [.f32]) (normShort .bZero .f32 o) (badShort .bZero o) false)
  | .frsq o => some (Form.mk (alu1 [.f32]) o false false)
  | .fsqrtShort o => some (Form.mk (alu1 [.f32]) (normShort .bZero .f32 o) (badShort .bZero o) false)
  | .fsqrt o => some (Form.mk (alu1 [.f32]) o false false)
  | .fexp2Short o => some (Form.mk (alu1 [.f32]) (normShort .bZero .f32 o) (badShort .bZero o) false)
  | .fexp2 o => some (Form.mk (alu1 [.f32]) o false false)
  | .flog2Short o => some (Form.mk (alu1 [.f32]) (normShort .bZero .f32 o) (badShort .bZero o) false)
  | .flog2 o => some (Form.mk (alu1 [.f32]) o false false)
  | .fsinShort o => some (Form.mk (alu1 [.f32]) (normShort .bZero .f32 o) (badShort .bZero o) false)
  | .fsin o => some (Form.mk (alu1 [.f32]) o false false)
  | .fcosShort o => some (Form.mk (alu1 [.f32]) (normShort .bZero .f32 o) (badShort .bZero o) false)
  | .fcos o => some (Form.mk (alu1 [.f32]) o false false)
  | .froundShort o => some (Form.mk (alu1 [.f32]) (normShort .bZero .f32 o) (badShort .bZero o) false)
  | .fround o => some (Form.mk (alu1 [.f32]) o false false)
  | .fclassShort o => some (Form.mk (alu1 [.f32]) (normShort .bZero .f32 o) (badShort .bZero o) false)
  | .fclass o => some (Form.mk (alu1 [.f32]) o false false)
  | .cvt o => some (Form.mk (cvtSpec) o false false)
  | .hfma2 o => some (Form.mk (alu3 [.f16, .bf16]) o false false)
  | .dot4 o => some (Form.mk (alu3 [.e4m3, .e5m2, .s8, .n8]) o false false)
  | .movShort o => some (Form.mk (alu1 wideTys) (normShort .bZero .b32 o) (badShort .bZero o) false)
  | .mov o => some (Form.mk (alu1 wideTys) o false false)
  | .moviShort o => some (Form.mk (moviSpec .regTy) (normShort .immS .b32 o) (badShort .immS o) false)
  | .movi o => some (Form.mk (moviSpec .regTy) o false false)
  | .bcastShort o => some (Form.mk (laneSpec (.reg 1)) (normShort .bLane .b32 o) (badShort .bLane o) false)
  | .bcast o => some (Form.mk (laneSpec (.reg 1)) o false false)
  | .shfl _ o => some (Form.mk (shflSpec) o false true)
  | .vote op o => some (Form.mk (voteSpec op) o false true)
  | .redux op o => some (Form.mk (reduxSpec op) o false true)
  | .scan op _ o => some (Form.mk (reduxSpec op) o false true)
  | .movsShort o => some (Form.mk (laneSpec (.scal 1)) (normShort .bLane .b32 o) (badShort .bLane o) false)
  | .movs o => some (Form.mk (laneSpec (.scal 1)) o false false)
  | .smovShort o => some (Form.mk (smovSpec) (normShort .bZero .b32 o) (badShort .bZero o) false)
  | .smov o => some (Form.mk (smovSpec) o false false)
  | .smoviShort o => some (Form.mk (moviSpec .scalTy) (normShort .immS .b32 o) (badShort .immS o) false)
  | .smovi o => some (Form.mk (moviSpec .scalTy) o false false)
  | .saddShort o => some (Form.mk (salu2 mulTys) (normShort .bVec .s32 o) (badShort .bVec o) false)
  | .sadd o => some (Form.mk (salu2 mulTys) o false false)
  | .ssubShort o => some (Form.mk (salu2 mulTys) (normShort .bVec .s32 o) (badShort .bVec o) false)
  | .ssub o => some (Form.mk (salu2 mulTys) o false false)
  | .smulShort o => some (Form.mk (salu2 mulTys) (normShort .bVec .s32 o) (badShort .bVec o) false)
  | .smul o => some (Form.mk (salu2 mulTys) o false false)
  | .sandShort o => some (Form.mk (salu2 wideTys) (normShort .bVec .b32 o) (badShort .bVec o) false)
  | .sand o => some (Form.mk (salu2 wideTys) o false false)
  | .sorShort o => some (Form.mk (salu2 wideTys) (normShort .bVec .b32 o) (badShort .bVec o) false)
  | .sor o => some (Form.mk (salu2 wideTys) o false false)
  | .sxorShort o => some (Form.mk (salu2 wideTys) (normShort .bVec .b32 o) (badShort .bVec o) false)
  | .sxor o => some (Form.mk (salu2 wideTys) o false false)
  | .sshlShort o => some (Form.mk (sshSpec) (normShort .bImm .b32 o) (badShort .bImm o) false)
  | .sshl o => some (Form.mk (sshSpec) o false false)
  | .sshrShort o => some (Form.mk (sshSpec) (normShort .bImm .b32 o) (badShort .bImm o) false)
  | .sshr o => some (Form.mk (sshSpec) o false false)
  | .scmp _ o => some (Form.mk (scmpSpec) o false false)
  | .ssel o => some (Form.mk (sselSpec) o false false)
  | .bra o => some (Form.mk (braSpec) o false false)
  | .brd o => some (Form.mk (brdSpec) o false true)
  | .join o => some (Form.mk (bareSpec) (normShort .bZero .b32 o) (badShort .bZero o) true)
  | .jmpi o => some (Form.mk (jmpiSpec) o false true)
  | .call o => some (Form.mk (callSpec) o false true)
  | .calliShort o => some (Form.mk (calliSpec) (normShort .bZero .b32 o) (badShort .bZero o) true)
  | .calli o => some (Form.mk (calliSpec) o false true)
  | .retShort o => some (Form.mk (retSpec) (normShort .bZero .b32 o) (badShort .bZero o) true)
  | .ret o => some (Form.mk (retSpec) o false true)
  | .land o => some (Form.mk (bareSpec) (normShort .bZero .b32 o) (badShort .bZero o) false)
  | .exitShort o => some (Form.mk (predSpec) (normShort .bZero .b32 o) (badShort .bZero o) true)
  | .exit o => some (Form.mk (predSpec) o false true)
  | .execrShort o => some (Form.mk (execrSpec) (normShort .bZero .b32 o) (badShort .bZero o) false)
  | .execr o => some (Form.mk (execrSpec) o false false)
  | .execwShort o => some (Form.mk (execwSpec) (normShort .bZero .b32 o) (badShort .bZero o) false)
  | .execw o => some (Form.mk (execwSpec) o false false)
  | .nop o => some (Form.mk (bareSpec) (normShort .bZero .b32 o) (badShort .bZero o) false)
  | .yield o => some (Form.mk (bareSpec) (normShort .bZero .b32 o) (badShort .bZero o) true)
  | .ffence o => some (Form.mk (bareSpec) (normShort .bZero .b32 o) (badShort .bZero o) true)
  | .ldShort o => some (Form.mk (memSpec true [0, 1]) (normShort .mem .b32 o) (badShort .mem o) false)
  | .ld o => some (Form.mk (memSpec true [0, 1]) o false false)
  | .stShort o => some (Form.mk (memSpec true [0, 2]) (normShort .mem .b32 o) (badShort .mem o) false)
  | .st o => some (Form.mk (memSpec true [0, 2]) o false false)
  | .lduShort o => some (Form.mk (memSpec true [0, 1]) (normShort .mem .b32 o) (badShort .mem o) false)
  | .ldu o => some (Form.mk (memSpec true [0, 1]) o false false)
  | .prefShort o => some (Form.mk (memSpec false [0]) (normShort .mem .b32 o) (badShort .mem o) false)
  | .pref o => some (Form.mk (memSpec false [0]) o false false)
  | .ldt o => some (Form.mk (tileSpec) o false false)
  | .stt o => some (Form.mk (tileSpec) o false false)
  | .ldacc o => some (Form.mk (accSpec) o false false)
  | .stacc o => some (Form.mk (accSpec) o false false)
  | .tlook o => some (Form.mk (tagSpec true true false) o false false)
  | .tlookClm o => some (Form.mk (tagSpec true true false) o false false)
  | .tfill o => some (Form.mk (tagSpec false true true) o false false)
  | .tevict o => some (Form.mk (tagSpec true true true) o false false)
  | .tinv o => some (Form.mk (tagSpec false false false) o false false)
  | .atom o => some (Form.mk (atomSpec) o false false)
  | .atomcas o => some (Form.mk (casSpec) o false false)
  | .red o => some (Form.mk (redSpec) o false false)
  | .fence o => some (Form.mk (fenceSpec) o false false)
  | .opfence o => some (Form.mk (bareSpec) (normShort .bZero .b32 o) (badShort .bZero o) true)
  | .barinit o => some (Form.mk (barinitSpec) o false false)
  | .baraShort o => some (Form.mk (barSpec 0x0F) (normShort .bZero .b32 o) (badShort .bZero o) false)
  | .bara o => some (Form.mk (barSpec 0x0F) o false false)
  | .barwShort o => some (Form.mk (barSpec 0x0F) (normShort .bZero .b32 o) (badShort .bZero o) false)
  | .barw o => some (Form.mk (barSpec 0x0F) o false false)
  | .barawShort o => some (Form.mk (barSpec 0x0F) (normShort .bZero .b32 o) (badShort .bZero o) false)
  | .baraw o => some (Form.mk (barSpec 0x0F) o false false)
  | .waitc o => some (Form.mk (waitcSpec) o false true)
  | .gsetShort o => some (Form.mk (barSpec 0x1F) (normShort .bZero .b32 o) (badShort .bZero o) false)
  | .gset o => some (Form.mk (barSpec 0x1F) o false false)
  | .gclrShort o => some (Form.mk (barSpec 0x0F) (normShort .bZero .b32 o) (badShort .bZero o) false)
  | .gclr o => some (Form.mk (barSpec 0x0F) o false false)
  | .xch o => some (Form.mk (xchSpec) o false true)
  | .qpushShort o => some (Form.mk (qpushSpec) (normShort .bZero .b32 o) (badShort .bZero o) false)
  | .qpush o => some (Form.mk (qpushSpec) o false false)
  | .qpopShort o => some (Form.mk (qpopSpec) (normShort .bZero .b32 o) (badShort .bZero o) false)
  | .qpop o => some (Form.mk (qpopSpec) o false false)
  | .qstatShort o => some (Form.mk (qstatSpec 0x03) (normShort .bZero .b32 o) (badShort .bZero o) false)
  | .qstat o => some (Form.mk (qstatSpec 0x03) o false false)
  | .qstatSatShort o => some (Form.mk (qstatSpec 0x07) (normShort .bZero .b32 o) (badShort .bZero o) false)
  | .qstatSat o => some (Form.mk (qstatSpec 0x07) o false false)
  | .mldw o => some (Form.mk (mldwSpec) o false false)
  | .mswapShort o => some (Form.mk (mswapSpec true) (normShort .bZero .b32 o) (badShort .bZero o) false)
  | .mswap o => some (Form.mk (mswapSpec false) o false false)
  | .mma o => some (Form.mk (mmaSpec) o false false)
  | .mmaJ o => some (Form.mk (mmajSpec) o false true)
  | .mmas o => some (Form.mk (mmasSpec) o false false)
  | .mhad o => some (Form.mk (mhadSpec o) o false false)
  | .mqnt o => some (Form.mk (mqntSpec o) o false false)
  | .accz o => some (Form.mk (acczSpec) o false false)
  | .acccvt o => some (Form.mk (acccvtSpec) o false false)
  | .subscribe o => some (Form.mk (subscribeSpec o) o false false)
  | .publish o => some (Form.mk (publishSpec) o false false)
  | .mcad o => some (Form.mk (mcadSpec) o false false)
  | .vout o => some (Form.mk (voutSpec) o false false)
  | .pout o => some (Form.mk (poutSpec) o false false)
  | .msetcnt o => some (Form.mk (src1Spec) o false true)
  | .vamp o => some (Form.mk (vampSpec) o false false)
  | .rayl o => some (Form.mk (src2Spec) o false false)
  | .rayq o => some (Form.mk (rayqSpec) o false true)
  | .sample o => some (Form.mk (sampleSpec) o false false)
  | .samplev o => some (Form.mk (samplevSpec) o false false)
  | .tilebind o => some (Form.mk (tilebindSpec) o false false)
  | .tiledone o => some (Form.mk (tiledoneSpec) o false false)
  | .tilerel o => some (Form.mk (predSpec) o false false)
  | .emitShort o => some (Form.mk (src1Spec) (normShort .bZero .b32 o) (badShort .bZero o) false)
  | .emit o => some (Form.mk (src1Spec) o false false)
  | .emitqShort o => some (Form.mk (emitqSpec) (normShort .bZero .b32 o) (badShort .bZero o) false)
  | .emitq o => some (Form.mk (emitqSpec) o false false)
  | .launchShort o => some (Form.mk (launchSpec) (normShort .bZero .b32 o) (badShort .bZero o) true)
  | .launch o => some (Form.mk (launchSpec) o false true)
  | .spliceShort o => some (Form.mk (spliceSpec) (normShort .bZero .b32 o) (badShort .bZero o) true)
  | .splice o => some (Form.mk (spliceSpec) o false true)
  | .spliceRelShort o => some (Form.mk (spliceSpec) (normShort .bZero .b32 o) (badShort .bZero o) true)
  | .spliceRel o => some (Form.mk (spliceSpec) o false true)
  | .trapShort o => some (Form.mk (trapSpec) (normShort .bZero .b32 o) (badShort .bZero o) true)
  | .trap o => some (Form.mk (trapSpec) o false true)
  | .bkptShort o => some (Form.mk (trapSpec) (normShort .bZero .b32 o) (badShort .bZero o) false)
  | .bkpt o => some (Form.mk (trapSpec) o false false)
  | .icinvShort o => some (Form.mk (bareSpec) (normShort .bZero .b32 o) (badShort .bZero o) false)
  | .icinv o => some (Form.mk (bareSpec) o false false)
  | .timeShort o => some (Form.mk (timeSpec) (normShort .bZero .b32 o) (badShort .bZero o) false)
  | .time o => some (Form.mk (timeSpec) o false false)
  | .perfShort o => some (Form.mk (perfSpec) (normShort .bZero .b32 o) (badShort .bZero o) false)
  | .perf o => some (Form.mk (perfSpec) o false false)
  | .rdsrShort o => some (Form.mk (rdsrSpec) (normShort .bZero .b32 o) (badShort .bZero o) false)
  | .rdsr o => some (Form.mk (rdsrSpec) o false false)
  | .wrsrShort o => let x := normShort .bZero .b32 o; some (Form.mk (wrsrSpec x) x (badShort .bZero o) false)
  | .wrsr o => some (Form.mk (wrsrSpec o) o false false)
  | .mflagShort o => some (Form.mk (mflagSpec) (normShort .bZero .b32 o) (badShort .bZero o) false)
  | .mflag o => some (Form.mk (mflagSpec) o false false)
  | .wayIssueSelect _ _ => none
  | .fragmentPromote _ _ => none
  | .divergenceMeetingComplete _ _ => none
  | .memberArrivalComplete _ _ => none
  | .xchPair _ _ => none
  | .mmaJForm _ _ => none
  | .qpushEnter _ _ => none
  | .qpopUnblock _ _ => none
  | .barrierWaitRelease _ _ => none
  | .waitcReactivate _ _ => none
  | .publishReserve _ _ => none
  | .subscribeCloseComplete _ _ => none
  | .tilebindProceed _ _ => none
  | .spliceMeetingComplete _ => none
  | .spliceDrainDone _ => none
  | .spliceGrowthRetry _ => none
  | .copy _ => none
  | .copy2d _ => none
  | .copy3d _ => none
  | .mcast _ => none
  | .publishCommand _ => none
  | .migrate _ => none
  | .migrateCopy _ _ => none
  | .matrixCommand _ => none
  | .snubInjectionGrant _ => none
  | .snubWindowBoundary _ => none
  | .engineCommandComplete _ _ => none
  | .meshletRaster _ _ => none
  | .rayRequestTrace _ _ => none
  | .intersectionRequestComplete _ _ => none
  | .rayqTraceDone _ _ => none
  | .translationWalk _ _ _ => none
  | .homeAccessPerform _ => none
  | .scTicketGrant => none
  | .loadReturn _ _ => none
  | .writeBufferDrain _ => none
  | .invalidationProbe _ => none
  | .sliceFill _ _ => none
  | .hotCounterIncrement _ => none
  | .blockDecodeComplete _ _ => none
  | .tokenBucketAdmit _ => none
  | .viInval _ _ => none
  | .viInvalComplete _ => none
  | .hotHalve _ => none
  | .hotHalveDone => none
  | .stSplitWrite _ _ => none
  | .partGeomWrite _ _ => none
  | .partGeomApplyDone _ => none
  | .viPrangeWrite _ _ _ _ => none
  | .viCfgWrite _ _ => none
  | .tbWrite _ _ => none
  | .lqCfgWrite _ _ => none
  | .lqTailWrite _ _ => none
  | .launchRecordConsume _ => none
  | .gridAccept _ => none
  | .teamPlace _ => none
  | .eviction _ => none
  | .preemptSaveComplete _ => none
  | .teamRetire _ => none
  | .graphTeamStart _ _ => none
  | .stealAttempt _ _ => none
  | .eventRecordWrite _ _ => none
  | .eventRingCountInterrupt _ _ => none
  | .eventRingTimeInterrupt _ _ => none
  | .evCfgWrite _ _ _ => none
  | .dispCfgWrite _ _ => none
  | .linkTrained _ _ _ => none
  | .stripLatch _ _ => none
  | .stripDeadline _ _ => none
  | .serialiserTileRead _ _ => none
  | .gazeMailboxWrite _ _ _ => none
  | .governorTick _ => none
  | .nearThresholdEnter _ _ => none
  | .watchdog _ _ => none
  | .coreDbgHalt _ _ => none
  | .coreDbgResume _ _ => none
  | .hostMemoryAccess _ _ _ _ => none
  | .peerTailWrite _ _ => none
  | .peerCopyComplete _ _ _ => none
  | .peerRequest _ _ _ _ => none
  | .regRd => none
  | .regWr => none
  | .keyLoad => none
  | .keyEmpty => none
  | .keyEmptyDone _ => none
  | .attest => none
  | .attestKeys => none
  | .dbgRd => none
  | .dbgWr => none
  | .fwUpdate => none
  | .peerBind => none
  | .ngkUnassignedCommand => none
  | .moduleReset => none
  | .romImageVerify => none
  | .fwBringupComplete _ _ => none
  | .registerWrite _ _ _ => none
  | .softError _ _ => none
  | .linkLost _ => none
  | .peerRemoteBind _ => none

/-- R257, R346: a destination field that is refused. -/
def badD (u : DUse) (o : XOps) : Bool :=
  match u with
  | .zero => o.d != 0
  | .regTy => misfit o.d (tyRegs o.ty)
  | .reg k => misfit o.d k
  | .acc => misfit o.d (accRegs o)
  | .pred => fld o.d 3 5 != 0
  | .scal k => decide (64 ≤ o.d.toNat) || misfit o.d k
  | .scalTy => decide (64 ≤ o.d.toNat) || misfit o.d (tyRegs o.ty)
  | .num m => o.d &&& ~~~m != 0

/-- R257, R258: a source field, with its kind, that is refused.  `t` is the type that gives the
operand's width. -/
def badS (u : SUse) (k : Kind) (f : BitVec 8) (t : Ty) : Bool :=
  match u with
  | .zero => f != 0 || k != .vec
  | .val nb w =>
    ((k == .left || k == .right) && !nb) || misfit f (w.count t)
      || (k == .scal && decide (64 ≤ f.toNat))
  | .vecs _ al => k != .vec || misfit f al
  | .scals n => k != .scal || decide (64 ≤ f.toNat) || misfit f n
  | .sfld w => k != .vec || decide (64 ≤ f.toNat) || misfit f (w.count t)
  | .num m => k != .vec || f &&& ~~~m != 0

/-- R254: the field a literal replaces, and its kind, must be zero; a literal for an operand of 32
bits or fewer must be zero above or a sign extension.  `ta` is the type that gives A's width. -/
def badLit (sp : XSpec) (o : XOps) (ta : Ty) : Bool :=
  match o.lit with
  | none => false
  | some l =>
    let narrow : Bool := (l.toNat / 2 ^ 32 != 0) && (l != (l.setWidth 32).signExtend 64)
    let w (u : SUse) (t : Ty) : Nat :=
      match u with | .val _ q => q.count t | .sfld q => q.count t | _ => 1
    match sp.lit with
    | .none => false
    | .a => o.a != 0 || o.ka != .vec || (decide (w sp.a ta < 2) && narrow)
    | .b => o.b != 0 || o.kb != .vec || (decide (w sp.b o.ty < 2) && narrow)
    | .c => o.c != 0 || o.kc != .vec || (decide (w sp.c o.ty < 2) && narrow)
    | .val => decide (tyRegs o.ty < 2) && narrow
    | .join => narrow

/-- R311: the width of a `CVT` source goes by the source type, of every other source by TYPE. -/
def srcTy (i : Instr) (o : XOps) : Ty :=
  match i with
  | .cvt _ => cvtSty o
  | _ => o.ty

/-- R258, R261: some kind field names a neighbour. -/
def hasNeighbour (o : XOps) : Bool :=
  o.ka == .left || o.ka == .right || o.kb == .left || o.kb == .right
    || o.kc == .left || o.kc == .right

/-- R255 step 4 for the fields of an instruction. -/
def reservedField (i : Instr) (f : Form) : Bool :=
  let o := f.x
  let sp := f.spec
  f.badS || badD sp.d o
    || (badS sp.a o.ka o.a (srcTy i o)) || (badS sp.b o.kb o.b o.ty) || (badS sp.c o.kc o.c o.ty)
    || (!sp.predicable && (o.pred != 0 || o.pneg))
    || (!hasNeighbour o && o.edge != .zero)
    || (o.w3 &&& ~~~sp.w3 != 0)
    || badLit sp o (srcTy i o)
    || sp.bad o

/-- R255 steps 3 to 5 for an instruction whose major and sub-opcode are known: the first cause
that its fields meet. -/
def formCause (i : Instr) : Option Cause :=
  match form i with
  | none => none
  | some f =>
    if f.spec.lit == .none && f.x.lit.isSome then some .badLength
    else if f.spec.lit == .join && f.x.lit.isNone then some .badLength
    else if reservedField i f then some .reservedField
    else if !f.spec.tys.contains f.x.ty || f.spec.badTy f.x then some .typeInvalid
    else none

/-- The registers of an `MMA` row (R378): NR by mode and type. -/
def rowRegs (mode : Nat) (t : Ty) : Nat :=
  let wide := t == .f16 || t == .bf16
  match mode with
  | 3 => 64
  | 2 => if wide then 192 else 96
  | _ => if wide then 64 else 32

/-- R193: the member mask of an instruction. -/
def memberMask (i : Instr) : Word :=
  match i with
  | .shfl _ o => o.w3
  | .vote _ o => o.w3
  | .redux _ o => o.w3
  | .scan _ _ o => o.w3
  | .xch o => o.w3
  | _ => 0

/-- The destination runs (R257, R268), which an instruction writes and, but for the stores, whose D field is a source
(R338), never reads as a source. -/
def dstRuns (i : Instr) : List (Nat × Nat) :=
  match form i with
  | none => []
  | some f =>
    (match f.spec.d with
     | .regTy => [(f.x.d.toNat, tyRegs f.x.ty)]
     | .reg k => [(f.x.d.toNat, k)]
     | .acc => [(f.x.d.toNat, accRegs f.x)]
     | _ => []) ++
    (match i with
     | .rdsr x => if sr64 x.a.toNat then [(x.d.toNat, 2)] else []
     | .rdsrShort x => if sr64 x.a.toNat then [(x.d.toNat, 2)] else []
     | _ => [])

/-- The vector sources: which lane each is read in (R258, R299), and its run of registers. -/
def srcUses (i : Instr) : List (Kind × (Nat × Nat)) :=
  match form i with
  | none => []
  | some f =>
    let o := f.x
    let sr (u : SUse) (k : Kind) (g : BitVec 8) (t : Ty) (isLit : Bool) : List (Kind × (Nat × Nat)) :=
      match u with
      | .val _ w => if k == .scal || isLit then [] else [(k, (g.toNat, w.count t))]
      | .vecs n _ => [(.vec, (g.toNat, n))]
      | _ => []
    let lit := o.lit.isSome
    let extra : List (Kind × (Nat × Nat)) :=
      match i with
      | .mma x => [(.vec, (x.a.toNat, rowRegs (fld x.w3 14 2) x.ty))]
      | .mmaJ x => [(.vec, (x.a.toNat, rowRegs (fld x.b 4 2) x.ty))]
      | _ => []
    sr f.spec.a o.ka o.a (srcTy i o) (lit && f.spec.lit == .a)
      ++ sr f.spec.b o.kb o.b o.ty (lit && f.spec.lit == .b)
      ++ sr f.spec.c o.kc o.c o.ty (lit && f.spec.lit == .c) ++ extra

/-- R66: the runs of vector registers an instruction names, first register and count; the upper
register of a pair included (R255 step 7). -/
def vregRuns (i : Instr) : List (Nat × Nat) := dstRuns i ++ (srcUses i).map (fun u => u.2)

end Sys2Proof.Machine
end

