-- ==== Sys2Proof/WellFormed.lean ====
section
/-! DEFINITION. Well-formed instructions: the terms of `Instr` that some instruction words stand
for.  The conditions are those of R253 to R262 as `Machine.formCause` gives them. -/

namespace Sys2Proof

/-- An instruction whose fields the decoder accepts; an event row always is. -/
def Instr.WellFormed (i : Instr) : Prop := Machine.formCause i = none

end Sys2Proof
end

