-- ==== Sys2Proof/Decode.lean ====
section
/-! DEFINITION. Instruction words to instructions and back (R250 to R269).  Decoding is total: any
bytes give an instruction or the cause that refuses them, in the order of R255. -/

namespace Sys2Proof

open Sys2Proof.Machine

/-- R266: the lengths each major permits; `none` for an unassigned major (R264). -/
def majorLens (op : Nat) : Option (List Nat) :=
  if op = 0x00 then none
  else if [0x05, 0x06, 0x13, 0x14, 0x15, 0x16, 0x1B, 0x1E, 0x21, 0x22, 0x23, 0x3A, 0x3B].contains op
    then some [2, 3]
  else if [0x26, 0x2B].contains op then some [0, 2]
  else if op ≤ 0x25 then some [0, 1, 2, 3]
  else if op ≤ 0x2A then some [2]
  else if op ≤ 0x2F then none
  else if op ≤ 0x39 then some [0, 1, 2, 3]
  else if op ≤ 0x3F then none
  else if op = 0x41 then some [3]
  else if [0x42, 0x47, 0x4A, 0x4B, 0x4C, 0x5D].contains op then some [0]
  else if [0x45, 0x46, 0x48, 0x49, 0x50, 0x51, 0x52, 0x53, 0x60, 0x62, 0x64, 0x65, 0x66, 0x68,
    0x79, 0x7A, 0x7B, 0x7C, 0x7E].contains op then some [0, 2]
  else if [0x4D, 0x4E, 0x4F, 0x5F, 0x7F].contains op then none
  else if op ≤ 0x7E then some [2]
  else none

/-- R265: whether bits [31:26] of a major's short form hold the sub-opcode (R266). -/
def subInShort (op : Nat) : Bool := [0x0A, 0x20, 0x49, 0x60, 0x62, 0x66, 0x79, 0x7A].contains op

/-- R265: the condition of a sub-opcode. -/
def ccOf : Nat → Option Cc
  | 0 => some .eq | 1 => some .ne | 2 => some .lt | 3 => some .le | 4 => some .gt | 5 => some .ge
  | _ => none
/-- R265. -/
def ccCode : Cc → Nat
  | .eq => 0 | .ne => 1 | .lt => 2 | .le => 3 | .gt => 4 | .ge => 5
/-- R265: the floating condition of a sub-opcode. -/
def fccOf : Nat → Option FCc
  | 0 => some .eq | 1 => some .ne | 2 => some .lt | 3 => some .le | 4 => some .gt | 5 => some .ge
  | 6 => some .ord | 7 => some .uno | _ => none
/-- R265. -/
def fccCode : FCc → Nat
  | .eq => 0 | .ne => 1 | .lt => 2 | .le => 3 | .gt => 4 | .ge => 5 | .ord => 6 | .uno => 7
/-- R265: the mode of a `SHFL`. -/
def shflOf : Nat → Option ShflMode
  | 0 => some .idx | 1 => some .up | 2 => some .down | 3 => some .xor | _ => none
/-- R265. -/
def shflCode : ShflMode → Nat
  | .idx => 0 | .up => 1 | .down => 2 | .xor => 3
/-- R265: the operation of a `VOTE`. -/
def voteOf : Nat → Option VoteOp
  | 0 => some .any | 1 => some .all | 2 => some .ballot | _ => none
/-- R265. -/
def voteCode : VoteOp → Nat
  | .any => 0 | .all => 1 | .ballot => 2
/-- R265: the operation of a `REDUX`. -/
def redOf : Nat → Option RedOp
  | 0 => some .add | 1 => some .min | 2 => some .max | 3 => some .and | 4 => some .or
  | 5 => some .xor | _ => none
/-- R265. -/
def redCode : RedOp → Nat
  | .add => 0 | .min => 1 | .max => 2 | .and => 3 | .or => 4 | .xor => 5
/-- R265: `SCAN` with sub-opcode 32 + op is exclusive. -/
def scanOf (n : Nat) : Option (RedOp × Bool) :=
  if n < 32 then (redOf n).map (fun r => (r, false)) else (redOf (n - 32)).map (fun r => (r, true))

/-- R264, R265: the short form of a major and sub-opcode. -/
def mkShort (op sub : Nat) (o : SOps) : Option Instr :=
  match op with
  | 0x01 => (match sub with | 0 => some (.iaddShort o) | _ => none)
  | 0x02 => (match sub with | 0 => some (.isubShort o) | _ => none)
  | 0x03 => (match sub with | 0 => some (.imulShort o) | _ => none)
  | 0x04 => (match sub with | 0 => some (.imulhShort o) | _ => none)
  | 0x07 => (match sub with | 0 => some (.idivShort o) | _ => none)
  | 0x08 => (match sub with | 0 => some (.iminShort o) | _ => none)
  | 0x09 => (match sub with | 0 => some (.imaxShort o) | _ => none)
  | 0x0A => (match sub with | 0 => some (.iabsShort o) | 1 => some (.inegShort o) | 2 => some (.notShort o) | 3 => some (.popcShort o) | 4 => some (.clzShort o) | 5 => some (.brevShort o) | _ => none)
  | 0x0B => (match sub with | 0 => some (.andShort o) | _ => none)
  | 0x0C => (match sub with | 0 => some (.orShort o) | _ => none)
  | 0x0D => (match sub with | 0 => some (.xorShort o) | _ => none)
  | 0x0E => (match sub with | 0 => some (.andnShort o) | _ => none)
  | 0x0F => (match sub with | 0 => some (.shlShort o) | _ => none)
  | 0x10 => (match sub with | 0 => some (.shrlShort o) | _ => none)
  | 0x11 => (match sub with | 0 => some (.shraShort o) | _ => none)
  | 0x12 => (match sub with | 0 => some (.rotlShort o) | _ => none)
  | 0x17 => (match sub with | 0 => some (.leaShort o) | _ => none)
  | 0x18 => (match sub with | 0 => some (.faddShort o) | _ => none)
  | 0x19 => (match sub with | 0 => some (.fsubShort o) | _ => none)
  | 0x1A => (match sub with | 0 => some (.fmulShort o) | _ => none)
  | 0x1C => (match sub with | 0 => some (.fminShort o) | _ => none)
  | 0x1D => (match sub with | 0 => some (.fmaxShort o) | _ => none)
  | 0x1F => (match sub with | 0 => some (.fdivShort o) | _ => none)
  | 0x20 => (match sub with | 0 => some (.fabsShort o) | 1 => some (.fnegShort o) | 2 => some (.frcpShort o) | 3 => some (.frsqShort o) | 4 => some (.fsqrtShort o) | 5 => some (.fexp2Short o) | 6 => some (.flog2Short o) | 7 => some (.fsinShort o) | 8 => some (.fcosShort o) | 9 => some (.froundShort o) | 10 => some (.fclassShort o) | _ => none)
  | 0x24 => (match sub with | 0 => some (.movShort o) | _ => none)
  | 0x25 => (match sub with | 0 => some (.moviShort o) | _ => none)
  | 0x26 => (match sub with | 0 => some (.bcastShort o) | _ => none)
  | 0x2B => (match sub with | 0 => some (.movsShort o) | _ => none)
  | 0x30 => (match sub with | 0 => some (.smovShort o) | _ => none)
  | 0x31 => (match sub with | 0 => some (.smoviShort o) | _ => none)
  | 0x32 => (match sub with | 0 => some (.saddShort o) | _ => none)
  | 0x33 => (match sub with | 0 => some (.ssubShort o) | _ => none)
  | 0x34 => (match sub with | 0 => some (.smulShort o) | _ => none)
  | 0x35 => (match sub with | 0 => some (.sandShort o) | _ => none)
  | 0x36 => (match sub with | 0 => some (.sorShort o) | _ => none)
  | 0x37 => (match sub with | 0 => some (.sxorShort o) | _ => none)
  | 0x38 => (match sub with | 0 => some (.sshlShort o) | _ => none)
  | 0x39 => (match sub with | 0 => some (.sshrShort o) | _ => none)
  | 0x42 => (match sub with | 0 => some (.join o) | _ => none)
  | 0x45 => (match sub with | 0 => some (.calliShort o) | _ => none)
  | 0x46 => (match sub with | 0 => some (.retShort o) | _ => none)
  | 0x47 => (match sub with | 0 => some (.land o) | _ => none)
  | 0x48 => (match sub with | 0 => some (.exitShort o) | _ => none)
  | 0x49 => (match sub with | 0 => some (.execrShort o) | 1 => some (.execwShort o) | _ => none)
  | 0x4A => (match sub with | 0 => some (.nop o) | _ => none)
  | 0x4B => (match sub with | 0 => some (.yield o) | _ => none)
  | 0x4C => (match sub with | 0 => some (.ffence o) | _ => none)
  | 0x50 => (match sub with | 0 => some (.ldShort o) | _ => none)
  | 0x51 => (match sub with | 0 => some (.stShort o) | _ => none)
  | 0x52 => (match sub with | 0 => some (.lduShort o) | _ => none)
  | 0x53 => (match sub with | 0 => some (.prefShort o) | _ => none)
  | 0x5D => (match sub with | 0 => some (.opfence o) | _ => none)
  | 0x60 => (match sub with | 0 => some (.baraShort o) | 1 => some (.barwShort o) | 2 => some (.barawShort o) | _ => none)
  | 0x62 => (match sub with | 0 => some (.gsetShort o) | 1 => some (.gclrShort o) | _ => none)
  | 0x64 => (match sub with | 0 => some (.qpushShort o) | _ => none)
  | 0x65 => (match sub with | 0 => some (.qpopShort o) | _ => none)
  | 0x66 => (match sub with | 0 => some (.qstatShort o) | 1 => some (.qstatSatShort o) | _ => none)
  | 0x68 => (match sub with | 0 => some (.mswapShort o) | _ => none)
  | 0x79 => (match sub with | 0 => some (.emitShort o) | 1 => some (.emitqShort o) | 2 => some (.launchShort o) | 3 => some (.spliceShort o) | 4 => some (.spliceRelShort o) | _ => none)
  | 0x7A => (match sub with | 0 => some (.trapShort o) | 1 => some (.bkptShort o) | 2 => some (.icinvShort o) | 3 => some (.timeShort o) | 4 => some (.perfShort o) | _ => none)
  | 0x7B => (match sub with | 0 => some (.rdsrShort o) | _ => none)
  | 0x7C => (match sub with | 0 => some (.wrsrShort o) | _ => none)
  | 0x7E => (match sub with | 0 => some (.mflagShort o) | _ => none)
  | _ => none

/-- R264, R265: the extended form of a major and sub-opcode. -/
def mkExt (op sub : Nat) (o : XOps) : Option Instr :=
  match op with
  | 0x01 => (match sub with | 0 => some (.iadd o) | _ => none)
  | 0x02 => (match sub with | 0 => some (.isub o) | _ => none)
  | 0x03 => (match sub with | 0 => some (.imul o) | _ => none)
  | 0x04 => (match sub with | 0 => some (.imulh o) | _ => none)
  | 0x05 => (match sub with | 0 => some (.imad o) | _ => none)
  | 0x06 => (match sub with | 0 => some (.imadw o) | _ => none)
  | 0x07 => (match sub with | 0 => some (.idiv o) | _ => none)
  | 0x08 => (match sub with | 0 => some (.imin o) | _ => none)
  | 0x09 => (match sub with | 0 => some (.imax o) | _ => none)
  | 0x0A => (match sub with | 0 => some (.iabs o) | 1 => some (.ineg o) | 2 => some (.not o) | 3 => some (.popc o) | 4 => some (.clz o) | 5 => some (.brev o) | _ => none)
  | 0x0B => (match sub with | 0 => some (.and o) | _ => none)
  | 0x0C => (match sub with | 0 => some (.or o) | _ => none)
  | 0x0D => (match sub with | 0 => some (.xor o) | _ => none)
  | 0x0E => (match sub with | 0 => some (.andn o) | _ => none)
  | 0x0F => (match sub with | 0 => some (.shl o) | _ => none)
  | 0x10 => (match sub with | 0 => some (.shrl o) | _ => none)
  | 0x11 => (match sub with | 0 => some (.shra o) | _ => none)
  | 0x12 => (match sub with | 0 => some (.rotl o) | _ => none)
  | 0x13 => (match sub with | 0 => some (.bfx o) | _ => none)
  | 0x14 => (match sub with | 0 => some (.bfi o) | _ => none)
  | 0x15 => (ccOf sub).map (fun k => .icmp k o)
  | 0x16 => (match sub with | 0 => some (.isel o) | _ => none)
  | 0x17 => (match sub with | 0 => some (.lea o) | _ => none)
  | 0x18 => (match sub with | 0 => some (.fadd o) | _ => none)
  | 0x19 => (match sub with | 0 => some (.fsub o) | _ => none)
  | 0x1A => (match sub with | 0 => some (.fmul o) | _ => none)
  | 0x1B => (match sub with | 0 => some (.ffma o) | _ => none)
  | 0x1C => (match sub with | 0 => some (.fmin o) | _ => none)
  | 0x1D => (match sub with | 0 => some (.fmax o) | _ => none)
  | 0x1E => (fccOf sub).map (fun k => .fcmp k o)
  | 0x1F => (match sub with | 0 => some (.fdiv o) | _ => none)
  | 0x20 => (match sub with | 0 => some (.fabs o) | 1 => some (.fneg o) | 2 => some (.frcp o) | 3 => some (.frsq o) | 4 => some (.fsqrt o) | 5 => some (.fexp2 o) | 6 => some (.flog2 o) | 7 => some (.fsin o) | 8 => some (.fcos o) | 9 => some (.fround o) | 10 => some (.fclass o) | _ => none)
  | 0x21 => (match sub with | 0 => some (.cvt o) | _ => none)
  | 0x22 => (match sub with | 0 => some (.hfma2 o) | _ => none)
  | 0x23 => (match sub with | 0 => some (.dot4 o) | _ => none)
  | 0x24 => (match sub with | 0 => some (.mov o) | _ => none)
  | 0x25 => (match sub with | 0 => some (.movi o) | _ => none)
  | 0x26 => (match sub with | 0 => some (.bcast o) | _ => none)
  | 0x27 => (shflOf sub).map (fun k => .shfl k o)
  | 0x28 => (voteOf sub).map (fun k => .vote k o)
  | 0x29 => (redOf sub).map (fun k => .redux k o)
  | 0x2A => (scanOf sub).map (fun p => .scan p.1 p.2 o)
  | 0x2B => (match sub with | 0 => some (.movs o) | _ => none)
  | 0x30 => (match sub with | 0 => some (.smov o) | _ => none)
  | 0x31 => (match sub with | 0 => some (.smovi o) | _ => none)
  | 0x32 => (match sub with | 0 => some (.sadd o) | _ => none)
  | 0x33 => (match sub with | 0 => some (.ssub o) | _ => none)
  | 0x34 => (match sub with | 0 => some (.smul o) | _ => none)
  | 0x35 => (match sub with | 0 => some (.sand o) | _ => none)
  | 0x36 => (match sub with | 0 => some (.sor o) | _ => none)
  | 0x37 => (match sub with | 0 => some (.sxor o) | _ => none)
  | 0x38 => (match sub with | 0 => some (.sshl o) | _ => none)
  | 0x39 => (match sub with | 0 => some (.sshr o) | _ => none)
  | 0x3A => (ccOf sub).map (fun k => .scmp k o)
  | 0x3B => (match sub with | 0 => some (.ssel o) | _ => none)
  | 0x40 => (match sub with | 0 => some (.bra o) | _ => none)
  | 0x41 => (match sub with | 0 => some (.brd o) | _ => none)
  | 0x43 => (match sub with | 0 => some (.jmpi o) | _ => none)
  | 0x44 => (match sub with | 0 => some (.call o) | _ => none)
  | 0x45 => (match sub with | 0 => some (.calli o) | _ => none)
  | 0x46 => (match sub with | 0 => some (.ret o) | _ => none)
  | 0x48 => (match sub with | 0 => some (.exit o) | _ => none)
  | 0x49 => (match sub with | 0 => some (.execr o) | 1 => some (.execw o) | _ => none)
  | 0x50 => (match sub with | 0 => some (.ld o) | _ => none)
  | 0x51 => (match sub with | 0 => some (.st o) | _ => none)
  | 0x52 => (match sub with | 0 => some (.ldu o) | _ => none)
  | 0x53 => (match sub with | 0 => some (.pref o) | _ => none)
  | 0x54 => (match sub with | 0 => some (.ldt o) | _ => none)
  | 0x55 => (match sub with | 0 => some (.stt o) | _ => none)
  | 0x56 => (match sub with | 0 => some (.ldacc o) | _ => none)
  | 0x57 => (match sub with | 0 => some (.stacc o) | _ => none)
  | 0x58 => (match sub with | 0 => some (.tlook o) | 1 => some (.tlookClm o) | 2 => some (.tfill o) | 3 => some (.tevict o) | 4 => some (.tinv o) | _ => none)
  | 0x59 => (match sub with | 0 => some (.atom o) | _ => none)
  | 0x5A => (match sub with | 0 => some (.atomcas o) | _ => none)
  | 0x5B => (match sub with | 0 => some (.red o) | _ => none)
  | 0x5C => (match sub with | 0 => some (.fence o) | _ => none)
  | 0x5E => (match sub with | 0 => some (.barinit o) | _ => none)
  | 0x60 => (match sub with | 0 => some (.bara o) | 1 => some (.barw o) | 2 => some (.baraw o) | _ => none)
  | 0x61 => (match sub with | 0 => some (.waitc o) | _ => none)
  | 0x62 => (match sub with | 0 => some (.gset o) | 1 => some (.gclr o) | _ => none)
  | 0x63 => (match sub with | 0 => some (.xch o) | _ => none)
  | 0x64 => (match sub with | 0 => some (.qpush o) | _ => none)
  | 0x65 => (match sub with | 0 => some (.qpop o) | _ => none)
  | 0x66 => (match sub with | 0 => some (.qstat o) | 1 => some (.qstatSat o) | _ => none)
  | 0x67 => (match sub with | 0 => some (.mldw o) | _ => none)
  | 0x68 => (match sub with | 0 => some (.mswap o) | _ => none)
  | 0x69 => (match sub with | 0 => some (.mma o) | 1 => some (.mmaJ o) | _ => none)
  | 0x6A => (match sub with | 0 => some (.mmas o) | _ => none)
  | 0x6B => (match sub with | 0 => some (.mhad o) | _ => none)
  | 0x6C => (match sub with | 0 => some (.mqnt o) | _ => none)
  | 0x6D => (match sub with | 0 => some (.accz o) | 1 => some (.acccvt o) | _ => none)
  | 0x6E => (match sub with | 0 => some (.subscribe o) | _ => none)
  | 0x6F => (match sub with | 0 => some (.publish o) | _ => none)
  | 0x70 => (match sub with | 0 => some (.vout o) | _ => none)
  | 0x71 => (match sub with | 0 => some (.pout o) | _ => none)
  | 0x72 => (match sub with | 0 => some (.msetcnt o) | _ => none)
  | 0x73 => (match sub with | 0 => some (.vamp o) | _ => none)
  | 0x74 => (match sub with | 0 => some (.rayl o) | _ => none)
  | 0x75 => (match sub with | 0 => some (.rayq o) | _ => none)
  | 0x76 => (match sub with | 0 => some (.sample o) | _ => none)
  | 0x77 => (match sub with | 0 => some (.samplev o) | _ => none)
  | 0x78 => (match sub with | 0 => some (.tilebind o) | 1 => some (.tiledone o) | 2 => some (.tilerel o) | _ => none)
  | 0x79 => (match sub with | 0 => some (.emit o) | 1 => some (.emitq o) | 2 => some (.launch o) | 3 => some (.splice o) | 4 => some (.spliceRel o) | _ => none)
  | 0x7A => (match sub with | 0 => some (.trap o) | 1 => some (.bkpt o) | 2 => some (.icinv o) | 3 => some (.time o) | 4 => some (.perf o) | _ => none)
  | 0x7B => (match sub with | 0 => some (.rdsr o) | _ => none)
  | 0x7C => (match sub with | 0 => some (.wrsr o) | _ => none)
  | 0x7D => (match sub with | 0 => some (.mcad o) | _ => none)
  | 0x7E => (match sub with | 0 => some (.mflag o) | _ => none)
  | _ => none

/-- R264, R265: major, sub-opcode and operand fields of an instruction row; an event row has none. -/
def opSub : Instr → Option (Nat × Nat × (SOps ⊕ XOps))
  | .iaddShort o => some (0x01, 0, .inl o)
  | .iadd o => some (0x01, 0, .inr o)
  | .isubShort o => some (0x02, 0, .inl o)
  | .isub o => some (0x02, 0, .inr o)
  | .imulShort o => some (0x03, 0, .inl o)
  | .imul o => some (0x03, 0, .inr o)
  | .imulhShort o => some (0x04, 0, .inl o)
  | .imulh o => some (0x04, 0, .inr o)
  | .imad o => some (0x05, 0, .inr o)
  | .imadw o => some (0x06, 0, .inr o)
  | .idivShort o => some (0x07, 0, .inl o)
  | .idiv o => some (0x07, 0, .inr o)
  | .iminShort o => some (0x08, 0, .inl o)
  | .imin o => some (0x08, 0, .inr o)
  | .imaxShort o => some (0x09, 0, .inl o)
  | .imax o => some (0x09, 0, .inr o)
  | .iabsShort o => some (0x0A, 0, .inl o)
  | .iabs o => some (0x0A, 0, .inr o)
  | .inegShort o => some (0x0A, 1, .inl o)
  | .ineg o => some (0x0A, 1, .inr o)
  | .notShort o => some (0x0A, 2, .inl o)
  | .not o => some (0x0A, 2, .inr o)
  | .popcShort o => some (0x0A, 3, .inl o)
  | .popc o => some (0x0A, 3, .inr o)
  | .clzShort o => some (0x0A, 4, .inl o)
  | .clz o => some (0x0A, 4, .inr o)
  | .brevShort o => some (0x0A, 5, .inl o)
  | .brev o => some (0x0A, 5, .inr o)
  | .andShort o => some (0x0B, 0, .inl o)
  | .and o => some (0x0B, 0, .inr o)
  | .orShort o => some (0x0C, 0, .inl o)
  | .or o => some (0x0C, 0, .inr o)
  | .xorShort o => some (0x0D, 0, .inl o)
  | .xor o => some (0x0D, 0, .inr o)
  | .andnShort o => some (0x0E, 0, .inl o)
  | .andn o => some (0x0E, 0, .inr o)
  | .shlShort o => some (0x0F, 0, .inl o)
  | .shl o => some (0x0F, 0, .inr o)
  | .shrlShort o => some (0x10, 0, .inl o)
  | .shrl o => some (0x10, 0, .inr o)
  | .shraShort o => some (0x11, 0, .inl o)
  | .shra o => some (0x11, 0, .inr o)
  | .rotlShort o => some (0x12, 0, .inl o)
  | .rotl o => some (0x12, 0, .inr o)
  | .bfx o => some (0x13, 0, .inr o)
  | .bfi o => some (0x14, 0, .inr o)
  | .icmp k o => some (0x15, ccCode k, .inr o)
  | .isel o => some (0x16, 0, .inr o)
  | .leaShort o => some (0x17, 0, .inl o)
  | .lea o => some (0x17, 0, .inr o)
  | .faddShort o => some (0x18, 0, .inl o)
  | .fadd o => some (0x18, 0, .inr o)
  | .fsubShort o => some (0x19, 0, .inl o)
  | .fsub o => some (0x19, 0, .inr o)
  | .fmulShort o => some (0x1A, 0, .inl o)
  | .fmul o => some (0x1A, 0, .inr o)
  | .ffma o => some (0x1B, 0, .inr o)
  | .fminShort o => some (0x1C, 0, .inl o)
  | .fmin o => some (0x1C, 0, .inr o)
  | .fmaxShort o => some (0x1D, 0, .inl o)
  | .fmax o => some (0x1D, 0, .inr o)
  | .fcmp k o => some (0x1E, fccCode k, .inr o)
  | .fdivShort o => some (0x1F, 0, .inl o)
  | .fdiv o => some (0x1F, 0, .inr o)
  | .fabsShort o => some (0x20, 0, .inl o)
  | .fabs o => some (0x20, 0, .inr o)
  | .fnegShort o => some (0x20, 1, .inl o)
  | .fneg o => some (0x20, 1, .inr o)
  | .frcpShort o => some (0x20, 2, .inl o)
  | .frcp o => some (0x20, 2, .inr o)
  | .frsqShort o => some (0x20, 3, .inl o)
  | .frsq o => some (0x20, 3, .inr o)
  | .fsqrtShort o => some (0x20, 4, .inl o)
  | .fsqrt o => some (0x20, 4, .inr o)
  | .fexp2Short o => some (0x20, 5, .inl o)
  | .fexp2 o => some (0x20, 5, .inr o)
  | .flog2Short o => some (0x20, 6, .inl o)
  | .flog2 o => some (0x20, 6, .inr o)
  | .fsinShort o => some (0x20, 7, .inl o)
  | .fsin o => some (0x20, 7, .inr o)
  | .fcosShort o => some (0x20, 8, .inl o)
  | .fcos o => some (0x20, 8, .inr o)
  | .froundShort o => some (0x20, 9, .inl o)
  | .fround o => some (0x20, 9, .inr o)
  | .fclassShort o => some (0x20, 10, .inl o)
  | .fclass o => some (0x20, 10, .inr o)
  | .cvt o => some (0x21, 0, .inr o)
  | .hfma2 o => some (0x22, 0, .inr o)
  | .dot4 o => some (0x23, 0, .inr o)
  | .movShort o => some (0x24, 0, .inl o)
  | .mov o => some (0x24, 0, .inr o)
  | .moviShort o => some (0x25, 0, .inl o)
  | .movi o => some (0x25, 0, .inr o)
  | .bcastShort o => some (0x26, 0, .inl o)
  | .bcast o => some (0x26, 0, .inr o)
  | .shfl k o => some (0x27, shflCode k, .inr o)
  | .vote k o => some (0x28, voteCode k, .inr o)
  | .redux k o => some (0x29, redCode k, .inr o)
  | .scan p ex o => some (0x2A, redCode p + (if ex then 32 else 0), .inr o)
  | .movsShort o => some (0x2B, 0, .inl o)
  | .movs o => some (0x2B, 0, .inr o)
  | .smovShort o => some (0x30, 0, .inl o)
  | .smov o => some (0x30, 0, .inr o)
  | .smoviShort o => some (0x31, 0, .inl o)
  | .smovi o => some (0x31, 0, .inr o)
  | .saddShort o => some (0x32, 0, .inl o)
  | .sadd o => some (0x32, 0, .inr o)
  | .ssubShort o => some (0x33, 0, .inl o)
  | .ssub o => some (0x33, 0, .inr o)
  | .smulShort o => some (0x34, 0, .inl o)
  | .smul o => some (0x34, 0, .inr o)
  | .sandShort o => some (0x35, 0, .inl o)
  | .sand o => some (0x35, 0, .inr o)
  | .sorShort o => some (0x36, 0, .inl o)
  | .sor o => some (0x36, 0, .inr o)
  | .sxorShort o => some (0x37, 0, .inl o)
  | .sxor o => some (0x37, 0, .inr o)
  | .sshlShort o => some (0x38, 0, .inl o)
  | .sshl o => some (0x38, 0, .inr o)
  | .sshrShort o => some (0x39, 0, .inl o)
  | .sshr o => some (0x39, 0, .inr o)
  | .scmp k o => some (0x3A, ccCode k, .inr o)
  | .ssel o => some (0x3B, 0, .inr o)
  | .bra o => some (0x40, 0, .inr o)
  | .brd o => some (0x41, 0, .inr o)
  | .join o => some (0x42, 0, .inl o)
  | .jmpi o => some (0x43, 0, .inr o)
  | .call o => some (0x44, 0, .inr o)
  | .calliShort o => some (0x45, 0, .inl o)
  | .calli o => some (0x45, 0, .inr o)
  | .retShort o => some (0x46, 0, .inl o)
  | .ret o => some (0x46, 0, .inr o)
  | .land o => some (0x47, 0, .inl o)
  | .exitShort o => some (0x48, 0, .inl o)
  | .exit o => some (0x48, 0, .inr o)
  | .execrShort o => some (0x49, 0, .inl o)
  | .execr o => some (0x49, 0, .inr o)
  | .execwShort o => some (0x49, 1, .inl o)
  | .execw o => some (0x49, 1, .inr o)
  | .nop o => some (0x4A, 0, .inl o)
  | .yield o => some (0x4B, 0, .inl o)
  | .ffence o => some (0x4C, 0, .inl o)
  | .ldShort o => some (0x50, 0, .inl o)
  | .ld o => some (0x50, 0, .inr o)
  | .stShort o => some (0x51, 0, .inl o)
  | .st o => some (0x51, 0, .inr o)
  | .lduShort o => some (0x52, 0, .inl o)
  | .ldu o => some (0x52, 0, .inr o)
  | .prefShort o => some (0x53, 0, .inl o)
  | .pref o => some (0x53, 0, .inr o)
  | .ldt o => some (0x54, 0, .inr o)
  | .stt o => some (0x55, 0, .inr o)
  | .ldacc o => some (0x56, 0, .inr o)
  | .stacc o => some (0x57, 0, .inr o)
  | .tlook o => some (0x58, 0, .inr o)
  | .tlookClm o => some (0x58, 1, .inr o)
  | .tfill o => some (0x58, 2, .inr o)
  | .tevict o => some (0x58, 3, .inr o)
  | .tinv o => some (0x58, 4, .inr o)
  | .atom o => some (0x59, 0, .inr o)
  | .atomcas o => some (0x5A, 0, .inr o)
  | .red o => some (0x5B, 0, .inr o)
  | .fence o => some (0x5C, 0, .inr o)
  | .opfence o => some (0x5D, 0, .inl o)
  | .barinit o => some (0x5E, 0, .inr o)
  | .baraShort o => some (0x60, 0, .inl o)
  | .bara o => some (0x60, 0, .inr o)
  | .barwShort o => some (0x60, 1, .inl o)
  | .barw o => some (0x60, 1, .inr o)
  | .barawShort o => some (0x60, 2, .inl o)
  | .baraw o => some (0x60, 2, .inr o)
  | .waitc o => some (0x61, 0, .inr o)
  | .gsetShort o => some (0x62, 0, .inl o)
  | .gset o => some (0x62, 0, .inr o)
  | .gclrShort o => some (0x62, 1, .inl o)
  | .gclr o => some (0x62, 1, .inr o)
  | .xch o => some (0x63, 0, .inr o)
  | .qpushShort o => some (0x64, 0, .inl o)
  | .qpush o => some (0x64, 0, .inr o)
  | .qpopShort o => some (0x65, 0, .inl o)
  | .qpop o => some (0x65, 0, .inr o)
  | .qstatShort o => some (0x66, 0, .inl o)
  | .qstat o => some (0x66, 0, .inr o)
  | .qstatSatShort o => some (0x66, 1, .inl o)
  | .qstatSat o => some (0x66, 1, .inr o)
  | .mldw o => some (0x67, 0, .inr o)
  | .mswapShort o => some (0x68, 0, .inl o)
  | .mswap o => some (0x68, 0, .inr o)
  | .mma o => some (0x69, 0, .inr o)
  | .mmaJ o => some (0x69, 1, .inr o)
  | .mmas o => some (0x6A, 0, .inr o)
  | .mhad o => some (0x6B, 0, .inr o)
  | .mqnt o => some (0x6C, 0, .inr o)
  | .accz o => some (0x6D, 0, .inr o)
  | .acccvt o => some (0x6D, 1, .inr o)
  | .subscribe o => some (0x6E, 0, .inr o)
  | .publish o => some (0x6F, 0, .inr o)
  | .mcad o => some (0x7D, 0, .inr o)
  | .vout o => some (0x70, 0, .inr o)
  | .pout o => some (0x71, 0, .inr o)
  | .msetcnt o => some (0x72, 0, .inr o)
  | .vamp o => some (0x73, 0, .inr o)
  | .rayl o => some (0x74, 0, .inr o)
  | .rayq o => some (0x75, 0, .inr o)
  | .sample o => some (0x76, 0, .inr o)
  | .samplev o => some (0x77, 0, .inr o)
  | .tilebind o => some (0x78, 0, .inr o)
  | .tiledone o => some (0x78, 1, .inr o)
  | .tilerel o => some (0x78, 2, .inr o)
  | .emitShort o => some (0x79, 0, .inl o)
  | .emit o => some (0x79, 0, .inr o)
  | .emitqShort o => some (0x79, 1, .inl o)
  | .emitq o => some (0x79, 1, .inr o)
  | .launchShort o => some (0x79, 2, .inl o)
  | .launch o => some (0x79, 2, .inr o)
  | .spliceShort o => some (0x79, 3, .inl o)
  | .splice o => some (0x79, 3, .inr o)
  | .spliceRelShort o => some (0x79, 4, .inl o)
  | .spliceRel o => some (0x79, 4, .inr o)
  | .trapShort o => some (0x7A, 0, .inl o)
  | .trap o => some (0x7A, 0, .inr o)
  | .bkptShort o => some (0x7A, 1, .inl o)
  | .bkpt o => some (0x7A, 1, .inr o)
  | .icinvShort o => some (0x7A, 2, .inl o)
  | .icinv o => some (0x7A, 2, .inr o)
  | .timeShort o => some (0x7A, 3, .inl o)
  | .time o => some (0x7A, 3, .inr o)
  | .perfShort o => some (0x7A, 4, .inl o)
  | .perf o => some (0x7A, 4, .inr o)
  | .rdsrShort o => some (0x7B, 0, .inl o)
  | .rdsr o => some (0x7B, 0, .inr o)
  | .wrsrShort o => some (0x7C, 0, .inl o)
  | .wrsr o => some (0x7C, 0, .inr o)
  | .mflagShort o => some (0x7E, 0, .inl o)
  | .mflag o => some (0x7E, 0, .inr o)
  | .wayIssueSelect _ _ => none
  | .fragmentPromote _ _ => none
  | .divergenceMeetingComplete _ _ => none
  | .memberArrivalComplete _ _ => none
  | .xchPair _ _ => none
  | .mmaJForm _ _ => none
  | .qpushEnter _ _ => none
  | .qpopUnblock _ _ => none
  | .barrierWaitRelease _ _ => none
  | .waitcReactivate _ _ => none
  | .publishReserve _ _ => none
  | .subscribeCloseComplete _ _ => none
  | .tilebindProceed _ _ => none
  | .spliceMeetingComplete _ => none
  | .spliceDrainDone _ => none
  | .spliceGrowthRetry _ => none
  | .copy _ => none
  | .copy2d _ => none
  | .copy3d _ => none
  | .mcast _ => none
  | .publishCommand _ => none
  | .migrate _ => none
  | .migrateCopy _ _ => none
  | .matrixCommand _ => none
  | .snubInjectionGrant _ => none
  | .snubWindowBoundary _ => none
  | .engineCommandComplete _ _ => none
  | .meshletRaster _ _ => none
  | .rayRequestTrace _ _ => none
  | .intersectionRequestComplete _ _ => none
  | .rayqTraceDone _ _ => none
  | .translationWalk _ _ _ => none
  | .homeAccessPerform _ => none
  | .scTicketGrant => none
  | .loadReturn _ _ => none
  | .writeBufferDrain _ => none
  | .invalidationProbe _ => none
  | .sliceFill _ _ => none
  | .hotCounterIncrement _ => none
  | .blockDecodeComplete _ _ => none
  | .tokenBucketAdmit _ => none
  | .viInval _ _ => none
  | .viInvalComplete _ => none
  | .hotHalve _ => none
  | .hotHalveDone => none
  | .stSplitWrite _ _ => none
  | .partGeomWrite _ _ => none
  | .partGeomApplyDone _ => none
  | .viPrangeWrite _ _ _ _ => none
  | .viCfgWrite _ _ => none
  | .tbWrite _ _ => none
  | .lqCfgWrite _ _ => none
  | .lqTailWrite _ _ => none
  | .launchRecordConsume _ => none
  | .gridAccept _ => none
  | .teamPlace _ => none
  | .eviction _ => none
  | .preemptSaveComplete _ => none
  | .teamRetire _ => none
  | .graphTeamStart _ _ => none
  | .stealAttempt _ _ => none
  | .eventRecordWrite _ _ => none
  | .eventRingCountInterrupt _ _ => none
  | .eventRingTimeInterrupt _ _ => none
  | .evCfgWrite _ _ _ => none
  | .dispCfgWrite _ _ => none
  | .linkTrained _ _ _ => none
  | .stripLatch _ _ => none
  | .stripDeadline _ _ => none
  | .serialiserTileRead _ _ => none
  | .gazeMailboxWrite _ _ _ => none
  | .governorTick _ => none
  | .nearThresholdEnter _ _ => none
  | .watchdog _ _ => none
  | .coreDbgHalt _ _ => none
  | .coreDbgResume _ _ => none
  | .hostMemoryAccess _ _ _ _ => none
  | .peerTailWrite _ _ => none
  | .peerCopyComplete _ _ _ => none
  | .peerRequest _ _ _ _ => none
  | .regRd => none
  | .regWr => none
  | .keyLoad => none
  | .keyEmpty => none
  | .keyEmptyDone _ => none
  | .attest => none
  | .attestKeys => none
  | .dbgRd => none
  | .dbgWr => none
  | .fwUpdate => none
  | .peerBind => none
  | .ngkUnassignedCommand => none
  | .moduleReset => none
  | .romImageVerify => none
  | .fwBringupComplete _ _ => none
  | .registerWrite _ _ _ => none
  | .softError _ _ => none
  | .linkLost _ => none
  | .peerRemoteBind _ => none

/-- R250: how many bytes an instruction with this LEN field has. -/
def lenBytes (len : Nat) : Nat :=
  match len with | 0 => 4 | 1 => 12 | 2 => 12 | _ => 20

/-- R255 steps 2 to 5: an instruction from its words.  `w1`, `w2` and `w3` are the instruction
words and `lit` the literal, where LEN gives them. -/
def decodeWords (w1 w2 w3 : Word) (lit : Dword) : Except Cause Instr :=
  let len := fld w1 0 2
  let op := fld w1 3 7
  let hi : BitVec 6 := w1.extractLsb' 26 6
  match majorLens op with
  | none => .error .illegalOpcode
  | some ls =>
    if !ls.contains len then .error .badLength
    else
      let l : Option Dword := if len = 1 ∨ len = 3 then some lit else none
      let i : Option Instr :=
        if len < 2 then
          let o : SOps :=
            { sw := bit w1 2, lit := l, d := w1.extractLsb' 10 8, a := w1.extractLsb' 18 8, b := hi }
          if subInShort op then mkShort op hi.toNat { o with b := 0 } else mkShort op 0 o
        else
          match tyOf (fld w2 26 4), edgeOf (fld w2 30 2) with
          | some ty, some e =>
            mkExt op hi.toNat
              { sw := bit w1 2, lit := l, d := w1.extractLsb' 10 8, a := w1.extractLsb' 18 8,
                b := w2.extractLsb' 0 8, c := w2.extractLsb' 8 8, pred := w2.extractLsb' 16 3,
                pneg := bit w2 19, ka := kindOf (fld w2 20 2), kb := kindOf (fld w2 22 2),
                kc := kindOf (fld w2 24 2), ty := ty, edge := e, w3 := w3 }
          | _, _ => none
      match i with
      | none => .error .reservedField
      | some i =>
        match formCause i with
        | some c => .error c
        | none => .ok i

/-- Little-endian word at a place of a byte list, zero past its end. -/
def wordAt (bs : List Byte) (off : Nat) : Word := BitVec.ofNat 32 (leNat ((bs.drop off).take 4))

/-- The words of an instruction laid out in memory (R250): its bytes give its extent and fields. -/
def decodeBytes (bs : List Byte) : Except Cause Instr :=
  let w1 := wordAt bs 0
  match fld w1 0 2 with
  | 0 => decodeWords w1 0 0 0
  | 1 => decodeWords w1 0 0 (BitVec.ofNat 64 (leNat ((bs.drop 4).take 8)))
  | 2 => decodeWords w1 (wordAt bs 4) (wordAt bs 8) 0
  | _ => decodeWords w1 (wordAt bs 4) (wordAt bs 8) (BitVec.ofNat 64 (leNat ((bs.drop 12).take 8)))

/-- R251, R252: the first word. -/
def word1 (len : Nat) (sw : Bool) (op : Nat) (d a : BitVec 8) (hi : BitVec 6) : Word :=
  hi ++ a ++ d ++ BitVec.ofNat 7 op ++ BitVec.ofBool sw ++ BitVec.ofNat 2 len

/-- R252: the second word of an extended form. -/
def word2 (o : XOps) : Word :=
  BitVec.ofNat 2 (edgeCode o.edge) ++ BitVec.ofNat 4 (tyCode o.ty) ++ BitVec.ofNat 2 (kindCode o.kc)
    ++ BitVec.ofNat 2 (kindCode o.kb) ++ BitVec.ofNat 2 (kindCode o.ka) ++ BitVec.ofBool o.pneg
    ++ o.pred ++ o.c ++ o.b

/-- The words of an instruction row, low word first, by the encoding tables of R250 to R266; an
event row has no words. -/
def encode (i : Instr) : Option (List Word) :=
  match opSub i with
  | none => none
  | some (op, sub, .inl o) =>
    let hi : BitVec 6 := if subInShort op then BitVec.ofNat 6 sub else o.b
    match o.lit with
    | none => some [word1 0 o.sw op o.d o.a hi]
    | some l => some [word1 1 o.sw op o.d o.a hi, l.extractLsb' 0 32, l.extractLsb' 32 32]
  | some (op, sub, .inr o) =>
    match o.lit with
    | none => some [word1 2 o.sw op o.d o.a (BitVec.ofNat 6 sub), word2 o, o.w3]
    | some l => some [word1 3 o.sw op o.d o.a (BitVec.ofNat 6 sub), word2 o, o.w3,
        l.extractLsb' 0 32, l.extractLsb' 32 32]

/-- The bytes of a list of words, each little-endian (R250). -/
def wordBytes (ws : List Word) : List Byte := ws.flatMap (fun w => leBytes 4 w.toNat)

/-- The instruction read from the words of a list, the first word first; words past the end of the
list are zero. -/
def decodeList (ws : List Word) : Except Cause Instr :=
  decodeBytes (wordBytes ws)

/-- How many bytes an instruction row occupies (R250). -/
def instrBytes (i : Instr) : Nat :=
  match opSub i with
  | none => 0
  | some (_, _, .inl o) => if o.lit.isSome then 12 else 4
  | some (_, _, .inr o) => if o.lit.isSome then 20 else 12

/-- What the decoder reads from an instruction whose bits are `w`, numbered from the least
significant bit of its first word; the words above `nbits` are zero. -/
def decodeTableWord (nbits w : Nat) : Option Instr :=
  match decodeBytes (leBytes 20 (w % 2 ^ nbits)) with
  | .ok i => some i
  | .error _ => none

end Sys2Proof
end

