-- ==== Sys2Proof/Machine/Aes.lean ====
section
/-! DEFINITION. AES-256 in XTS mode over a 64-byte data unit (R36, R37): the cipher by the standard that the rule
names, the tweak by R37.  Bytes are numbers below 256; a block is 16 of them. -/

namespace Sys2Proof.Machine

def aesS0 : List Nat :=
  [99, 124, 119, 123, 242, 107, 111, 197, 48, 1, 103, 43, 254, 215, 171, 118,
   202, 130, 201, 125, 250, 89, 71, 240, 173, 212, 162, 175, 156, 164, 114, 192,
   183, 253, 147, 38, 54, 63, 247, 204, 52, 165, 229, 241, 113, 216, 49, 21,
   4, 199, 35, 195, 24, 150, 5, 154, 7, 18, 128, 226, 235, 39, 178, 117]
def aesS1 : List Nat :=
  [9, 131, 44, 26, 27, 110, 90, 160, 82, 59, 214, 179, 41, 227, 47, 132,
   83, 209, 0, 237, 32, 252, 177, 91, 106, 203, 190, 57, 74, 76, 88, 207,
   208, 239, 170, 251, 67, 77, 51, 133, 69, 249, 2, 127, 80, 60, 159, 168,
   81, 163, 64, 143, 146, 157, 56, 245, 188, 182, 218, 33, 16, 255, 243, 210]
def aesS2 : List Nat :=
  [205, 12, 19, 236, 95, 151, 68, 23, 196, 167, 126, 61, 100, 93, 25, 115,
   96, 129, 79, 220, 34, 42, 144, 136, 70, 238, 184, 20, 222, 94, 11, 219,
   224, 50, 58, 10, 73, 6, 36, 92, 194, 211, 172, 98, 145, 149, 228, 121,
   231, 200, 55, 109, 141, 213, 78, 169, 108, 86, 244, 234, 101, 122, 174, 8]
def aesS3 : List Nat :=
  [186, 120, 37, 46, 28, 166, 180, 198, 232, 221, 116, 31, 75, 189, 139, 138,
   112, 62, 181, 102, 72, 3, 246, 14, 97, 53, 87, 185, 134, 193, 29, 158,
   225, 248, 152, 17, 105, 217, 142, 148, 155, 30, 135, 233, 206, 85, 40, 223,
   140, 161, 137, 13, 191, 230, 66, 104, 65, 153, 45, 15, 176, 84, 187, 22]
/-- The substitution of AES. -/
def aesS : List Nat := aesS0 ++ aesS1 ++ aesS2 ++ aesS3
def aesI0 : List Nat :=
  [82, 9, 106, 213, 48, 54, 165, 56, 191, 64, 163, 158, 129, 243, 215, 251,
   124, 227, 57, 130, 155, 47, 255, 135, 52, 142, 67, 68, 196, 222, 233, 203,
   84, 123, 148, 50, 166, 194, 35, 61, 238, 76, 149, 11, 66, 250, 195, 78,
   8, 46, 161, 102, 40, 217, 36, 178, 118, 91, 162, 73, 109, 139, 209, 37]
def aesI1 : List Nat :=
  [114, 248, 246, 100, 134, 104, 152, 22, 212, 164, 92, 204, 93, 101, 182, 146,
   108, 112, 72, 80, 253, 237, 185, 218, 94, 21, 70, 87, 167, 141, 157, 132,
   144, 216, 171, 0, 140, 188, 211, 10, 247, 228, 88, 5, 184, 179, 69, 6,
   208, 44, 30, 143, 202, 63, 15, 2, 193, 175, 189, 3, 1, 19, 138, 107]
def aesI2 : List Nat :=
  [58, 145, 17, 65, 79, 103, 220, 234, 151, 242, 207, 206, 240, 180, 230, 115,
   150, 172, 116, 34, 231, 173, 53, 133, 226, 249, 55, 232, 28, 117, 223, 110,
   71, 241, 26, 113, 29, 41, 197, 137, 111, 183, 98, 14, 170, 24, 190, 27,
   252, 86, 62, 75, 198, 210, 121, 32, 154, 219, 192, 254, 120, 205, 90, 244]
def aesI3 : List Nat :=
  [31, 221, 168, 51, 136, 7, 199, 49, 177, 18, 16, 89, 39, 128, 236, 95,
   96, 81, 127, 169, 25, 181, 74, 13, 45, 229, 122, 159, 147, 201, 156, 239,
   160, 224, 59, 77, 174, 42, 245, 176, 200, 235, 187, 60, 131, 83, 153, 97,
   23, 43, 4, 126, 186, 119, 214, 38, 225, 105, 20, 99, 85, 33, 12, 125]
/-- Its inverse. -/
def aesI : List Nat := aesI0 ++ aesI1 ++ aesI2 ++ aesI3

/-- A number doubled in the field of AES. -/
def aesDouble (a : Nat) : Nat := if a < 128 then 2 * a else (2 * a) ^^^ 0x11B

/-- A product in the field of AES, on fuel: the bits of `b`, lowest first. -/
def aesMul : Nat → Nat → Nat → Nat
  | 0, _, _ => 0
  | n + 1, a, b => (if b % 2 = 1 then a else 0) ^^^ aesMul n (aesDouble a) (b / 2)

/-- Two blocks added. -/
def xorBytes (a b : List Nat) : List Nat := List.zipWith (fun x y => x ^^^ y) a b

/-- The words of the key schedule, latest first: eight words of the key, then 52 more. -/
def aesExpand : Nat → Nat → Nat → List (List Nat) → List (List Nat)
  | 0, _, _, ws => ws
  | n + 1, i, rc, ws =>
    let prev := nth [] ws 0
    let sub (w : List Nat) : List Nat := w.map (fun b => nth 0 aesS b)
    let t :=
      if i % 8 = 0 then xorBytes (sub (prev.drop 1 ++ prev.take 1)) [rc, 0, 0, 0]
      else if i % 8 = 4 then sub prev
      else prev
    aesExpand n (i + 1) (if i % 8 = 0 then aesDouble rc else rc) (xorBytes (nth [] ws 7) t :: ws)

/-- The runs of `n` elements of a list, on fuel. -/
def pieces {α : Type} (n : Nat) : Nat → List α → List (List α)
  | 0, _ => []
  | f + 1, l => l.take n :: pieces n f (l.drop n)

/-- The 15 round keys of a 32-byte key. -/
def aesKeys (key : List Nat) : List (List Nat) :=
  (pieces 4 15 (aesExpand 52 8 1 (pieces 4 8 key).reverse).reverse).map (fun ws => ws.flatMap (fun w => w))

/-- The rows of a block shifted: byte `i` of the result is byte `(i * (1 + 4 k)) mod 16`, `k` 1 for encryption and 3
for decryption. -/
def aesShift (k : Nat) (b : List Nat) : List Nat := (List.range 16).map (fun i => nth 0 b ((i + 4 * k * (i % 4)) % 16))

/-- The columns of a block mixed by a row of coefficients. -/
def aesMix (co : List Nat) (b : List Nat) : List Nat :=
  (List.range 16).map (fun i =>
    (List.range 4).foldl (fun x j => x ^^^ aesMul 4 (nth 0 b (4 * (i / 4) + j)) (nth 0 co ((j + 4 - i % 4) % 4))) 0)

/-- A block encrypted under round keys. -/
def aesEnc : List (List Nat) → List Nat → List Nat
  | [], b => b
  | [k], b => xorBytes (aesShift 1 (b.map (fun x => nth 0 aesS x))) k
  | k :: ks, b => aesEnc ks (xorBytes (aesMix [2, 3, 1, 1] (aesShift 1 (b.map (fun x => nth 0 aesS x)))) k)

/-- A block decrypted under round keys, the last first. -/
def aesDec : List (List Nat) → List Nat → List Nat
  | [], b => b
  | [k], b => xorBytes ((aesShift 3 b).map (fun x => nth 0 aesI x)) k
  | k :: ks, b => aesDec ks (aesMix [14, 11, 13, 9] (xorBytes ((aesShift 3 b).map (fun x => nth 0 aesI x)) k))

def aesEncrypt (ks : List (List Nat)) (b : List Nat) : List Nat := aesEnc (ks.drop 1) (xorBytes b (nth [] ks 0))
def aesDecrypt (ks : List (List Nat)) (b : List Nat) : List Nat :=
  let r := ks.reverse
  aesDec (r.drop 1) (xorBytes b (nth [] r 0))

/-- The next tweak of XTS: the tweak, as a little-endian number, doubled in the field of 2^128. -/
def xtsNext (t : Nat) : Nat := if t < 2 ^ 127 then 2 * t else (2 * t - 2 ^ 128) ^^^ 135

/-- The tweaks of `n` blocks. -/
def xtsTweaks : Nat → Nat → List Nat
  | 0, _ => []
  | n + 1, t => t :: xtsTweaks n (xtsNext t)

/-- The bytes of a number, little-endian, as numbers. -/
def natBytes (n x : Nat) : List Nat := (leBytes n x).map (fun b => b.toNat)

/-- R37: a 64-byte unit at a physical address under a key pair, encrypted or decrypted.  The low half of the pair is
the data key. -/
def xtsUnit (dec : Bool) (pair : Nat) (addr : Nat) (unit : List Byte) : List Byte :=
  let k1 := aesKeys (natBytes 32 pair)
  let t0 := leNat ((aesEncrypt (aesKeys (natBytes 32 (pair / 2 ^ 256))) (natBytes 16 addr)).map (BitVec.ofNat 8))
  ((List.zip (pieces 16 4 (unit.map (fun b => b.toNat))) (xtsTweaks 4 t0)).flatMap (fun e =>
    let t := natBytes 16 e.2
    xorBytes ((if dec then aesDecrypt else aesEncrypt) k1 (xorBytes e.1 t)) t)).map (BitVec.ofNat 8)

end Sys2Proof.Machine
end

