-- ==== Sys2Proof/Config.lean ====
section
/-! DEFINITION. What an implementation fixes and the free values: constants without a body, so that
no proof can see a value of them.  Each is named in a row of the assumption log. -/

namespace Sys2Proof.Config

/-- A choice between two allowed outcomes; the first argument is the state's free counter, the second
singles the choice out within a step (R71, R197, R26, R46, R161, R200). -/
opaque freePick : Nat → Nat → Bool
/-- The rank of a lane in an unspecified order (R85, R139, R343, R408). -/
opaque freeRank : Nat → Nat → Nat
/-- An unspecified byte or word (R12). -/
opaque freeWord : Nat → Nat → BitVec 64
/-- R481: the key pair that the 1,160 bytes at the host address unwrap to, where they do. -/
opaque unwrapPair : List Byte → Option (BitVec 512)
/-- R104: the set of a line, of 1,024: its address, and its number in the page where it is decoded, from 1. -/
opaque sliceSet : Nat → Nat → Nat
/-- R485: whether a firmware image is well-formed, its two signatures, its security version. -/
opaque imageWellFormed : List Byte → Bool
opaque ed25519Ok : List Byte → Bool
opaque mldsaOk : List Byte → Bool
opaque imageSvn : List Byte → Nat
/-- R485: the image that Ngaskaset verifies when none was stored by `FW_UPDATE`. -/
opaque romImage : List Byte
/-- R486: the bytes of the two signatures over a report, by number: 64 and 3,309 of them. -/
opaque signEd25519 : List Byte → Nat → Byte
opaque signMldsa : List Byte → Nat → Byte
/-- R486: the 1,184 bytes of the ML-KEM-768 encapsulation key, by number, and what `ATTEST_KEYS` writes. -/
opaque encapsKey : Nat → Byte
opaque attestKeys : List Byte
/-- R484: silicon stepping and serial number. -/
opaque stepping : Nat
opaque serial : BitVec 64
/-- R480: the part of a stopped group's state that a debug command's bytes name: core, team slot, group, kind
of state and place in it, or none where the bytes name nothing; the value they carry; and the response that
carries a value. -/
opaque dbgDecode : List Byte → Option (Nat × Nat × Nat × Nat × Nat)
opaque dbgValue : List Byte → BitVec 64
opaque dbgReply : List Byte → BitVec 64 → List Byte
/-- R486: the bytes that the digest over geometries, `VI_CFG`s and key owners is taken of. -/
opaque attestBytes : List (BitVec 64) → List (BitVec 64) → List Nat → List Byte

end Sys2Proof.Config
end

