-- ==== Sys2Proof/Machine/State.lean ====
section
/-! DEFINITION. The state of the module, as plain data, and the state right after reset.  Each field
cites the rule that names it.  Sparse stores list what differs from zero, keyed lists list what
differs from their reset entry; INVENTORY.md, section State, gives every reset value. -/

namespace Sys2Proof.Machine

/-- A lane-mask per home group: the lanes of a path, a fragment or a region entry (R183, R187). -/
abbrev GLanes := List (Nat × Word)

/-- What a stop of a group is recorded with (R455, R456). -/
structure Trap where
  cause : Cause
  detail : Nat := 0
  mask0 : Word := 0
  mask1 : Word := 0
  mask2 : Word := 0
  /-- the address of memory and target causes; none: `sr.tinst` -/
  addr : Option Dword := none
  malf : Bool := false
  /-- BREAKPOINT or WATCHPOINT from a debug register, and its number in `detail` -/
  hw : Bool := false
  deriving DecidableEq, Repr

/-- R455: the trap registers of a group. -/
structure TrapRegs where
  tcause : Word := 0
  taddr : Dword := 0
  tinst : Dword := 0
  tresume : Dword := 0
  tmask0 : Word := 0
  tmask1 : Word := 0
  tmask2 : Word := 0
  tword : Word := 0
  texec : Word := 0
  tfmt : Word := 0
  tsave0 : Dword := 0
  tsave1 : Dword := 0
  tsave2 : Dword := 0
  tsave3 : Dword := 0
  tnotice : Word := 0
  deriving DecidableEq, Repr

/-- R37: how a 64-byte unit is stored: 0 in plaintext, else 2^512 more than the AES-256-XTS key pair, data key
first. -/
abbrev KTag := BitVec 513

/-- R197: a long-class result not yet certain: registers keyed `32 * register + lane`, predicate bits
keyed `32 * predicate + lane`, and the poison a load met (R58). -/
structure Pend where
  regs : List (Nat × Word) := []
  preds : List (Nat × Bool) := []
  scal : List (Nat × Word) := []
  /-- R71: the parts of registers that a sub-word `rg:` store writes, keyed as `regs`: mask, value -/
  part : List (Nat × (Word × Word)) := []
  poison : Option Trap := none
  deriving DecidableEq, Repr

/-- R127: where an atomic operation of an agent is performed: a line of physical memory, with the VI, the key pair,
the token class, and whether its slice may allocate the line; or a place in a team's scratch. -/
inductive Place where
  | glob (vi pa : Nat) (tag : KTag) (cls : Nat) (alloc : Bool)
  | scr (team off : Nat)
  deriving DecidableEq, Repr

/-- R125, R343: one lane's `.sc` operation, its operands as read at issue: the operation, 7 for a plain exchange
and 8 for a compare-and-swap. -/
structure TixOp where
  lane : Nat
  addr : Dword
  place : Place
  size : Nat
  aop : Nat
  ty : Ty
  b : Nat
  c : Nat := 0
  deriving DecidableEq, Repr

/-- R125, R126: a request for a ticket: the die and the home it stands for (0: a fence; 1 + slice; 145 + core for
its store), the home groups it is for, and the operation of an atomic. -/
structure TickReq where
  die : Nat
  home : Nat
  team : Nat
  core : Nat
  groups : List Nat
  op : Option TixOp := none
  deriving DecidableEq, Repr

/-- R174: the `.sc` instruction of a home group whose tickets are not all performed: how many, the type and the first
register of its results, whether it acquires at cluster scope or wider, and the values read so far. -/
structure ScWait where
  left : Nat
  dst : Option (Ty × Nat) := none
  wide : Bool := false
  res : List (Nat × Dword × Option (List Byte)) := []
  deriving DecidableEq, Repr

/-- R399: the meshlet state of a group. -/
structure Mesh where
  isOpen : Bool := false
  buf : Nat := 0
  vmask : Nat := 0
  vmax : Nat := 0
  pmax : Nat := 0
  nattr : Nat := 0
  strict : Bool := false
  vovf : Bool := false
  povf : Bool := false
  covf : Bool := false
  disc : Nat := 0
  cull : Nat := 0
  deriving DecidableEq, Repr

/-- R193: what a fragment's issue of a member-masked instruction delivered for one home group. -/
structure Arrival where
  group : Nat
  /-- the lanes of the group that the fragment carries -/
  lanes : Word
  /-- those of them that were active at the issue -/
  act : Word
  /-- the two sources, read at the issue, per lane -/
  va : List (Nat × Dword) := []
  vb : List (Nat × Dword) := []
  /-- R380: the order of arrival -/
  seq : Nat := 0
  deriving DecidableEq, Repr

/-- R363: the exchange a group has pending once its own members have arrived. -/
structure Xch where
  /-- the order in which arrivals completed, and the clk -/
  seq : Nat
  clk : Nat := 0
  tag : Nat
  wide : Bool
  role : Nat
  dst : Nat
  act : Word
  vals : List (Nat × Dword)
  pc : Dword
  deriving DecidableEq, Repr

/-- R149: who knows of a write that a command made: a home group, or a phase of a barrier, whose arrivals know of it. -/
inductive Knower where
  | group (g : Nat)
  | phase (bar phase : Nat)
  deriving DecidableEq, Repr

/-- R12, R161: an accumulator row as it was before a command wrote it, with the command's number. -/
structure AccOld where
  cmd : Nat
  /-- `128 * tile + row` -/
  row : Nat
  cells : List (Nat × Word)
  /-- R149: those whom a wait has ordered after the command -/
  seen : List Knower := []
  /-- R144: those who have read or written a single element since, with its column -/
  past : List (Knower × Nat) := []
  deriving DecidableEq, Repr

/-- R461: why a group stopped. -/
inductive Stop where
  /-- a fault whose halt bit is set, or SINGLE_STEP; the flag says it met the group in handler mode -/
  | fault (c : Cause) (inHandler : Bool)
  /-- `sr.tret` = 2 -/
  | tret
  deriving DecidableEq, Repr

/-- R366: a weight plane that is valid. -/
structure Plane where
  fmt : Ty
  owner : Nat
  bytes : List (Nat × Byte)
  deriving DecidableEq, Repr

/-- R353, R392, R371 to R375: a command of an engine queue. -/
structure Cmd where
  id : Nat := 0
  vi : Nat := 0
  team : Nat := 0
  group : Nat := 0
  /-- the KIND of a `q.cp` command; for `q.mx` 1 -/
  kind : Nat := 0
  bar : Nat := 0
  guard : Option Nat := none
  /-- the start barrier and the phase that was current at the push -/
  sbar : Option (Nat × Nat) := none
  policy : Nat := 0
  /-- the status slot, where STEN is 1 -/
  stslot : Option Nat := none
  priv : Bool := false
  /-- bytes 4 to 31 of the command, as words -/
  body : List Word := []
  /-- a matrix command: the instruction, its scalar operands, the rows read at issue; of a joint row its words as the
  group's `OPFENCE` left them, as each joint issue since found them and as this issue found them (R160) -/
  instr : Option Instr := none
  sa : Dword := 0
  sb : Word := 0
  sc : Word := 0
  rows : List (Nat × List Word) := []
  sat : Bool := false
  /-- R374: the active planes of its strands, as they stood when it started -/
  planes : List (Nat × Plane) := []
  /-- R380: the groups that joined and the lanes active in each -/
  joint : GLanes := []
  /-- the strand named by number or role -/
  strand : Nat := 0
  /-- R361: the resume offset of a copy, in units -/
  resume : Nat := 0
  /-- R351: it has started, so neither guard nor start barrier holds it any more; R359: its targets have passed -/
  begun : Bool := false
  checked : Bool := false
  /-- R391: the slots a publication has reserved: rank, slot index -/
  slots : List (Nat × Nat) := []
  /-- restored after pre-emption and waiting for an entry (R361) -/
  restored : Bool := false
  /-- a started command has done its work and waits to deliver its status and arrival -/
  fin : Bool := false
  /-- a started command: its status, cause and count when it completes (R360) -/
  status : Nat := 0
  cause : Nat := 0
  done : Nat := 0
  /-- R370: injections still to be granted: cost in units, slots per strand, first strand, strands -/
  inj : List (Nat × Nat) := []
  injDone : Nat := 0
  /-- R48: a migration past step 1: leaf entry address, its value, page base, page size and new frame -/
  mig : Option (Nat × Dword × Nat × Nat × Nat) := none
  deriving DecidableEq, Repr

/-- R197, R414: what a lane of a `RAYQ` read at its issue: 32 × its group + its lane, the root and the ray. -/
structure RayLane where
  lane : Nat
  root : Dword
  ray : List Word
  deriving DecidableEq, Repr

/-- R190: the state of a fragment, with what its waiting instruction will do when its wait ends. -/
inductive FState where
  | ready
  /-- BLOCKED at a push: the queue, the commands not yet entered, the order of blocking (R355) -/
  | qpush (queue : Nat) (cmds : List Cmd) (seq : Nat) (next : Dword)
  /-- BLOCKED in `BARW` or `BARAW` (R348): the barrier and the groups still waiting -/
  | barw (bar : Nat) (groups : List Nat) (next : Dword)
  /-- SLEEPING after `WAITC` -/
  | sleeping (bar : Nat) (groups : List Nat) (cont : Dword)
  /-- BLOCKED in `QPOP`: the first scalar and the groups still without a record (R357) -/
  | qpop (dst : Nat) (groups : List Nat) (next : Dword)
  /-- BLOCKED in `PUBLISH` or a push of its kind (R391, R392) -/
  | publish (cmds : List Cmd) (next : Dword)
  /-- BLOCKED in `SUBSCRIBE.close` (R390) -/
  | subClose (sid : Nat) (next : Dword)
  /-- BLOCKED in `TILEBIND` or `TILEREL` (R405, R406): the words of the binding, or none -/
  | tilebind (words : Option (Word × Word × Word)) (next : Dword)
  /-- HELD at a member-masked instruction (R193) -/
  | held (i : Instr) (arr : List Arrival) (next : Dword)
  /-- HELD at an exchange whose members have arrived -/
  | xch (next : Dword)
  /-- MEETING at a divergence instruction (R182): the instruction, the active lanes, the targets
  of those that take one, keyed `32 * group + lane` -/
  | meeting (i : Instr) (act : GLanes) (targets : List (Nat × Dword)) (join next : Dword)
  /-- JOINED (R184), with the first word of the `JOIN` as fetched -/
  | joined (word : Word)
  /-- arrived at a `SPLICE` (R225) -/
  | splice (j : Nat) (rel : Bool)
  /-- a `RAYQ` whose traces have not been reported (R414) -/
  | rayq (i : Instr) (rays : List RayLane) (next : Dword)
  /-- STOPPED (R190): by a fault, a trap or a debugger -/
  | stopped
  deriving DecidableEq, Repr

/-- R187, R190: a fragment. -/
structure Frag where
  id : Nat
  way : Nat
  lanes : GLanes
  fmt : Word
  hm : Bool
  pc : Dword
  /-- the region entry it stands in and the rank of its path there (R186) -/
  region : Option Nat := none
  rank : Nat := 0
  st : FState := .ready
  /-- R217 -/
  starve : Nat := 0
  promoted : Bool := false
  /-- R331: just issued a `YIELD` -/
  yielded : Bool := false
  /-- the model's own: the three before the latest issue, should that turn out not to be possible (R190) -/
  was : Nat × Bool × Bool := (0, false, false)
  /-- R190, R217: its next instruction could not issue in this clk -/
  blocked : Bool := false
  /-- R200, R332: code fetched before this is not issued any more -/
  fence : Nat := 0
  /-- R200: the loop that the fragment issues from a loop buffer: first address, address after it; and
  the `fence` that its back-edge brings -/
  loop : Option (Dword × Dword) := none
  loopFence : Nat := 0
  /-- R455: the first word, as fetched, of the instruction it issued last -/
  word : Word := 0
  deriving DecidableEq, Repr

/-- R183: a region entry. -/
structure Region where
  id : Nat
  jaddr : Dword
  paths : Nat
  kind : Bool
  parent : Option Nat
  ppath : Nat
  fmts : GLanes
  meet : GLanes
  arr : GLanes
  deriving DecidableEq, Repr

/-- R178 to R181, R257: a home group. -/
structure Group where
  num : Nat
  way : Nat
  /-- R180 -/
  exec : Word
  /-- the lanes the launch gave the group (R206); the others are absent (R193) -/
  launched : Word
  exited : Word := 0
  /-- R65: window granules -/
  win : Nat
  /-- vector registers, keyed `32 * register + lane` -/
  regs : List (Nat × Word) := []
  /-- R67: bound granules -/
  bound : List Nat := []
  /-- R100: poisoned registers, keyed as `regs` -/
  regPoison : List Nat := []
  /-- s0 to s63 (R257) -/
  scal : List (Nat × Word) := []
  /-- p1 to p7, a lane mask each (R257) -/
  preds : List (Nat × Word) := []
  /-- the group's `fmt` where no fragment carries it (R283) -/
  fmt : Word := 0
  pend : List Pend := []
  /-- lane-private bytes, keyed `4096 * lane + offset` (R87) -/
  priv : List (Nat × Byte) := []
  /-- R89: written granules, keyed `16 * lane + granule` -/
  privW : List Nat := []
  privPoison : List Nat := []
  /-- R454: handler mode -/
  hm : Bool := false
  tr : TrapRegs := {}
  /-- R348: EP and AP of each barrier -/
  ep : List (Nat × Nat) := []
  ap : List (Nat × Nat) := []
  /-- R160: the registers at the group's latest `OPFENCE`, or at its start where it has executed none, and at each of its
  joint issues since -/
  opfRegs : List (List (Nat × Word)) := [[]]
  mesh : Mesh := {}
  /-- R404: requests in flight, and the records of `q.ix` -/
  inflight : Nat := 0
  qix : List (List Word) := []
  /-- R423: PERF counters 0 to 5 -/
  perf : List (Nat × Dword) := []
  /-- R463 -/
  wdog : Nat := 0
  /-- R465: instructions still exempt from denial, and a notice waiting -/
  exempt : Nat := 0
  notice : Bool := false
  stop : Option Stop := none
  /-- R457: the debug register not matched at the first instruction after a resume: 0 to 3 a breakpoint,
  4 to 7 a watchpoint, 8 more while the instruction that resumes has not completed -/
  skip : Option Nat := none
  xch : Option Xch := none
  /-- R174: the `.sc` instruction the group waits on -/
  sc : Option ScWait := none
  deriving DecidableEq, Repr

/-- R346 to R348: a barrier that has been initialised. -/
structure Bar where
  scope : Nat
  count : Nat
  phase : Nat
  arr : Nat
  deriving DecidableEq, Repr

/-- R351. -/
inductive Guard where
  | idle | pending | true | false
  deriving DecidableEq, Repr

/-- R94, R405: a tile binding. -/
structure Binding where
  base : Nat
  vmask : Nat
  strips : Nat
  tx : Nat
  ty : Nat
  natt : Nat
  deriving DecidableEq, Repr

/-- R389: a subscription that is not NONE. -/
structure Sub where
  isOpen : Bool
  base : Nat
  slot : Nat
  w : Nat
  bar : Nat
  out : Nat
  next : Nat
  /-- deliveries reserved and not yet written (R390) -/
  reserved : Nat
  deriving DecidableEq, Repr

/-- R227: the splice state of a team. -/
inductive SpliceSt where
  | none | gathering
  | draining (j : Nat) (rel : Bool)
  | growing (j : Nat) (rel : Bool)
  deriving DecidableEq, Repr

/-- Where a team stands in its life (R212 to R215, R459). -/
inductive TeamSt where
  | resident | saving | saved
  deriving DecidableEq, Repr

/-- R402, R411: an intersection request, as it was issued. -/
inductive Req where
  /-- the meshlet: its buffer, views, vertex maximum, words per vertex, the primitives that are not
  culled, and its record's TAG, AUX and FLAGS -/
  | mesh (id group buf vmask vmax v : Nat) (prims : List Nat) (tag : Word) (culled : Nat) (flags : Word)
  /-- the words of the ray launch record, its tag and the privilege of the group -/
  | rays (id group : Nat) (rec : List Word) (tag : Word) (priv : Bool)
  deriving DecidableEq, Repr

def Req.id : Req → Nat
  | .mesh id .. => id
  | .rays id .. => id

/-- R4, R178: a team that has been placed and has not retired. -/
structure Team where
  id : Nat
  grid : Nat
  vi : Nat
  index : Nat
  x : Nat
  y : Nat
  z : Nat
  cluster : Nat
  rank : Nat
  core : Nat
  slot : Nat
  st : TeamSt := .resident
  /-- R214 -/
  stamp : Nat
  /-- the clk at which it became resident (R215), and the clk since for which its core was halted (R461) -/
  since : Nat
  haltClk : Nat := 0
  deadline : Bool
  lanes : Nat
  regsN : Nat
  /-- R72: block size and base in the arena; size 0: no block -/
  scrSize : Nat
  scrBase : Nat
  scr : List (Nat × Byte) := []
  /-- R77: written 4 KiB granules -/
  scrW : List Nat := []
  scrPoison : List Nat := []
  /-- R87: private granules per lane -/
  privN : Nat
  /-- R91 to R93: tiles held, elements keyed `16384 * tile + 128 * row + column`, written rows keyed
  `128 * tile + row` -/
  accN : Nat
  acc : List (Nat × Word) := []
  accW : List Nat := []
  accPoison : List Nat := []
  accOld : List AccOld := []
  barsN : Nat
  bars : List (Nat × Bar) := []
  guards : List (Nat × Guard) := []
  /-- R79 -/
  tagwin : Word := 0
  binding : Option Binding := none
  subs : List (Nat × Sub) := []
  /-- R388 -/
  qsat : Nat := 0
  qnan : Nat := 0
  fsat : Nat := 0
  /-- R244 -/
  node : Nat := 0
  depth : Nat := 0
  groups : List (Nat × Group) := []
  frags : List Frag := []
  regions : List Region := []
  nextFrag : Nat := 0
  nextRegion : Nat := 0
  splice : SpliceSt := .none
  /-- R361: commands taken out of the queues at a save, in order -/
  saved : List (Nat × Cmd) := []
  /-- R395: planes saved with the team -/
  savedPlanes : List (Nat × Plane) := []
  /-- R409: accepted tiles the serialiser has not read: output, read number -/
  reads : List (Nat × Nat) := []
  /-- R452: a fault has ended the team -/
  dead : Bool := false
  /-- R464: execution state lost to an uncorrectable error -/
  lost : Bool := false
  /-- R223: the kernel the team runs: entry index of the successor table, none for the launch's own -/
  kern : Option Nat := none
  /-- R423: clk resident, counted at saves -/
  resid : Nat := 0
  /-- R404: the requests in flight -/
  reqs : List Req := []
  /-- R404: requests whose record is not yet in `q.ix`: number, group, record -/
  reqDone : List (Nat × Nat × List Word) := []
  deriving DecidableEq, Repr

/-- R205: a launch record, or the parts of one that a successor entry changes (R223). -/
structure Rec where
  entry : Dword := 0
  launchid : Nat := 0
  deadline : Bool := false
  braid : Bool := false
  graph : Bool := false
  waitg : Bool := false
  latch : Bool := false
  ring : Nat := 0
  tlanes : Nat := 0
  gx : Nat := 0
  gy : Nat := 0
  gz : Nat := 0
  cw : Nat := 0
  ch : Nat := 0
  tpc : Nat := 0
  regs : Nat := 0
  acc : Nat := 0
  bars : Nat := 0
  scr : Nat := 0
  priv : Nat := 0
  nroles : Nat := 0
  nsucc : Nat := 0
  waitid : Nat := 0
  roletab : Dword := 0
  succtab : Dword := 0
  args : Dword := 0
  /-- bytes 0x40 to 0x6F and 0x70 to 0x77 -/
  extra : List Byte := []
  latchB : List Byte := []
  deriving DecidableEq, Repr

/-- R223: an entry of a successor table. -/
structure Succ where
  entry : Dword
  regmask : Word
  tlanes : Nat
  regs : Nat
  accmask : Dword
  scr : Nat
  priv : Nat
  acc : Nat
  bars : Nat
  scrfirst : Nat
  scrcount : Nat
  privi : Bool
  fmti : Bool
  deriving DecidableEq, Repr

/-- R241: an entry of a node table. -/
structure Node where
  entry : Dword
  rsz : Nat
  maxdepth : Nat
  succmask : Dword
  deriving DecidableEq, Repr

/-- R205, R207: an accepted grid that has not ended. -/
structure Grid where
  id : Nat
  vi : Nat
  part : Nat
  rc : Rec
  roles : List Dword := []
  succs : List Succ := []
  nodes : List Node := []
  /-- WAITG: the grid waited for (R207) -/
  waitFor : Option Nat := none
  /-- LATCH: not yet released (R436) -/
  latchHeld : Bool := false
  /-- R436: the output it is held for has been disabled since, so no latch releases it -/
  latchLost : Bool := false
  /-- the lowest index not yet placed; saved teams are in `Team.st` -/
  nextIdx : Nat := 0
  /-- R213: a head has found no fitting core -/
  refill : Bool := false
  /-- R215: the head that waits, by its lowest index, and since when -/
  headSince : Option (Nat × Nat) := none
  retired : Nat := 0
  /-- R220 -/
  count : Nat := 0
  cause : Nat := 0
  faddr : Dword := 0
  /-- a grid stopped by a scoreboard fault (R236) or aborted (R220) -/
  stopped : Bool := false
  /-- the grid has ended and its completion record is pending (R204) -/
  ended : Bool := false
  /-- R246: the stride it was accepted with -/
  step : Nat := 1
  deriving DecidableEq, Repr

/-- R461: CORE_DBG. -/
structure Dbg where
  halt : Bool := false
  halted : Bool := false
  cause : Nat := 0
  slot : Nat := 0
  group : Nat := 0
  action : Nat := 0
  step : Bool := false
  deriving DecidableEq, Repr

/-- R173: a store in a core's write buffer. -/
structure WbEnt where
  vi : Nat
  pa : Nat
  tag : KTag
  /-- R30: its line is allocated at evict-first priority -/
  evict : Bool := false
  /-- its token class (R114) -/
  cls : Nat
  bytes : List Byte
  deriving DecidableEq, Repr

/-- R61, R174: a clean line of an L1. -/
structure L1Line where
  vi : Nat
  /-- the physical address of the line -/
  line : Nat
  cells : List Host.Cell
  /-- R100: its poisoned 8-byte words, by address over 8 -/
  poison : List Nat := []
  /-- R38: the key pair its page is encrypted under -/
  key : KTag := 0
  deriving DecidableEq, Repr

/-- R199: code that an instruction cache or loop buffer may still hold: a line as it was fetched, with
the bytes after it that its last instructions may reach; when; and whether only loop buffers hold it
(R200). -/
structure ILine where
  vi : Nat
  /-- its address over 128 -/
  line : Nat
  bytes : List Byte
  time : Nat
  loopOnly : Bool
  deriving DecidableEq, Repr

/-- What a way held before a selection: the fragment it issued last and when, the fragments passed over, and its
near-threshold mode. -/
structure Was where
  last : Option (Nat × Nat) := none
  lastClk : Option Nat := none
  others : List (Nat × Nat) := []
  /-- R474: in near-threshold mode, and its consecutive waiting clk -/
  nt : Bool := false
  idle : Option Nat := none
  deriving DecidableEq, Repr

/-- R4, R61, R352, R366, R394: a core. -/
structure Core where
  /-- R62 -/
  split : Dword := 0x510
  /-- R100 -/
  corr : Nat := 0
  uncorr : Nat := 0
  dbg : Dbg := {}
  /-- R394, R471 -/
  cadence : Nat := 1
  /-- R471: the clk of the latest register write of the cadence -/
  cadClk : Option Nat := none
  gfloor : Nat := 1
  wbuf : List WbEnt := []
  l1 : List L1Line := []
  /-- R175: probes in order of arrival: line addresses -/
  probes : List Nat := []
  icache : List ILine := []
  qmx : List Cmd := []
  qcp : List Cmd := []
  started : List Cmd := []
  /-- R366: strand `j` active at `2 j`, shadow at `2 j + 1` -/
  planes : List (Nat × Plane) := []
  /-- R244: the deque of each graph grid, head first: node, depth, bytes -/
  deque : List (Nat × List (Nat × Nat × List Byte)) := []
  /-- R246: the next attempt of each grid, and the clk from which it may be made -/
  steal : List (Nat × (Nat × Nat)) := []
  /-- R218 key 4: the fragment each way issued last: team, fragment -/
  last : List (Nat × (Nat × Nat)) := []
  /-- the clk in which each way last issued -/
  lastClk : List (Nat × Nat) := []
  /-- the model's own: the two before the latest selection of each way, and the candidates that it passed over, should
  it turn out not to issue (R190) -/
  was : List (Nat × Was) := []
  /-- R474: ways in near-threshold mode, and consecutive waiting clk -/
  nt : List Nat := []
  idle : List (Nat × Nat) := []
  /-- R468: the clk of the latest injection granted to the core, and a start grant it has not used yet; R469: the windows
  of its latest injections -/
  lastGrant : Option Nat := none
  startOk : Bool := false
  injWin : Option Nat := none
  injPrev : Option Nat := none
  /-- R370: the earliest clk of the next slot of each strand, and the clk of the second slot of its latest row of two -/
  slotAt : List (Nat × Nat) := []
  slot2 : List (Nat × Nat) := []
  deriving DecidableEq, Repr

/-- R51 to R53, R202, R203, R453, R483: the registers of a VI that only the partition manager and
the host write. -/
structure ViCfg where
  cfg : Dword := 56
  troot : Dword := 0
  inval : Dword := 0
  pbase : List (Nat × Dword) := []
  plimit : List (Nat × Dword) := []
  trapCfg : Dword := 0
  trapEntry : Dword := 0
  trapMask : Dword := 0
  dbgHalt : Dword := 0
  wdog : Dword := 0
  brk : List (Nat × Dword) := []
  wch : List (Nat × Dword) := []
  deriving DecidableEq, Repr

/-- R219: one event ring. -/
structure Ring where
  base : Dword := 0
  /-- EN, LGN, CNT, TIME -/
  cfg : Dword := 0x20
  lost : Nat := 0
  tail : Word := 0
  head : Word := 0
  /-- R222: records since the last interrupt, and the time of the oldest of them -/
  since : Nat := 0
  oldest : Option Nat := none
  deriving DecidableEq, Repr

/-- R220: an event record waiting for its ring. -/
structure EvRec where
  ring : Nat
  time : Nat
  kind : Nat
  /-- bytes 8 to 31, byte 15 without PHASE -/
  body : List Byte
  /-- the grid a completion record ends (R204) -/
  grid : Option Nat := none
  deriving DecidableEq, Repr

/-- The state of a VI that the hardware changes (R32, R55, R202, R221, R453, R483). -/
structure ViDyn where
  hintdeg : Nat := 0
  vlogHead : Word := 0
  vlog : List (Nat × (Dword × Dword)) := []
  efCount : Nat := 0
  efLast : Nat := 0
  lqBase : Dword := 0
  lqCfg : Dword := 0
  lqTail : Word := 0
  lqHead : Word := 0
  rings : List (Nat × Ring) := []
  /-- R221 -/
  events : List EvRec := []
  /-- R204: a record consumed and not yet accepted or refused -/
  consumed : Option (List Byte) := none
  peerBase : Dword := 0
  peerCfg : Dword := 0
  peerTail : Word := 0
  peerHead : Word := 0
  /-- R473: clk denied in the running microsecond, per die; notices delivered -/
  denied : List (Nat × Nat) := []
  notices : Nat := 0
  /-- R26: cached leaf entries: page number by level, entry address, entry -/
  tlb : List (Nat × (Nat × Dword)) := []
  deriving DecidableEq, Repr

/-- R112, R216, R247: a partition's registers. -/
structure Part where
  geom : Dword := 0
  quantum : Dword := 0x100000
  step : Nat := 1
  deriving DecidableEq, Repr

/-- One team of a head: its index, and its saved image where it is placed again. -/
structure Item where
  idx : Nat
  saved : Option Nat
  deriving DecidableEq, Repr

/-- What a team holds of its core: the ways of its groups (R179), those of the groups that have not finished, which
alone hold registers and private granules (R96), and the rest. -/
structure Hold where
  ways : List Nat
  live : List Nat
  win : Nat
  priv : Nat
  scrBase : Nat
  scrSize : Nat
  acc : Nat
  bars : Nat
  deriving DecidableEq, Repr

/-- R215: an eviction: the head it makes room for, the teams being saved, the origin core, and what those of them that
stand on the chosen candidate hold there: the team, the core, the room. -/
structure Evicting where
  grid : Nat
  items : List Item
  teams : List Nat
  origin : Nat
  room : List (Nat × Nat × Hold) := []
  deriving DecidableEq, Repr

/-- The running state of a partition (R214 to R216). -/
structure PartDyn where
  stamp : Nat := 0
  evict : Nat := 0
  /-- R215: the eviction in progress -/
  evicting : Option Evicting := none
  busy : Bool := false
  /-- the geometry being applied, and R103's old member frames -/
  newGeom : Dword := 0
  oldFrames : List (Nat × Nat) := []
  deriving DecidableEq, Repr

/-- R36: a loaded key slot: the AES-256-XTS key pair, data key first, and its owner. -/
structure KeySlot where
  pair : BitVec 512
  byPart : Bool
  owner : Nat
  emptying : Bool := false
  deriving DecidableEq, Repr

/-- R433: a view's registers. -/
structure View where
  cfg : Dword := 0x10100
  gaze : Dword := 0x3F0000003F000000
  bwx : Dword := 0
  bwy : Dword := 0
  den : Dword := 0xFFFFFFFFFFFFFFFF
  mat : List Word := [0x3F800000, 0, 0, 0, 0, 0x3F800000, 0, 0, 0, 0, 0x3F800000, 0, 0, 0, 0, 0x3F800000]
  deriving DecidableEq, Repr

/-- R429, R430: an output's registers. -/
structure Disp where
  cfg : Dword := 0x0000800000100000
  time : Dword := 0
  deriving DecidableEq, Repr

/-- R408, R409: a tile accepted for the current frame of its strip. -/
structure Tile where
  strip : Nat
  /-- 256 * row + column -/
  pos : Nat
  team : Nat
  offset : Nat
  read : Nat
  /-- the bytes, once the serialiser has read them -/
  bytes : Option (List Byte) := none
  deriving DecidableEq, Repr

/-- The running state of an output (R408, R431, R434, R435, R446). -/
structure DispDyn where
  link : Bool := false
  rate : Nat := 0
  lanes : Nat := 0
  lates : Nat := 0
  t0 : Option Nat := none
  /-- F(o, s) -/
  frame : List (Nat × Nat) := []
  /-- the next latch of each strip -/
  latch : List (Nat × Nat) := []
  /-- snapshots, keyed `32 * view + strip` -/
  snap : List (Nat × View) := []
  /-- accepted tiles of the current frames -/
  acc : List Tile := []
  /-- the frame store: tile, bytes (R446) -/
  store : List (Nat × List Byte) := []
  nextRead : Nat := 0
  deriving DecidableEq, Repr

/-- R467 to R470: the limiter of a die. -/
structure Snub where
  /-- the register, and the value in force in the window -/
  cfg : Dword := 0x201
  inForce : Dword := 0x201
  a : Nat := 256
  floor : Nat := 0
  w : Nat := 0
  win : Nat := 0
  lastW : Nat := 0
  fill : Nat := 0
  lastFill : Nat := 0
  refused : Nat := 0
  /-- the clk whose grants have been made -/
  grantClk : Option Nat := none
  rrCore : Nat := 143
  rrStart : Nat := 143
  rrFill : Nat := 143
  deriving DecidableEq, Repr

/-- R116 to R121: a token bucket at a queue: balance in 1/16 byte, the costs of the waiting requests, oldest first,
and what is left to serve of the requests it has admitted (R119). -/
structure Bucket where
  bal : Nat
  waits : List Nat
  admitted : List Nat := []
  deriving DecidableEq, Repr

/-- R104, R105, R122: a line of a slice.  Sectors are bits of a mask. -/
structure SLine where
  vi : Nat
  /-- the physical address of the line; of a decoded line, the frame of its pack -/
  line : Nat
  /-- R122: a decoded line: its number in the page, and its bytes -/
  dec : Option (Nat × List Byte) := none
  set : Nat
  way : Nat
  valid : Nat
  dirty : Nat := 0
  evict : Bool := false
  used : Bool := true
  /-- R38: the key pair it is stored under -/
  key : KTag := 0
  deriving DecidableEq, Repr

/-- R44, R120: a miss of a slice: the line and the 64-byte units it asks the port for, the sectors that the access
writes, the mark its policy gives, and whether hotness counts it. -/
structure Fill where
  slice : Nat
  cls : Nat
  vi : Nat
  line : Nat
  units : Nat
  dirty : Nat := 0
  evict : Bool := false
  key : KTag := 0
  counted : Bool := true
  /-- R122: the units of a pack that a decode reads; 0: the fill of a line -/
  packUnits : Nat := 0
  deriving DecidableEq, Repr

/-- R122, R123: a block that a slice is decoding: the access that missed, and what the block decodes to; none: it is
invalid (R124). -/
structure Decode where
  slice : Nat
  cls : Nat
  vi : Nat
  pack : Nat
  block : Nat
  addr : Dword
  evict : Bool := false
  key : KTag := 0
  bytes : Option (List Byte)
  deriving DecidableEq, Repr

/-- The memory side: slices, their fills and decoders, hotness counting, and the queues of slices and ports
(R43 to R46, R104 to R106, R115 to R123). -/
structure Side where
  /-- the lines of each slice (R104) -/
  slices : List (Nat × List SLine) := []
  /-- R44: misses waiting for their fill; counted fills per slice; the slices and frames whose counters await an
  increment -/
  fillPend : List Fill := []
  fills : List (Nat × Nat) := []
  hotPend : List (Nat × Nat) := []
  /-- R122 -/
  decodes : List Decode := []
  /-- R118, keyed by `4 * queue + class`; R121 -/
  buckets : List (Nat × Bucket) := []
  tbStall : List (Nat × Dword) := []
  deriving DecidableEq, Repr

/-- R482: a bound peer port. -/
structure Peer where
  vi : Nat
  serial : Dword
  remoteVi : Nat
  /-- the other end is bound likewise -/
  remoteBound : Bool
  deriving DecidableEq, Repr

/-- The registers that no program and no engine changes: those that the partition manager, the host,
Ngaskaset and firmware write (R51, R112, R45, R116, R36, R428, R470, R484). -/
structure Hub where
  vis : List (Nat × ViCfg) := []
  /-- partition 0 covers the device at reset (R112) -/
  parts : List (Nat × Part) := [(0, { geom := 0x4BB00 })]
  /-- R45: EN and SHIFT -/
  hotCtl : Dword := 0
  /-- R18: FIRST -/
  fwFirst : Nat := 0x5FFC00
  /-- R116, keyed by offset -/
  tb : List (Nat × Dword) := []
  keys : List (Nat × KeySlot) := []
  views : List (Nat × View) := []
  disps : List (Nat × Disp) := []
  /-- R472 -/
  pwrCfg : Dword := 0x11076C
  /-- R484: PHASE, REASON, SVN -/
  phase : Nat := 0
  reason : Nat := 0
  svn : Nat := 0
  /-- R485: the fused minimum, and the image stored for the next reset -/
  fused : Nat := 0
  image : Option (List Byte) := none
  running : List Byte := []
  /-- R479 -/
  mailbox : List (Nat × Byte) := []
  door : Bool := false
  result : Nat := 0
  gzDrop : Nat := 0
  peers : List (Nat × Peer) := []
  /-- R482: ports not bound here whose other end is bound -/
  remoteEnds : List Nat := []
  /-- R478: interrupt messages sent to the host, latest first -/
  irqs : List Nat := []
  deriving DecidableEq, Repr

/-- R9: core clk since reset, and the 1 GHz counter, which counts of itself: now, and before the latest core clk. -/
structure Clock where
  clk : Nat := 0
  ns : Nat := 0
  was : Nat := 0
  deriving DecidableEq, Repr

/-- The fragment that issues next: its team and its number there (R217). -/
structure Issuer where
  team : Nat
  frag : Nat
  deriving DecidableEq, Repr

/-- R48: an access of the host or of a peer, or a peer ring's copy, that a migration or a full queue holds; it is made
again when nothing holds it.  A write of a queue's tail stands behind the writes of the host before it (R167, R483), and a
resumption behind the migration of a resume address's page. -/
inductive HeldMove where
  | access (vi size cls : Nat) (addr : Dword) (data : Option (BitVec 128))
  | copy (vi : Nat) (data : List Byte) (ok : Bool)
  | tail (vi off : Nat) (v : Dword)
  | resume (core : Nat) (v : Dword)
  deriving DecidableEq, Repr

/-- The state of the module. -/
structure State where
  /-- physical memory (R16), in canonical form -/
  mem : List Host.Cell
  /-- the writes performed at their homes in this step, latest first (R144); empty between steps -/
  out : List Host.Cell
  /-- R37: the key pair each 64-byte unit is encrypted under; 0: plaintext -/
  tags : List (Nat × KTag)
  /-- R58: poisoned 128-byte lines of memory, by number, with the bytes of each that no store has overwritten -/
  memPoison : List (Nat × BitVec 128)
  hub : Hub
  clock : Clock
  cores : List (Nat × Core)
  teams : List (Nat × Team)
  grids : List (Nat × Grid)
  vids : List (Nat × ViDyn)
  partds : List (Nat × PartDyn)
  dispds : List (Nat × DispDyn)
  snubs : List (Nat × Snub)
  /-- R472 -/
  power : Nat
  gated : List Nat
  /-- R46: the next counter of a running sweep -/
  sweep : Option Nat
  /-- R104 to R123 -/
  side : Side
  /-- R126: the next ticket, the die to begin with, the requests waiting in order, counts per home -/
  ticket : Dword
  tickDie : Nat
  tickReq : List TickReq
  homeCount : List (Nat × Nat)
  /-- R48: accesses of the host and of peers that a migration holds, oldest first -/
  held : List HeldMove
  /-- the numbers the next grid, team, command, request and blocked push take -/
  nextId : Nat
  /-- the model's own: moves of other agents that are due, in order -/
  inbox : List Instr
  /-- the model's own: the fragment a way has selected to issue -/
  cur : Option Issuer
  /-- the model's own: the turn of the internal agents -/
  rot : Nat
  /-- the model's own: the index of the next free value -/
  free : Nat
  deriving DecidableEq, Repr

/-- The faults of a step. -/
inductive Fault where
  /-- an instruction is to be executed and no fragment has been selected to issue it.  Raised by
  every instruction row at `exec`; safe, for a step never runs an instruction without an issuer -/
  | noIssuer
  deriving DecidableEq, Repr

/-- The refusals of a step. -/
inductive Refusal where
  /-- an instruction without a meaning in this model; safe -/
  | notModelled (mnemonic : String)
  deriving DecidableEq, Repr

/-- The module right after reset (R484: phase RESET; every register at its reset value). -/
def State.reset : State :=
  { mem := [], out := [], tags := [], memPoison := [], hub := {}, clock := {}, cores := [],
    teams := [], grids := [], vids := [], partds := [], dispds := [], snubs := [], power := 0,
    gated := [], sweep := none, side := {}, ticket := 0, tickDie := 0, tickReq := [], homeCount := [], held := [],
    nextId := 1, inbox := [], cur := none, rot := 0, free := 0 }

end Sys2Proof.Machine
end

