-- ==== Sys2Proof/Machine/Access.lean ====
section
/-! DEFINITION. Reading and writing the parts of State by their numbers: cores, teams, groups,
fragments, virtual interfaces, partitions.  Every other file goes through these. -/

namespace Sys2Proof.Machine

def State.core (s : State) (c : Nat) : Core := kget {} c s.cores
def State.setCore (s : State) (c : Nat) (k : Core) : State := { s with cores := kset c k s.cores }
def State.modCore (s : State) (c : Nat) (f : Core → Core) : State := s.setCore c (f (s.core c))

/-- A team by its number. -/
def State.team? (s : State) (t : Nat) : Option Team := (kfind t s.teams).map (fun x => { x with id := t })
def State.setTeam (s : State) (t : Team) : State := { s with teams := kset t.id t s.teams }
def State.modTeam (s : State) (i : Nat) (f : Team → Team) : State :=
  match s.team? i with
  | some t => s.setTeam (f t)
  | none => s
def State.delTeam (s : State) (i : Nat) : State := { s with teams := kdel i s.teams }

def State.grid? (s : State) (g : Nat) : Option Grid := kfind g s.grids
def State.modGrid (s : State) (i : Nat) (f : Grid → Grid) : State :=
  match s.grid? i with
  | some g => { s with grids := kset i (f g) s.grids }
  | none => s

def State.vi (s : State) (v : Nat) : ViCfg := kget {} v s.hub.vis
def State.modVi (s : State) (v : Nat) (f : ViCfg → ViCfg) : State :=
  { s with hub := { s.hub with vis := kset v (f (s.vi v)) s.hub.vis } }
def State.vid (s : State) (v : Nat) : ViDyn := kget {} v s.vids
def State.modVid (s : State) (v : Nat) (f : ViDyn → ViDyn) : State :=
  { s with vids := kset v (f (s.vid v)) s.vids }

def State.part (s : State) (p : Nat) : Part := kget {} p s.hub.parts
def State.modPart (s : State) (p : Nat) (f : Part → Part) : State :=
  { s with hub := { s.hub with parts := kset p (f (s.part p)) s.hub.parts } }
def State.partd (s : State) (p : Nat) : PartDyn := kget {} p s.partds
def State.modPartd (s : State) (p : Nat) (f : PartDyn → PartDyn) : State :=
  { s with partds := kset p (f (s.partd p)) s.partds }

def State.view (s : State) (v : Nat) : View := kget {} v s.hub.views
def State.modView (s : State) (v : Nat) (f : View → View) : State :=
  { s with hub := { s.hub with views := kset v (f (s.view v)) s.hub.views } }
def State.disp (s : State) (o : Nat) : Disp := kget {} o s.hub.disps
def State.modDisp (s : State) (o : Nat) (f : Disp → Disp) : State :=
  { s with hub := { s.hub with disps := kset o (f (s.disp o)) s.hub.disps } }
def State.dispd (s : State) (o : Nat) : DispDyn := kget {} o s.dispds
def State.modDispd (s : State) (o : Nat) (f : DispDyn → DispDyn) : State :=
  { s with dispds := kset o (f (s.dispd o)) s.dispds }
def State.snub (s : State) (d : Nat) : Snub := kget {} d s.snubs
def State.modSnub (s : State) (d : Nat) (f : Snub → Snub) : State :=
  { s with snubs := kset d (f (s.snub d)) s.snubs }

/-- The next unused number of a grid, team, command or request. -/
def State.fresh (s : State) : Nat × State := (s.nextId, { s with nextId := s.nextId + 1 })

/-- The module holds the counter that indexes the free values; a step that uses some advances it. -/
def State.tickFree (s : State) : State := { s with free := s.free + 1 }

/-- A free choice of this step: `tag` says of what kind, `n` which one. -/
def State.pick (s : State) (tag n : Nat) : Bool := Config.freePick s.free (16 * n + tag)

/-- R51: the partition of a VI. -/
def State.partOf (s : State) (v : Nat) : Nat := fld (s.vi v).cfg 8 6

/-- R112: the cores of a region, ascending (R101's `PartCores`). -/
def geomCores (g : Dword) : List Nat :=
  let x0 := fld g 0 4; let y0 := fld g 4 4; let x1 := fld g 8 4; let y1 := fld g 12 4
  if bit g 18 then
    (List.range 144).filter (fun c =>
      decide (x0 ≤ c % 12) && decide (c % 12 ≤ x1) && decide (y0 ≤ c / 12) && decide (c / 12 ≤ y1))
  else []

def State.partCores (s : State) (p : Nat) : List Nat := geomCores (s.part p).geom

/-- R5: the compute die of a core. -/
def dieOf (c : Nat) : Nat := (if c % 12 < 6 then 0 else 1) + (if c / 12 < 6 then 0 else 2)

/-- A home group by its number. -/
def Team.group? (t : Team) (g : Nat) : Option Group := (kfind g t.groups).map (fun x => { x with num := g })
def Team.setGroup (t : Team) (g : Group) : Team := { t with groups := kset g.num g t.groups }
def Team.modGroup (t : Team) (n : Nat) (f : Group → Group) : Team :=
  match t.group? n with
  | some g => t.setGroup (f g)
  | none => t
def Team.frag? (t : Team) (i : Nat) : Option Frag := t.frags.find? (fun f => f.id == i)
/-- A fragment replaced in its place, or appended. -/
def Team.setFrag (t : Team) (f : Frag) : Team :=
  if t.frags.any (fun h => h.id == f.id) then
    { t with frags := t.frags.map (fun h => if h.id == f.id then f else h) }
  else { t with frags := t.frags ++ [f] }
def Team.delFrag (t : Team) (i : Nat) : Team :=
  { t with frags := t.frags.filter (fun f => f.id != i) }
def Team.region? (t : Team) (i : Nat) : Option Region := t.regions.find? (fun r => r.id == i)
def Team.modRegion (t : Team) (i : Nat) (f : Region → Region) : Team :=
  { t with regions := t.regions.map (fun r => if r.id == i then f r else r) }

def State.modGroup (s : State) (t g : Nat) (f : Group → Group) : State :=
  s.modTeam t (fun tm => tm.modGroup g f)

/-- R231, R459: the team is on its core and its save has not begun: that of a team whose splice drains is put off. -/
def Team.onCore (t : Team) : Bool :=
  t.st == .resident || (t.st == .saving && (match t.splice with | .draining _ _ => true | _ => false))
/-- R459: the team is being saved. -/
def Team.beingSaved (t : Team) : Bool := t.st == .saving && !t.onCore

/-- The lanes of a group in a set of lanes; 0 where the group is not named. -/
def glanes (l : GLanes) (g : Nat) : Word := kget 0 g l
/-- How many lanes a set holds (R186). -/
def gcount (l : GLanes) : Nat := l.foldl (fun n e => n + popc e.2) 0
/-- The union of two sets of lanes. -/
def gunion (a b : GLanes) : GLanes :=
  b.foldl (fun l e => kset e.1 (glanes l e.1 ||| e.2) l) a
/-- Every lane of the first set is in the second. -/
def gsubset (a b : GLanes) : Bool := a.all (fun e => e.2 &&& ~~~(glanes b e.1) == 0)
/-- The two sets meet. -/
def gmeets (a b : GLanes) : Bool := a.any (fun e => e.2 &&& glanes b e.1 != 0)

/-- R181: the lanes of a group that have not exited. -/
def Group.alive (g : Group) : Word := g.launched &&& ~~~g.exited
/-- R181: a group with no lane left is finished. -/
def Group.finished (g : Group) : Bool := g.alive == 0
/-- R257: a predicate register; `p0` is true. -/
def Group.pred (g : Group) (p : Nat) : Word := if p = 0 then 0xFFFFFFFF else kget 0 p g.preds
/-- R257: a predicate written in some lanes; a write to `p0` is discarded. -/
def Group.setPred (g : Group) (p : Nat) (lanes v : Word) : Group :=
  if p = 0 then g else { g with preds := kset p ((g.pred p &&& ~~~lanes) ||| (v &&& lanes)) g.preds }
/-- R257: a scalar register. -/
def Group.scalar (g : Group) (n : Nat) : Word := zget n g.scal
def Group.setScalar (g : Group) (n : Nat) (v : Word) : Group := { g with scal := zset n v g.scal }
/-- R257: a pair of scalar registers, the low half first. -/
def Group.scalar2 (g : Group) (n : Nat) : Dword := g.scalar (n + 1) ++ g.scalar n
/-- R65, R67: a lane's register; an unbound granule reads zero. -/
def Group.reg (g : Group) (r l : Nat) : Word := zget (32 * r + l) g.regs
/-- R67, R100: a lane's register written: its granule becomes bound, its poison is cleared. -/
def Group.setReg (g : Group) (r l : Nat) (v : Word) : Group :=
  { g with regs := zset (32 * r + l) v g.regs, bound := sinsert (r / 8) g.bound,
           regPoison := sdel (32 * r + l) g.regPoison }
/-- A register written in the lanes of a list. -/
def Group.setRegs (g : Group) (r : Nat) (vs : List (Nat × Word)) : Group :=
  vs.foldl (fun g v => g.setReg r v.1 v.2) g

/-- R259: the lanes of a group that meet the predicate. -/
def Group.predMask (g : Group) (p : Nat) (neg : Bool) : Word :=
  if neg then ~~~(g.pred p) else g.pred p
/-- R180: the active lanes of a group under an instruction's predicate. -/
def Group.active (g : Group) (carried : Word) (o : XOps) : Word :=
  carried &&& g.exec &&& g.predMask o.pred.toNat o.pneg

/-- R423: a counter of a group advanced. -/
def Group.perfAdd (g : Group) (n k : Nat) : Group :=
  { g with perf := kset n (zget n g.perf + w64 k) g.perf }

/-- R13: the team of a cluster rank, if it has not retired. -/
def State.rankTeam (s : State) (t : Team) (rank : Nat) : Option Team :=
  (s.teams.find? (fun e => e.2.grid == t.grid && e.2.cluster == t.cluster && e.2.rank == rank)).map
    (fun e => e.2)

/-- R206: the teams of a cluster of a grid. -/
def Rec.clusterSize (r : Rec) : Nat := r.cw * r.ch * r.tpc
/-- R206: the number of teams. -/
def Rec.teams (r : Rec) : Nat := r.gx * r.gy * r.gz

end Sys2Proof.Machine
end

