-- ==== Sys2Proof/Machine/Mesh.lean ====
section
/-! DEFINITION. The mesh beneath a partition: ports and their multiplexers, links, unicast routes and multicast
replication in the four topologies (R107 to R111).  A geometry is the value of a `PART_GEOM` register (R112); a core is
its number `12 y + x`. -/

namespace Sys2Proof.Machine

/-- R112: the columns and rows of a region. -/
def geomX0 (g : Dword) : Nat := fld g 0 4
def geomY0 (g : Dword) : Nat := fld g 4 4
def geomW (g : Dword) : Nat := fld g 8 4 + 1 - fld g 0 4
def geomH (g : Dword) : Nat := fld g 12 4 + 1 - fld g 4 4

/-- R109: the topologies, by TOPO. -/
inductive Topo where
  | mesh | torus | ring | tree
  deriving DecidableEq, Repr

/-- R112: the topology of a region. -/
def geomTopo (g : Dword) : Topo :=
  match fld g 16 2 with
  | 0 => .mesh
  | 1 => .torus
  | 2 => .ring
  | _ => .tree

/-- R110: the root of a TREE. -/
def geomRoot (g : Dword) : Nat := fld g 24 8

/-- R109: the cores of a region in snake order. -/
def snake (g : Dword) : List Nat :=
  (List.range (geomH g)).flatMap (fun r =>
    let row := (List.range (geomW g)).map (fun c => 12 * (geomY0 g + r) + geomX0 g + c)
    if r % 2 = 0 then row else row.reverse)

/-- R109: a core's position in the snake order. -/
def snakePos (g : Dword) (c : Nat) : Nat :=
  match findIdx (fun d => d == c) (snake g) 0 with
  | some (i, _) => i
  | none => 0

/-- R213: the cores of a rectangle by position: `cy * CW + cx`. -/
def rectCores (origin cw ch : Nat) : List Nat :=
  (List.range ch).flatMap (fun y => (List.range cw).map (fun x => origin + 12 * y + x))

/-- R213: the origins whose rectangle lies in a region, in snake order. -/
def origins (g : Dword) (cw ch : Nat) : List Nat :=
  (snake g).filter (fun c => decide (c % 12 + cw ≤ geomX0 g + geomW g) && decide (c / 12 + ch ≤ geomY0 g + geomH g))

/-! ### Trees (R110) -/

/-- R110: the core a core of the tree links to: along the trunk towards the root, else along its column towards the
root's row; the root links to none. -/
def treeParent (g : Dword) (c : Nat) : Option Nat :=
  let r := geomRoot g
  if c / 12 = r / 12 then
    if c % 12 < r % 12 then some (c + 1) else if r % 12 < c % 12 then some (c - 1) else none
  else if c / 12 < r / 12 then some (c + 12)
  else some (c - 12)

/-- R110: a core of the trunk, the root's row. -/
def onTrunk (g : Dword) (c : Nat) : Bool := c / 12 == geomRoot g / 12

/-- R110: the depth of a core. -/
def treeDepth (g : Dword) (c : Nat) : Nat :=
  let r := geomRoot g
  (c % 12 - r % 12) + (r % 12 - c % 12) + (c / 12 - r / 12) + (r / 12 - c / 12)

/-- R110: the cores from a core up to the root, the core first; on fuel, its depth. -/
def treeUp (g : Dword) : Nat → Nat → List Nat
  | 0, c => [c]
  | n + 1, c =>
    match treeParent g c with
    | some p => c :: treeUp g n p
    | none => [c]

/-! ### Ports, multiplexers and links (R107, R108) -/

/-- R107: the ports of a router. -/
inductive Port where
  | north | east | south | west | loc
  deriving DecidableEq, Repr

/-- R107: a virtual channel of a port: the token class, and whether it carries replies. -/
structure Channel where
  cls : Fin 4
  reply : Bool
  deriving DecidableEq, Repr

/-- R108: what the multiplexer at the end of a link connects its port to. -/
inductive Mux where
  | neighbour | wrap | nothing
  deriving DecidableEq, Repr

/-- The core next to a core through a port. -/
def portCore (c : Nat) : Port → Option Nat
  | .north => if 12 ≤ c then some (c - 12) else none
  | .south => if c + 12 < 144 then some (c + 12) else none
  | .east => if c % 12 < 11 then some (c + 1) else none
  | .west => if 0 < c % 12 then some (c - 1) else none
  | .loc => none

/-- R109: the neighbour links that a topology connects inside its region. -/
def linked (g : Dword) (a b : Nat) : Bool :=
  let cs := geomCores g
  cs.contains a && cs.contains b &&
  (match geomTopo g with
   | .mesh => true
   | .torus => true
   | .ring => snakePos g a + 1 == snakePos g b || snakePos g b + 1 == snakePos g a
   | .tree => treeParent g a == some b || treeParent g b == some a)

/-- R109: a port that a topology joins to the wrap channel of its row or column: the edge ports of a TORUS; the two
that close a RING. -/
def wrapped (g : Dword) (c : Nat) (p : Port) : Bool :=
  let x := c % 12 - geomX0 g
  let y := c / 12 - geomY0 g
  (geomCores g).contains c &&
  (match geomTopo g, p with
   | .torus, .west => x == 0
   | .torus, .east => x + 1 == geomW g
   | .torus, .north => y == 0
   | .torus, .south => y + 1 == geomH g
   | .ring, .west => geomH g == 1 && x == 0
   | .ring, .east => geomH g == 1 && x + 1 == geomW g
   | .ring, .north => geomH g != 1 && x == 0 && y == 0
   | .ring, .south => geomH g != 1 && x == 0 && y + 1 == geomH g
   | _, _ => false)

/-- R108: the setting of the multiplexer at a core's port: the wrap, the neighbouring router, or nothing, as on every
link that crosses the region's edge. -/
def muxOf (g : Dword) (c : Nat) (p : Port) : Mux :=
  if wrapped g c p then .wrap
  else
    match portCore c p with
    | some d => if linked g c d then .neighbour else .nothing
    | none => .nothing

/-- R108: the setting of a multiplexer of the device: that of the enabled region that holds the core. -/
def State.mux (s : State) (c : Nat) (p : Port) : Mux :=
  match s.hub.parts.find? (fun e => (geomCores e.2.geom).contains c) with
  | some e => muxOf e.2.geom c p
  | none => .nothing

/-! ### Routes and replication (R109) -/

/-- R109: the places from `a` to `b` in one dimension of `n`, without `a`; with a wrap the shorter way, a tie upwards. -/
def lineTo (wrap : Bool) (n a b : Nat) : List Nat :=
  let up := (b + n - a) % n
  let down := (a + n - b) % n
  if wrap then
    if up ≤ down then (List.range up).map (fun i => (a + i + 1) % n)
    else (List.range down).map (fun i => (a + n - (i + 1)) % n)
  else if a ≤ b then (List.range (b - a)).map (fun i => a + i + 1)
  else (List.range (a - b)).map (fun i => a - (i + 1))

/-- A core of the region from its column and row there. -/
def coreAt (g : Dword) (x y : Nat) : Nat := 12 * (geomY0 g + y) + geomX0 g + x

/-- R109: the cores a unicast packet passes from one core to another, the source left out. -/
def route (g : Dword) (a b : Nat) : List Nat :=
  let ax := a % 12 - geomX0 g; let ay := a / 12 - geomY0 g
  let bx := b % 12 - geomX0 g; let bY := b / 12 - geomY0 g
  let grid (wrap : Bool) : List Nat :=
    (lineTo wrap (geomW g) ax bx).map (fun x => coreAt g x ay) ++ (lineTo wrap (geomH g) ay bY).map (fun y => coreAt g bx y)
  match geomTopo g with
  | .mesh => grid false
  | .torus => grid true
  | .ring =>
    let l := snake g
    (lineTo true l.length (snakePos g a) (snakePos g b)).map (fun i => nth 0 l i)
  | .tree =>
    let ua := treeUp g (treeDepth g a) a
    let ub := treeUp g (treeDepth g b) b
    match ua.find? (fun c => ub.contains c) with
    | some top => (ua.takeWhile (fun c => c != top) ++ [top] ++ (ub.takeWhile (fun c => c != top)).reverse).drop 1
    | none => []

/-- R109: the cores of a region in the order in which a multicast from a core reaches them: along the source's row and
then each column; both ways round a ring; up a tree and down every branch. -/
def replicate (g : Dword) (src : Nat) : List Nat :=
  let sx := src % 12 - geomX0 g; let sy := src / 12 - geomY0 g
  let grid (wrap : Bool) : List Nat :=
    let dist (n a b : Nat) : Nat := (lineTo wrap n a b).length
    let row := sortBy (fun x => dist (geomW g) sx x) (List.range (geomW g))
    row.map (fun x => coreAt g x sy) ++
    row.flatMap (fun x => ((sortBy (fun y => dist (geomH g) sy y) (List.range (geomH g))).drop 1).map (fun y => coreAt g x y))
  match geomTopo g with
  | .mesh => grid false
  | .torus => grid true
  | .ring => sortBy (fun c => (route g src c).length) (snake g)
  | .tree =>
    let up := treeUp g (treeDepth g src) src
    up ++ (sortBy (fun c => treeDepth g c) (geomCores g)).filter (fun c => !up.contains c)

end Sys2Proof.Machine
end

