-- ==== Sys2Proof/Machine/Memory.lean ====
section
/-! DEFINITION. Physical memory and the caches in front of it: homes, encryption tags, poison, write
buffers, L1 lines, probes, metering, hotness, compressed blocks (R16, R36 to R46, R58, R101, R106,
R114 to R122, R173 to R175). -/

namespace Sys2Proof.Machine

/-- Physical memory in canonical form (R16; what an unlisted byte reads as is zero). -/
abbrev Memory := List Host.Cell
/-- The canonical form: addresses strictly rising, no byte listed that reads as an unlisted one. -/
def Memory.wf (m : Memory) : Bool := zwf m
def Memory.read (m : Memory) (a : Nat) : Byte := zget a m
def Memory.write (m : Memory) (a : Nat) (b : Byte) : Memory := zset a b m

/-- The bytes performed in this step, applied to memory oldest first. -/
def Memory.commit (m : Memory) (out : List Host.Cell) : Memory :=
  out.foldr (fun c m => m.write c.1 c.2) m

/-- A byte as its home holds it now: this step's latest write of it, else memory. -/
def State.raw (s : State) (a : Nat) : Byte :=
  match kfind a s.out with
  | some b => b
  | none => Memory.read s.mem a

/-- A byte performed at its home. -/
def State.put (s : State) (a : Nat) (b : Byte) : State := { s with out := (a, b) :: s.out }

/-- R16: the near tier, the far tier and the host aperture. -/
def isNear (a : Nat) : Bool := decide (a ≤ 0x5FFFFFFFFF)
def isFar (a : Nat) : Bool := decide (0x10000000000 ≤ a) && decide (a ≤ 0x1FFFFFFFFFF)
def isHost (a : Nat) : Bool := decide (0x400000000000 ≤ a) && decide (a ≤ 0x7FFFFFFFFFFF)
def isPopulated (a : Nat) : Bool := isNear a || isFar a || isHost a

/-- R37: how a unit is stored that a key slot encrypts; an empty slot encrypts nothing. -/
def State.slotTag (s : State) (k : Nat) : KTag :=
  match kfind k s.hub.keys with
  | some e => BitVec.ofNat 513 (2 ^ 512 + e.pair.toNat)
  | none => 0

/-- R37: how a leaf's frame is stored. -/
def State.keyTag (s : State) (leaf : Dword) : KTag := if bit leaf 9 then s.slotTag (fld leaf 52 12) else 0

/-- R37: how a VI's tables are stored. -/
def State.tableTag (s : State) (vi : Nat) : KTag :=
  let r := (s.vi vi).troot
  if bit r 1 then s.slotTag (fld r 52 12) else 0

/-- The 64 bytes of an encryption unit, as they were before encryption. -/
def State.unit (s : State) (u : Nat) : List Byte := (List.range 64).map (fun i => s.raw (64 * u + i))

/-- R37: the unit at an address, stored in one way, as an access sees it that decrypts it in another. -/
def unitView (addr : Nat) (unit : List Byte) (stored tag : KTag) : List Byte :=
  let cipher := if stored = 0 then unit else xtsUnit false (stored.toNat - 2 ^ 512) addr unit
  if tag = 0 then cipher else xtsUnit true (tag.toNat - 2 ^ 512) addr cipher

/-- A byte as an access under a key pair reads it (R37). -/
def State.byteAs (s : State) (tag : KTag) (a : Nat) : Byte :=
  let have' := zget (a / 64) s.tags
  if have' = tag then s.raw a
  else nth 0 (unitView (a / 64 * 64) (s.unit (a / 64)) have' tag) (a % 64)

/-- A run of bytes as an access under a key pair reads it. -/
def State.bytesAs (s : State) (tag : KTag) (a n : Nat) : List Byte :=
  (List.range n).map (fun i => s.byteAs tag (a + i))

/-- A unit brought under a key pair before part of it is written (R37). -/
def State.retag (s : State) (tag : KTag) (u : Nat) : State :=
  if zget u s.tags = tag then s
  else
    let bs := unitView (64 * u) (s.unit u) (zget u s.tags) tag
    let s := { s with tags := zset u tag s.tags }
    (List.range 64).foldl (fun s i => s.put (64 * u + i) (nth 0 bs i)) s

/-- Bytes written at their homes under a key pair. -/
def State.putBytes (s : State) (tag : KTag) (a : Nat) : List Byte → State
  | [] => s
  | b :: bs => State.putBytes ((s.retag tag (a / 64)).put a b) tag (a + 1) bs

/-- R58: a line of the range is poisoned. -/
def State.poisoned (s : State) (a n : Nat) : Bool :=
  s.memPoison.any (fun e => decide (128 * e.1 < a + n) && decide (a < 128 * e.1 + 128))

/-- The bytes of a line that a range covers, as a mask. -/
def lineMask (line a n : Nat) : BitVec 128 :=
  let lo := a - 128 * line
  maskBits 128 lo (min 128 (a + n - 128 * line) - lo)

/-- R58: what a store overwrites of poisoned lines; a line loses its poison once it has been overwritten in full, by one
store or by several (log entry 99). -/
def State.clearPoison (s : State) (a n : Nat) : State :=
  { s with memPoison := s.memPoison.filterMap (fun e =>
      let left := e.2 &&& ~~~(lineMask e.1 a n)
      if left = 0 then none else some (e.1, left)) }

/-- R58: a line becomes poisoned. -/
def State.poisonLine (s : State) (line : Nat) : State :=
  { s with memPoison := kset line (BitVec.allOnes 128) s.memPoison }

/-- R101: the bits of a 16-bit number in reverse. -/
def bitRev16 (h : Nat) : Nat :=
  (List.range 16).foldl (fun r i => r + (h / 2 ^ i) % 2 * 2 ^ (15 - i)) 0

/-- R101: the index of the home in a member list of `n` cores. -/
def homeIdx (pa n : Nat) : Nat :=
  let x := pa / 128
  let h := (x % 65536) ^^^ (x / 65536 % 65536) ^^^ (x / 2 ^ 32 % 512)
  bitRev16 h * n / 65536

/-- R101: the home slice of a physical address for a partition. -/
def State.home (s : State) (pa part : Nat) : Nat :=
  let l := s.partCores part
  nth 0 l (homeIdx pa l.length)

/-- R116: the value of a bucket's register, by its offset. -/
def State.tbReg (s : State) (off : Nat) : Dword := kget 0x101000FFFF off s.hub.tb
/-- R118: a bucket at its depth. -/
def State.bucket (s : State) (queue cls : Nat) (off : Nat) : Bucket :=
  kget { bal := 16 * fld (s.tbReg off) 16 20, waits := [] } (4 * queue + cls) s.side.buckets

/-- The memory side changed. -/
def State.modSide (s : State) (f : Side → Side) : State := { s with side := f s.side }

/-- R117, R120: a request of a cost joins the queue of its class. -/
def State.enqueue (s : State) (queue cls off cost : Nat) : State :=
  let b := s.bucket queue cls off
  s.modSide (fun d => { d with buckets := kset (4 * queue + cls) { b with waits := b.waits ++ [cost] } d.buckets })

/-- R117, R120: a request at a slice: 32 bytes for each sector it touches.  The host aperture has no slice (R102). -/
def State.meter (s : State) (slice cls a n : Nat) : State :=
  if isHost a then s
  else s.enqueue slice cls (0x100 + 8 * cls) (min 128 (32 * ((a + n - 1) / 32 - a / 32 + 1)))

/-- R123: the decodes that a slice has, oldest first: it queues at most four blocks for decoding, and the misses after
them wait in their entries. -/
def State.decodesAt (s : State) (slice : Nat) : List Decode := s.side.decodes.filter (fun d => d.slice == slice)

/-- R120, R123: every entry of a class at a slice is occupied, by a request that is not admitted or by a miss that waits
for the decoder. -/
def State.queueFull (s : State) (slice cls : Nat) : Bool :=
  decide (32 ≤ (s.bucket slice cls (0x100 + 8 * cls)).waits.length
    + (((s.decodesAt slice).drop 4).filter (fun d => d.cls == cls)).length)

/-- R117, R118: a request joins the queue of a memory port. -/
def State.meterPort (s : State) (port cls cost : Nat) : State :=
  s.enqueue (144 + port) cls (0x200 + 32 * port + 8 * cls) cost

/-- R115, R117: requests of a number of bytes each at ports of the near tier; which ports, the spec leaves open where the
data has no layout (log entry 85). -/
def State.nearAsks (s : State) (cls n cost : Nat) : State :=
  (List.range n).foldl (fun s i => s.meterPort (Config.freeRank s.free (2 ^ 40 + i) % 8) cls cost) s

/-! ### Lines of a slice (R104 to R106) -/

/-- An access as a slice sees it: its VI (R104), its token class (R114), whether its line may be allocated (R29), the
mark its policy gives the line (R30), whether hotness counts a fill for it (R44), and for a unit of a burst how many
bytes its own request asks for (R117). -/
structure Ask where
  vi : Nat
  cls : Nat
  alloc : Bool := true
  evict : Bool := false
  counted : Bool := true
  span : Option Nat := none
  deriving DecidableEq, Repr

/-- R104: the lines of a slice. -/
def State.slice (s : State) (h : Nat) : List SLine := kget [] h s.side.slices
def State.modSlice (s : State) (h : Nat) (f : List SLine → List SLine) : State :=
  s.modSide (fun d => { d with slices := kset h (f (s.slice h)) d.slices })

/-- R104: the sectors of a line that an access touches. -/
def sectorMask (a n : Nat) : Nat :=
  let lo := a % 128 / 32
  (2 ^ (min 4 ((a % 128 + n + 31) / 32) - lo) - 1) * 2 ^ lo

/-- The 64-byte units of a line that hold some of its sectors, and the sectors of units. -/
def unitMask (sectors : Nat) : Nat := b2n (sectors % 4 != 0) + 2 * b2n (sectors / 4 != 0)
def unitSectors (units : Nat) : Nat := 3 * (units % 2) + 12 * (units / 2)

/-- R104: an ordinary line of a VI. -/
def SLine.isLine (l : SLine) (vi line : Nat) : Bool := l.vi == vi && l.line == line && l.dec.isNone

/-- R105: a hit. -/
def SLine.hit (l : SLine) (r : Ask) (dirty : Nat) : SLine :=
  { l with used := true, evict := l.evict || r.evict, dirty := l.dirty ||| dirty }

/-- R44, R104, R106: an access at its home: a hit marks its line; a miss asks for a fill, or joins one that is asked
for already. -/
def State.touchSlice (s : State) (h : Nat) (r : Ask) (tag : KTag) (a n : Nat) (write : Bool) : State :=
  let line := a / 128 * 128
  let sec := sectorMask a n
  let dirty := if write then sec else 0
  if !r.alloc || !(isNear a || isFar a) then s
  else if (s.slice h).any (fun l => l.isLine r.vi line && l.valid &&& sec == sec) then
    s.modSlice h (fun ls => ls.map (fun l => if l.isLine r.vi line then l.hit r dirty else l))
  else
    let same (f : Fill) : Bool := f.slice == h && f.vi == r.vi && f.line == line
    s.modSide (fun d =>
      { d with fillPend :=
          if d.fillPend.any same then
            d.fillPend.map (fun f =>
              if same f then { f with units := f.units ||| unitMask sec, dirty := f.dirty ||| dirty, evict := f.evict || r.evict }
              else f)
          else d.fillPend ++ [{ slice := h, cls := r.cls, vi := r.vi, line := line, units := unitMask sec, dirty := dirty,
                                evict := r.evict, key := tag, counted := r.counted }] })

/-- R117, R106: the request of an access at its home; the later units of a burst are part of its first one's. -/
def State.request (s : State) (r : Ask) (tag : KTag) (a n : Nat) (write : Bool) : State :=
  let h := s.home a (s.partOf r.vi)
  let m := r.span.getD n
  (if m = 0 then s else s.meter h r.cls a m).touchSlice h r tag a n write

/-- R106, R175: a write performed at its home takes the line from the writer's L1 and sends a probe to
every other core that holds a copy. -/
def State.probe (s : State) (writer : Option Nat) (a : Nat) : State :=
  let line := a / 128 * 128
  { s with cores := s.cores.map (fun e =>
      if e.2.l1.any (fun l => l.line == line) then
        if writer == some e.1 then (e.1, { e.2 with l1 := e.2.l1.filter (fun l => l.line != line) })
        else (e.1, { e.2 with probes := e.2.probes ++ [line] })
      else e) }

/-- R115: a memory port of the tier of an address; which of the eight is not visible (log entry 24). -/
def State.portOf (s : State) (a : Nat) : Nat := Config.freeRank s.free (a / 128) % 8 + (if isFar a then 8 else 0)

/-- The address under which an L1 keeps line `k` of a page whose pack starts at a frame (R123): no physical one. -/
def decodedAddr (pack k : Nat) : Nat := 2 ^ 48 * (k + 1) + pack

/-- R104, R106, R117: a line leaves its slice: its dirty sectors are written back in a token class, and the L1s that may
hold a copy are probed. -/
def State.lineLeaves (s : State) (cls : Nat) (l : SLine) : State :=
  let u := unitMask l.dirty
  let s := if u = 0 then s else s.meterPort (s.portOf l.line) cls (64 * (u % 2 + u / 2))
  s.probe none (match l.dec with | some d => decodedAddr l.line d.1 | none => l.line)

/-- R104, R114: the lines that pass a test flushed out of every slice, in the system class. -/
def State.flushLines (s : State) (p : SLine → Bool) : State :=
  let gone := s.side.slices.flatMap (fun e => e.2.filter p)
  gone.foldl (fun s l => s.lineLeaves 3 l)
    (s.modSide (fun d => { d with slices := d.slices.map (fun e => (e.1, e.2.filter (fun l => !p l))) }))

/-- R174: a write performed at its home, with its probes, metering and poison. -/
def State.homeWrite (s : State) (writer : Option Nat) (r : Ask) (tag : KTag) (a : Nat) (bs : List Byte) : State :=
  let s := (s.request r tag a bs.length true).clearPoison a bs.length
  (s.putBytes tag a bs).probe writer a

/-- R174: a read performed at its home. -/
def State.homeRead (s : State) (r : Ask) (tag : KTag) (a n : Nat) : List Byte × State :=
  (s.bytesAs tag a n, s.request r tag a n false)

/-- R173: the byte a core's write buffer holds, the latest first. -/
def wbByte (w : List WbEnt) (a : Nat) : Option Byte :=
  w.foldl (fun r e => if e.pa ≤ a ∧ a < e.pa + e.bytes.length then some (nth 0 e.bytes (a - e.pa)) else r)
    none

/-- R114: a buffered store as its home sees it. -/
def WbEnt.ask (e : WbEnt) : Ask := { vi := e.vi, cls := e.cls, evict := e.evict }

/-- R174: a store that has left the buffer of a core performed at its home. -/
def State.perform1 (s : State) (c : Nat) (e : WbEnt) : State := s.homeWrite (some c) e.ask e.tag e.pa e.bytes

/-- R120: the request of a buffered store would find its queue full. -/
def State.wbFull (s : State) (e : WbEnt) : Bool := s.queueFull (s.home e.pa (s.partOf e.vi)) e.cls

/-- R107, R173: the oldest store of a buffer that passes a test, with those before and after it; none before it is to its
line, for the stores to one line leave in the order they entered. -/
def wbNext (p : WbEnt → Bool) : List WbEnt → List WbEnt → Option (List WbEnt × WbEnt × List WbEnt)
  | [], _ => none
  | e :: r, before =>
    if p e ∧ !before.any (fun b => b.pa / 128 == e.pa / 128) then some (before, e, r) else wbNext p r (before ++ [e])

/-- R107, R120, R173: the oldest store of the buffer whose home can take it performed there; one whose class finds the
queue full holds up no store of another class. -/
def State.drainOne (s : State) (c : Nat) : State :=
  match wbNext (fun e => !s.wbFull e) (s.core c).wbuf [] with
  | none => s
  | some (b, e, r) => (s.modCore c (fun k => { k with wbuf := b ++ r })).perform1 c e

/-- R173: the stores that leave a buffer when those that pass a test must: they and every earlier store to one of their
lines, whatever its VI, in the order they entered; the others stay. -/
def wbSplit (p : WbEnt → Bool) : List WbEnt → List WbEnt × List WbEnt
  | [] => ([], [])
  | e :: r =>
    let x := wbSplit p r
    if p e || x.1.any (fun h => h.pa / 128 == e.pa / 128) then (e :: x.1, x.2) else (x.1, e :: x.2)

/-- R173, R174: buffered stores that pass a test performed at their homes, in order. -/
def State.drainIf (s : State) (c : Nat) (p : WbEnt → Bool) : State :=
  let x := wbSplit p (s.core c).wbuf
  x.1.foldl (fun s e => s.perform1 c e) (s.modCore c (fun k => { k with wbuf := x.2 }))

/-- R174: the buffered stores of a VI performed at their homes. -/
def State.drainVi (s : State) (c vi : Nat) : State := s.drainIf c (fun e => e.vi == vi)

/-- R174: the buffered stores to one line performed at their homes. -/
def State.drainLine (s : State) (c a : Nat) : State := s.drainIf c (fun e => e.pa / 128 == a / 128)

/-- R174: an acquire discards the clean lines of the VI on the core. -/
def State.dropL1 (s : State) (c vi : Nat) : State :=
  s.modCore c (fun k => { k with l1 := k.l1.filter (fun l => l.vi != vi) })

/-- The line of memory a cache takes: what it holds besides zeros. -/
def State.lineCells (s : State) (tag : KTag) (line : Nat) : List Host.Cell :=
  (List.range 128).foldl (fun m i => zset (line + i) (s.byteAs tag (line + i)) m) []

/-- R173: what a core's buffered stores leave of bytes read at the home or from the L1. -/
def wbOver (w : List WbEnt) (a : Nat) (base : List Byte) : List Byte :=
  ((List.range base.length).zip base).map (fun e => (wbByte w (a + e.1)).getD e.2)

/-- A line of a core's L1. -/
def Core.l1Line (k : Core) (vi line : Nat) : Option L1Line := k.l1.find? (fun l => l.vi == vi && l.line == line)
/-- The L1 without a line of a VI, and with one taken in. -/
def Core.l1Drop (k : Core) (vi line : Nat) : Core :=
  { k with l1 := k.l1.filter (fun l => !(l.vi == vi && l.line == line)) }
def Core.l1Take (k : Core) (l : L1Line) : Core := { (k.l1Drop l.vi l.line) with l1 := l :: (k.l1Drop l.vi l.line).l1 }

/-- The bytes of a line, and whether a poisoned word of it is among them (R100). -/
def L1Line.read (l : L1Line) (a n : Nat) : List Byte := (List.range n).map (fun i => zget (a + i) l.cells)
def L1Line.poisoned (l : L1Line) (a n : Nat) : Bool :=
  l.poison.any (fun w => decide (8 * w < a + n) && decide (a < 8 * w + 8))

/-- R173: every byte of a range is in the write buffer. -/
def wbCovers (w : List WbEnt) (a n : Nat) : Bool := (List.range n).all (fun i => (wbByte w (a + i)).isSome)

/-- R100, R173: a read of a line meets a poisoned word, some byte of which in the range no buffered store has written. -/
def L1Line.meetsPoison (l : L1Line) (w : List WbEnt) (a n : Nat) : Bool :=
  l.poison.any (fun p => decide (8 * p < a + n) && decide (a < 8 * p + 8) &&
    !wbCovers w (max a (8 * p)) (min (a + n) (8 * p + 8) - max a (8 * p)))

/-- R30: the slice line of an access that its policy marks evict-first. -/
def State.markEvict (s : State) (r : Ask) (a : Nat) : State :=
  if r.evict then
    s.modSlice (s.home a (s.partOf r.vi)) (fun ls =>
      ls.map (fun l => if l.isLine r.vi (a / 128 * 128) then { l with evict := true } else l))
  else s

/-- R58, R173, R174: a load by a group of a core, served from the write buffer, the L1 or the home; none: poison.
`l1`: the L1 may serve it; `keep`: the L1 takes or keeps the line.  A line the L1 still holds may differ from the home
until its probe is applied, or hold a poisoned word that a new copy would not; whether it serves the load is a free
choice then, and a load served by the home leaves no older copy behind. -/
def State.coreRead (s : State) (c : Nat) (r : Ask) (tag : KTag) (l1 keep : Bool) (salt a n : Nat) :
    Option (List Byte) × State :=
  let line := a / 128 * 128
  let k := s.core c
  let hb := s.bytesAs tag a n
  let covered := wbCovers k.wbuf a n
  let old : Option L1Line := if l1 then k.l1Line r.vi line else none
  let serve : Option L1Line := old.filter (fun l => (l.read a n == hb && !l.poisoned a n) || s.pick 3 (1024 * a + salt))
  match serve with
  | some l =>
    let s := if keep then s else (s.modCore c (fun k => k.l1Drop r.vi line)).markEvict r a
    (if l.meetsPoison k.wbuf a n then none else some (wbOver k.wbuf a (l.read a n)), s)
  | none =>
    let s := s.request r tag a n false
    if s.poisoned a n && !covered then (none, s.modCore c (fun k => k.l1Drop r.vi line))
    else
      (some (wbOver k.wbuf a hb),
       s.modCore c (fun k =>
         if keep && !s.poisoned line 128 then k.l1Take { vi := r.vi, line := line, cells := s.lineCells tag line, key := tag }
         else k.l1Drop r.vi line))

/-- R41: LZ4 block decoding.  `out` is what has been produced, latest first. -/
def lz4Len : Nat → Nat → List Byte → Option (Nat × List Byte)
  | 0, _, _ => none
  | _, n, [] => if n < 15 then some (n, []) else none
  | f + 1, n, b :: bs => if b = 255 then lz4Len f (n + 255) bs else some (n + b.toNat, bs)

/-- R41: the extended length of a nibble of 15. -/
def lz4Ext (n : Nat) (bs : List Byte) : Option (Nat × List Byte) :=
  if n < 15 then some (n, bs)
  else match bs with
    | [] => none
    | _ => lz4Len 4200 15 bs

/-- R41: a match copied byte by byte from the output so far. -/
def lz4Copy (off : Nat) : Nat → List Byte → List Byte
  | 0, out => out
  | n + 1, out => lz4Copy off n (nth 0 out (off - 1) :: out)

/-- R41: the sequences of a block, on fuel; the output is latest first. -/
def lz4Seqs : Nat → List Byte → List Byte → Nat → Option (List Byte)
  | 0, _, _, _ => none
  | f + 1, bs, out, len =>
    match bs with
    | [] => some out
    | t :: bs =>
      match lz4Ext (t.toNat / 16) bs with
      | none => none
      | some (ll, bs) =>
        if bs.length < ll then none
        else
          let out := (bs.take ll).reverse ++ out
          let len := len + ll
          let bs := bs.drop ll
          match bs with
          | [] => some out
          | [_] => none
          | o0 :: o1 :: bs =>
            let off := o0.toNat + 256 * o1.toNat
            match lz4Ext (t.toNat % 16) bs with
            | none => none
            | some (ml, bs) =>
              if off = 0 ∨ len < off ∨ 4096 < len + ml + 4 then none
              else lz4Seqs f bs (lz4Copy off (ml + 4) out) (len + ml + 4)

/-- R41: a block of LZ4 data decoded to exactly 4,096 bytes. -/
def lz4Block (bs : List Byte) : Option (List Byte) :=
  match lz4Seqs (bs.length + 1) bs [] 0 with
  | some out => if out.length = 4096 then some out.reverse else none
  | none => none

/-- R40, R41: the 4 KiB block `b` of a compressed page whose pack starts at `pack`, or none where it
is invalid. -/
def State.decodeBlock (s : State) (tag : KTag) (pack psz packLen b : Nat) : Option (List Byte) :=
  let e : Dword := w64 (leNat (s.bytesAs tag (pack + 8 * b) 8))
  let off := fld e 0 32
  let len := fld e 32 13
  let dir := psz / 4096 * 8
  if fld e 47 17 ≠ 0 ∨ s.poisoned (pack + 8 * b) 8 then none
  else match fld e 45 2 with
    | 1 => if off = 0 ∧ len = 0 then some (List.replicate 4096 0) else none
    | 0 =>
      if dir ≤ off ∧ off + len ≤ packLen ∧ 1 ≤ len ∧ len ≤ 4096 ∧ !s.poisoned (pack + off) len then
        lz4Block (s.bytesAs tag (pack + off) len)
      else none
    | 2 =>
      if dir ≤ off ∧ off + len ≤ packLen ∧ len = 4096 ∧ !s.poisoned (pack + off) len then some (s.bytesAs tag (pack + off) len)
      else none
    | _ => none

/-- R40: the address of a block's data in a pack: of its directory entry where it has none; and its length. -/
def State.blockData (s : State) (tag : KTag) (pack b : Nat) : Nat × Nat :=
  let e : Dword := w64 (leNat (s.bytesAs tag (pack + 8 * b) 8))
  (pack + (if fld e 32 13 = 0 then 8 * b else fld e 0 32), fld e 32 13)

/-- R42, R101: the slice that decodes a block: the home of its directory entry. -/
def State.decodeHome (s : State) (vi pack b : Nat) : Nat := s.home (pack + 8 * b) (s.partOf vi)

/-- R122: line `k` of a page as a slice keeps it decoded. -/
def SLine.isDecoded (l : SLine) (vi pack k : Nat) : Bool :=
  l.vi == vi && l.line == pack && (match l.dec with | some d => d.1 == k | none => false)

/-- R123: the decode of a block that is running. -/
def State.decoding (s : State) (vi pack b : Nat) : Option Decode :=
  s.side.decodes.find? (fun d => d.vi == vi && d.pack == pack && d.block == b)

/-- R122: line `k` of a page is kept decoded. -/
def State.decodedLine (s : State) (vi pack k : Nat) : Option (List Byte) :=
  ((s.slice (s.decodeHome vi pack (k / 32))).find? (fun l => l.isDecoded vi pack k)).bind (fun l => l.dec.map (fun d => d.2))

/-- R42, R122 to R124: what a read of a compressed page gives at its decoding slice: the kept line, or a decode of its
block, which a running one of it serves; none is poison. -/
def State.packBytes (s : State) (vi : Nat) (tag : KTag) (pack psz packLen off n : Nat) : Option (List Byte) :=
  match s.decodedLine vi pack (off / 128) with
  | some bs => some ((bs.drop (off % 128)).take n)
  | none =>
    ((s.decoding vi pack (off / 4096)).elim (s.decodeBlock tag pack psz packLen (off / 4096)) (fun d => d.bytes)).map
      (fun bs => (bs.drop (off % 4096)).take n)

/-- R44, R105, R117, R122: the request of such a read: a hit, a joined decode, or a new one, which reads the block from
memory.  It costs the sectors of the decoded line that it touches. -/
def State.packAsk (s : State) (r : Ask) (tag : KTag) (addr : Dword) (pack psz packLen off n : Nat) : State :=
  let b := off / 4096
  let h := s.decodeHome r.vi pack b
  let m := r.span.getD n
  let s := if m = 0 then s else s.meter h r.cls off m
  if (s.decodedLine r.vi pack (off / 128)).isSome then
    s.modSlice h (fun ls => ls.map (fun l => if l.isDecoded r.vi pack (off / 128) then l.hit r 0 else l))
  else if (s.decoding r.vi pack b).isSome then s
  else
    let data := s.blockData tag pack b
    s.modSide (fun d =>
      { d with
        decodes := d.decodes ++ [{ slice := h, cls := r.cls, vi := r.vi, pack := pack, block := b, addr := addr, evict := r.evict,
                                   key := tag, bytes := s.decodeBlock tag pack psz packLen b }]
        fillPend := d.fillPend ++ [{ slice := h, cls := r.cls, vi := r.vi, line := data.1 / 128 * 128, units := 0, key := tag,
                                     counted := r.counted, packUnits := 1 + (data.2 + 63) / 64 }] })

/-- R31: the decoded line of an access that its policy marks evict-first. -/
def State.markDecoded (s : State) (r : Ask) (pack k : Nat) : State :=
  if r.evict then
    s.modSlice (s.decodeHome r.vi pack (k / 32)) (fun ls =>
      ls.map (fun l => if l.isDecoded r.vi pack k then { l with evict := true } else l))
  else s

/-- R42: such a read, with its request. -/
def State.packRead (s : State) (r : Ask) (tag : KTag) (addr : Dword) (pack psz packLen off n : Nat) :
    Option (List Byte) × State :=
  (s.packBytes r.vi tag pack psz packLen off n, s.packAsk r tag addr pack psz packLen off n)

/-- R28, R48: decoded lines discarded, with the decodes of them that run, wherever they are kept. -/
def State.dropDecoded (s : State) (p : Nat → Nat → Bool) : State :=
  { s with
    side := { s.side with
      slices := s.side.slices.map (fun e => (e.1, e.2.filter (fun l => l.dec.isNone || !p l.vi l.line)))
      decodes := s.side.decodes.filter (fun d => !p d.vi d.pack) }
    cores := s.cores.map (fun e =>
      (e.1, { e.2 with l1 := e.2.l1.filter (fun l => decide (l.line < 2 ^ 48) || !p l.vi (l.line % 2 ^ 48)) })) }

/-- R43: the address of a frame's hotness counter. -/
def hotAddr (a : Nat) : Nat :=
  if isFar a then 0x5FFEA00000 + 6291456 + (a - 0x10000000000) / 65536
  else 0x5FFEA00000 + a / 65536

end Sys2Proof.Machine
end

