-- ==== Sys2Proof/Machine/Translate.lean ====
section
/-! DEFINITION. Translation: the four-level walk, the window checks, the physical range windows, keys,
the violation log, accessed and dirty bits (R13 to R35, R53, R55 to R57, R60). -/

namespace Sys2Proof.Machine

/-- R24: what an access is made for. -/
inductive AKind where
  | load | store | atomic | prefetch | fetch
  deriving DecidableEq, Repr

/-- A cause met in translation; a violation carries the physical address refused, whether a walk read
met it, and whether the reserved region did (R55).  `reads`: the entries the walk read; `leaf`: where the leaf lies
that the walk reached. -/
structure XFault where
  cause : Cause
  malf : Bool := false
  /-- R35: not executable -/
  notExec : Bool := false
  viol : Option (Nat × Bool × Bool) := none
  reads : List Nat := []
  leaf : Option Nat := none
  deriving DecidableEq, Repr

/-- What a translation gives: the physical address, the leaf, its page size, where the entry lies and
under which key pair, the offset in the page, and the entries to cache (R24, R26). -/
structure XOk where
  pa : Nat
  leaf : Dword
  psz : Nat
  ea : Nat
  etag : KTag
  off : Nat
  page : Nat
  cache : List (Nat × (Nat × Dword))
  /-- R23: the A and D bits that this walk or a cached entry has seen set -/
  known : Dword
  deriving DecidableEq, Repr

/-- R60: the rank of a cause is its first row. -/
def causeRank : Cause → Nat
  | .spaceInvalid => 0 | .misaligned => 1 | .addressNoncanonical => 2 | .scratchRange => 3
  | .privateRange => 4 | .regaddrRange => 5 | .atomicUnsupported => 6 | .pageNotPresent => 7
  | .viViolation => 8 | .keyInvalid => 9 | .pagePermission => 11 | .compressedWrite => 12
  | _ => 20

/-- R53: the enabled windows of a VI: first and last frame. -/
def State.windows (s : State) (vi : Nat) : List (Nat × Nat) :=
  (List.range 8).filterMap (fun n =>
    let b := zget n (s.vi vi).pbase
    if bit b 0 then some (fld b 16 32, fld (zget n (s.vi vi).plimit) 16 32) else none)

/-- Whether the frames `[f, l]` are covered by the windows, on fuel. -/
def covered (ws : List (Nat × Nat)) : Nat → Nat → Nat → Bool
  | 0, _, _ => false
  | n + 1, f, l =>
    match ws.filter (fun w => decide (w.1 ≤ f) && decide (f ≤ w.2)) with
    | [] => false
    | w :: r =>
      let e := r.foldl (fun m v => max m v.2) w.2
      if l ≤ e then true else covered ws n (e + 1) l

/-- R18: the frames `[f, l]` meet the reserved region. -/
def State.inReserved (s : State) (f l : Nat) : Bool :=
  decide (s.hub.fwFirst ≤ l) && decide (f ≤ 0x5FFFFF)

/-- R53: `InRanges` for the frames `[f, l]`: none where they pass, else whether the reserved region
refuses them.  A frame that is both outside the windows and reserved counts as reserved (log entry 98). -/
def State.rangeRefuses (s : State) (vi f l : Nat) : Option Bool :=
  if s.inReserved f l then some true
  else if covered (s.windows vi) 9 f l then none
  else some false

/-- R36: `KeyUsable`. -/
def State.keyUsable (s : State) (vi k : Nat) : Bool :=
  match kfind k s.hub.keys with
  | none => false
  | some e => !e.emptying && (if e.byPart then e.owner == s.partOf vi else e.owner == vi)

/-- R19: the page size of a leaf at a level. -/
def pageSize (lvl : Nat) : Nat := 2 ^ (16 + 10 * (3 - lvl))

/-- R39: the bytes of a leaf's frames: the page, or its pack. -/
def leafLen (e : Dword) (psz : Nat) : Nat := if bit e 6 then psz / 16 * (fld e 48 4 + 1) else psz

/-- R16, R22: the end of the range that holds an address. -/
def rangeEnd (a : Nat) : Nat :=
  if isNear a then 0x6000000000 else if isFar a then 0x20000000000 else if isHost a then 0x800000000000 else 0

/-- R22: a malformed entry. -/
def malformed (e : Dword) (lvl : Nat) : Bool :=
  if bit e 1 then
    let frame := fld e 16 32 * 65536
    let psz := pageSize lvl
    (lvl == 0) || fld e 12 4 != 0 || (lvl == 2 && fld e 16 10 != 0) || (lvl == 1 && fld e 16 20 != 0)
      || fld e 7 2 == 3 || (!bit e 9 && fld e 52 12 != 0) || (!bit e 6 && fld e 48 4 != 0)
      || (bit e 6 && (lvl == 1 || fld e 7 2 == 2 || isHost frame))
      || !isPopulated frame || decide (rangeEnd frame < frame + leafLen e psz)
  else
    let next := fld e 13 35 * 8192
    lvl == 3 || fld e 2 11 != 0 || fld e 48 16 != 0 || !isPopulated next || isHost next

/-- R26: the key of a cached entry: its level and the address bits above it. -/
def tlbKey (a lvl : Nat) : Nat := a / 2 ^ (46 - 10 * lvl) * 4 + lvl

/-- R23: the A and D bits an access of a kind needs. -/
def adBits (kind : AKind) : Dword :=
  match kind with
  | .prefetch => 0
  | .store => 0xC00
  | .atomic => 0xC00
  | _ => 0x400

/-- R26: the entries that caches may hold for a table index. -/
def State.cachedEntries (s : State) (vi a lvl : Nat) : List Dword :=
  ((s.vid vi).tlb.filter (fun e => e.1 == tlbKey a lvl)).map (fun e => e.2.2)

/-- R23, R26: the entry a walk uses at a level: the table's, or one a cache still holds, until an
invalidation covers it.  A cached leaf that lacks a bit the access must set is given up, for its
update would fail. -/
def State.entryUsed (s : State) (vi a lvl : Nat) (kind : AKind) (e0 : Dword) : Dword :=
  let old := (s.cachedEntries vi a lvl).filter (fun e => !bit e 1 || (adBits kind &&& ~~~e == 0))
  ((List.range old.length).zip old).foldl
    (fun cur o => if o.2 = cur then cur else if s.pick 4 (64 * tlbKey a lvl + o.1) then o.2 else cur) e0

/-- R19, R24, R25: the walk from a table at level `lvl`. -/
def State.walk (s : State) (vi a : Nat) (kind : AKind) (te : Bool) (tkey : Nat) :
    List Nat → Nat → List (Nat × (Nat × Dword)) →
    Except XFault (Dword × Nat × Nat × List (Nat × (Nat × Dword)))
  | [], _, seen => .error { cause := .pageNotPresent, malf := true, reads := seen.map (fun e => e.2.1) }
  | lvl :: ls, t, seen =>
    let ea := t + 8 * (a / 2 ^ (46 - 10 * lvl) % 1024)
    let before := seen.map (fun e => e.2.1)
    match s.rangeRefuses vi (ea / 65536) (ea / 65536) with
    | some res => .error { cause := .viViolation, viol := some (ea, true, res), reads := before }
    | none =>
      if te && !s.keyUsable vi tkey then .error { cause := .keyInvalid, reads := before }
      else
        let tag : KTag := if te then s.slotTag tkey else 0
        let e := s.entryUsed vi a lvl kind (w64 (leNat (s.bytesAs tag ea 8)))
        if !bit e 0 then .error { cause := .pageNotPresent, reads := ea :: before }
        else if malformed e lvl then .error { cause := .pageNotPresent, malf := true, reads := ea :: before }
        else
          let seen := (tlbKey a lvl, (ea, e)) :: seen
          if bit e 1 then .ok (e, lvl, ea, seen)
          else State.walk s vi a kind te tkey ls (fld e 13 35 * 8192) seen

/-- R24 from the leaf on: permissions, ranges and keys, in order.  A large page that a violation refuses is logged with
its first frame (log entry 98). -/
def State.leafCheck (s : State) (vi : Nat) (kind : AKind) (priv : Bool) (e : Dword) (psz : Nat) :
    Option XFault :=
  let frame := fld e 16 32
  let host := isHost (frame * 65536)
  if bit e 5 && !priv then some { cause := .pagePermission }
  else if (kind == .load || kind == .prefetch) && !bit e 2 then some { cause := .pagePermission }
  else if kind == .fetch && (!bit e 4 || fld e 7 2 == 2 || host) then
    some { cause := .pagePermission, notExec := true }
  else if (kind == .store || kind == .atomic) && bit e 6 then some { cause := .compressedWrite }
  else if (kind == .store || kind == .atomic) && !bit e 3 then some { cause := .pagePermission }
  else if kind == .atomic && host then some { cause := .atomicUnsupported }
  else
    match s.rangeRefuses vi frame (frame + leafLen e psz / 65536 - (if leafLen e psz < 65536 then 0 else 1)) with
    | some res => some { cause := .viViolation, viol := some (frame * 65536, false, res) }
    | none =>
      if bit e 9 && !s.keyUsable vi (fld e 52 12) then some { cause := .keyInvalid }
      else if !bit e 9 && bit (s.vi vi).cfg 26 && !host then some { cause := .keyInvalid }
      else none

/-- R24: `Translate` for the global window. -/
def State.translate (s : State) (vi : Nat) (g : Dword) (kind : AKind) (size : Nat) (priv : Bool) :
    Except XFault XOk :=
  let a := fld g 0 56
  let c := s.vi vi
  let vw := fld c.cfg 0 6
  if fld g 56 8 ≠ 0 then .error { cause := .spaceInvalid }
  else if a % size ≠ 0 then .error { cause := .misaligned }
  else if vw < 56 ∧ a / 2 ^ vw ≠ 0 then .error { cause := .addressNoncanonical }
  else if !bit c.troot 0 then .error { cause := .pageNotPresent }
  else
    let root := fld c.troot 13 35 * 8192
    if !(isNear root || isFar root) then .error { cause := .pageNotPresent, malf := true }
    else
      match s.walk vi a kind (bit c.troot 1) (fld c.troot 52 12) [0, 1, 2, 3] root [] with
      | .error f => .error f
      | .ok (e, lvl, ea, seen) =>
        let psz := pageSize lvl
        match s.leafCheck vi kind priv e psz with
        | some f => .error { f with reads := seen.map (fun e => e.2.1), leaf := some ea }
        | none =>
          .ok { pa := fld e 16 32 * 65536 + a % psz, leaf := e, psz := psz, ea := ea, etag := s.tableTag vi,
                off := a % psz, page := a / psz * psz, cache := seen,
                known := (s.cachedEntries vi a lvl).foldl (fun b o => b ||| (o &&& 0xC00)) (e &&& 0xC00) }

/-- R48: the leaf entry at an address is in its migrating state. -/
def State.migrating (s : State) (ea : Nat) : Bool :=
  s.cores.any (fun e => e.2.started.any (fun c =>
    match c.mig with
    | some m => m.1 == ea
    | none => false))

/-- R48: the translation reached a leaf that is migrating, so its access is held, whatever the leaf says. -/
def State.heldAt (s : State) (r : Except XFault XOk) : Bool :=
  match r with
  | .ok x => s.migrating x.ea
  | .error f => f.leaf.any s.migrating

/-- R25, R44: the table reads of a walk that no cache served, performed in the system class, each at its home. -/
def State.walkReads (s : State) (vi : Nat) (tag : KTag) (reads : List Nat) : State :=
  (reads.filter (fun ea => !(s.vid vi).tlb.any (fun e => e.2.1 == ea))).foldl
    (fun s ea => s.request { vi := vi, cls := 3 } tag ea 8 false) s

/-- R55: the KIND of an instruction's access. -/
def violKind : AKind → Nat
  | .load => 0 | .store => 1 | .atomic => 2 | .fetch => 3 | .prefetch => 7

/-- R55: a violation written to the log of the VI.  `kind` is 0 to 7; a walk read is 4 and carries the
physical address of the read.  The table reads of the walk have been performed. -/
def State.logViol (s : State) (vi : Nat) (g : Dword) (kind core : Nat) (f : XFault) : State :=
  let s := s.walkReads vi (s.tableTag vi) f.reads
  match f.viol with
  | none => s
  | some (pa, walk, res) =>
    s.modVid vi (fun d =>
      let n := d.vlogHead + 1
      let lo := w64 ((if walk then pa else fld g 0 56) + (if walk then 4 else kind) * 2 ^ 56)
      let hi := w64 (pa / 65536 % 2 ^ 32 + core * 2 ^ 32 + (if res then 2 else 1) * 2 ^ 40
        + n.toNat % 65536 * 2 ^ 48)
      { d with vlogHead := n, vlog := kset (d.vlogHead.toNat % 16) (lo, hi) d.vlog })

/-- R23: the bits an access needs that neither its walk nor a cached entry has seen set are set by
compare-and-swap at the entry's home; the entries of the walk may be cached from then on (R26).  A
prefetch sets none. -/
def State.touchLeaf (s : State) (vi : Nat) (kind : AKind) (x : XOk) : State :=
  let want : Dword := x.leaf ||| (adBits kind &&& ~~~x.known)
  let now : Dword := w64 (leNat (s.bytesAs x.etag x.ea 8))
  let s := s.walkReads vi x.etag (x.cache.map (fun e => e.2.1))
  let s :=
    if want != x.leaf && now = x.leaf then
      s.homeWrite none { vi := vi, cls := 3 } x.etag x.ea (leBytes 8 want.toNat)
    else s
  let entries := x.cache.map (fun e => (e.1, (e.2.1, if e.2.1 = x.ea then want ||| x.known else e.2.2)))
  let fresh := entries.filter (fun e => !(s.vid vi).tlb.contains e)
  if fresh.isEmpty then s else s.modVid vi (fun d => { d with tlb := d.tlb ++ fresh })

/-- R31: the page is uncached: ORDERED or in the host aperture. -/
def XOk.uncached (x : XOk) : Bool := fld x.leaf 7 2 == 2 || isHost x.pa
/-- R29: the page is CACHED and in a tier. -/
def XOk.cached (x : XOk) : Bool := fld x.leaf 7 2 == 0 && !isHost x.pa
/-- R39: the page is compressed, and its pack. -/
def XOk.packed (x : XOk) : Bool := bit x.leaf 6
def XOk.pack (x : XOk) : Nat := fld x.leaf 16 32 * 65536
/-- R29 to R31, R114: an access to a page as its slice sees it, given its class and its policy. -/
def XOk.ask (x : XOk) (vi cls policy : Nat) : Ask :=
  { vi := vi, cls := if isHost x.pa then 3 else cls, alloc := !x.uncached, evict := policy == 1 || policy == 2 }

/-- R42: a read of a compressed page by what its translation gave. -/
def State.packAt (s : State) (r : Ask) (x : XOk) (addr : Dword) (n : Nat) : Option (List Byte) × State :=
  s.packRead r (s.keyTag x.leaf) addr x.pack x.psz (leafLen x.leaf x.psz) x.off n

/-- R120, R123: an access finds no free entry of its class at its slice, or at the slice that decodes its block. -/
def State.noEntry (s : State) (r : Ask) (x : XOk) : Bool :=
  if isHost x.pa then false
  else if x.packed then s.queueFull (s.decodeHome r.vi x.pack (x.off / 4096)) r.cls
  else s.queueFull (s.home x.pa (s.partOf r.vi)) r.cls

/-- R13: the storage an access reaches. -/
inductive Tgt where
  | glob (x : XOk)
  /-- a team's scratch, at an offset -/
  | scr (team off : Nat)
  | priv (off : Nat)
  | regw (off : Nat)
  deriving DecidableEq, Repr

/-- R48: an access whose translation reached a leaf that is migrating. -/
def State.heldTgt (s : State) (r : Except XFault Tgt) : Bool :=
  match r with
  | .ok (.glob x) => s.migrating x.ea
  | .ok _ => false
  | .error f => f.leaf.any s.migrating

/-- R13, R24, R33, R34: the window of an address, its bound, and translation where it is global. -/
def State.locate (s : State) (t : Team) (g : Group) (addr : Dword) (kind : AKind) (size : Nat) :
    Except XFault Tgt :=
  let off := fld addr 0 56
  match fld addr 56 8 with
  | 0x00 =>
    match s.translate t.vi addr kind size g.hm with
    | .ok x => .ok (.glob x)
    | .error f => .error f
  | 0xF0 =>
    if off % size ≠ 0 then .error { cause := .misaligned }
    else if off + size ≤ t.scrSize then .ok (.scr t.id off) else .error { cause := .scratchRange }
  | 0xF1 =>
    if off % size ≠ 0 then .error { cause := .misaligned }
    else if fld addr 44 12 ≠ 0 then .error { cause := .scratchRange }
    else
      match s.rankTeam t (fld addr 40 4) with
      | none => .error { cause := .scratchRange }
      | some u =>
        if fld addr 0 40 + size ≤ u.scrSize then .ok (.scr u.id (fld addr 0 40))
        else .error { cause := .scratchRange }
  | 0xF2 =>
    if off % size ≠ 0 then .error { cause := .misaligned }
    else if t.privN * 256 < off + size then .error { cause := .privateRange }
    else if kind == .atomic then .error { cause := .atomicUnsupported }
    else .ok (.priv off)
  | 0xF3 =>
    if off % size ≠ 0 then .error { cause := .misaligned }
    else if 32 * g.win < off + size then .error { cause := .regaddrRange }
    else if kind == .atomic then .error { cause := .atomicUnsupported }
    else .ok (.regw off)
  | _ => .error { cause := .spaceInvalid }

/-- R77: bytes of a team's scratch. -/
def Team.scrRead (t : Team) (off n : Nat) : List Byte := (List.range n).map (fun i => zget (off + i) t.scr)

/-- R77, R100: bytes written to a team's scratch: granules become written, whole words lose their
poison. -/
def Team.scrWrite (t : Team) (off : Nat) (bs : List Byte) : Team :=
  let n := bs.length
  { t with
    scr := ((List.range n).zip bs).foldl (fun m e => zset (off + e.1) e.2 m) t.scr
    scrW := if n = 0 then t.scrW
            else (List.range ((off + n - 1) / 4096 + 1 - off / 4096)).foldl (fun l i => sinsert (off / 4096 + i) l) t.scrW
    scrPoison := t.scrPoison.filter (fun w => !(decide (off ≤ 8 * w) && decide (8 * w + 8 ≤ off + n))) }

/-- R100: a poisoned word in a range of scratch. -/
def Team.scrPoisoned (t : Team) (off n : Nat) : Bool :=
  t.scrPoison.any (fun w => decide (8 * w < off + n) && decide (off < 8 * w + 8))

end Sys2Proof.Machine
end

