-- ==== Sys2Proof/Machine/Ops.lean ====
section
/-! DEFINITION. What every instruction shares: pending results and the switch marker, the check at
decode that depends on the machine, stopping a group (trap entry, the halt of a core, the end of a
team) and leaving handler mode, the split of a fragment, the completion of an instruction, barrier
arrivals, and `issue`, which runs one instruction for the fragment that issues next (R180, R190, R191,
R196 to R198, R255, R450 to R465). -/

namespace Sys2Proof.Machine

/-! ### Pending long-class results (R196 to R198) -/

/-- R197: the value an instruction reads where long-class results for the place are pending: the old
one or any of them. -/
def pendPick {α : Type} [DecidableEq α] (fr tag key : Nat) (old : α) (l : List α) : α :=
  ((List.range l.length).zip l).foldl
    (fun cur e => if e.2 = cur then cur else if Config.freePick fr (16 * (64 * key + e.1) + tag) then e.2 else cur)
    old

/-- R71: a register with the bytes of a mask replaced. -/
def putPart (old : Word) (p : Word × Word) : Word := (old &&& ~~~p.1) ||| (p.2 &&& p.1)

/-- R71, R197: what pending parts leave of a register: each of them in place or not. -/
def partPick (fr key : Nat) (old : Word) (l : List (Word × Word)) : Word :=
  ((List.range l.length).zip l).foldl
    (fun cur e => if Config.freePick fr (16 * (64 * key + e.1) + 4) then putPart cur e.2 else cur) old

/-- R197: a lane's register as an instruction reads it; bytes that `rg:` stores have pending may be old or new, and
come before or after a pending result of the whole register. -/
def Group.readReg (g : Group) (fr r l : Nat) : Word :=
  let whole := g.pend.filterMap (fun p => kfind (32 * r + l) p.regs)
  let parts := g.pend.filterMap (fun p => kfind (32 * r + l) p.part)
  let v := pendPick fr 0 (32 * r + l) (g.reg r l) whole
  if parts.isEmpty then v
  else pendPick fr 6 (32 * r + l) (partPick fr (32 * r + l) v parts) whole

/-- R197: a predicate as an instruction reads it. -/
def Group.readPred (g : Group) (fr p : Nat) : Word :=
  if g.pend.all (fun q => q.preds.isEmpty) then g.pred p
  else maskOf (fun l =>
    pendPick fr 1 (32 * p + l) ((g.pred p).getLsbD l) (g.pend.filterMap (fun q => kfind (32 * p + l) q.preds)))

/-- R197: a scalar register as an instruction reads it. -/
def Group.readScal (g : Group) (fr n : Nat) : Word :=
  pendPick fr 2 n (g.scalar n) (g.pend.filterMap (fun p => kfind n p.scal))

/-- R197: of the pending results for a place that is written, the free choice says which are written
later still. -/
def pendKeep {α : Type} (fr tag key : Nat) (l : List (Nat × α)) : List (Nat × α) :=
  match kfind key l with
  | none => l
  | some _ => if Config.freePick fr (16 * key + tag) then l else kdel key l

/-- R197: a lane's register written by a short-class instruction. -/
def Group.writeReg (g : Group) (fr r l : Nat) (v : Word) : Group :=
  let g := { g with pend := g.pend.map (fun (p : Pend) =>
    { p with
      regs := pendKeep fr 7 (32 * r + l) p.regs
      part := pendKeep fr 7 (32 * r + l) p.part }) }
  g.setReg r l v

/-- R197: a predicate written in some lanes by a short-class instruction. -/
def Group.writePred (g : Group) (fr p : Nat) (lanes v : Word) : Group :=
  let g := { g with pend := g.pend.map (fun (q : Pend) =>
    { q with preds := (lanesOf lanes).foldl (fun l n => pendKeep fr 8 (32 * p + n) l) q.preds }) }
  g.setPred p lanes v

/-- R197, R319: a scalar register written by a short-class instruction; of writes that paths leave unordered the one issued
last stands (log entry 123). -/
def Group.writeScal (g : Group) (fr n : Nat) (v : Word) : Group :=
  let g := { g with pend := g.pend.map (fun (p : Pend) => { p with scal := pendKeep fr 9 n p.scal }) }
  g.setScalar n v

/-- Results of several long-class operations joined: where two name one place, which is written last is
a free choice (R197). -/
def pendJoin {α : Type} [DecidableEq α] (fr tag : Nat) (acc new : List (Nat × α)) : List (Nat × α) :=
  new.foldl (fun l e =>
    match kfind e.1 l with
    | none => kset e.1 e.2 l
    | some u => if u = e.2 then l else if Config.freePick fr (16 * e.1 + tag) then kset e.1 e.2 l else l) acc

/-- R67, R71, R100: part of a register written: its granule becomes bound, and poison stays in the register. -/
def Group.setPart (g : Group) (key : Nat) (p : Word × Word) : Group :=
  { g with regs := zset key (putPart (zget key g.regs) p) g.regs, bound := sinsert (key / 256) g.bound }

/-- One pending result written. -/
def Group.writePend (g : Group) (regs : List (Nat × Word)) (preds : List (Nat × Bool))
    (scal : List (Nat × Word)) (part : List (Nat × (Word × Word)) := []) : Group :=
  let g := regs.foldl (fun g e => g.setReg (e.1 / 32) (e.1 % 32) e.2) g
  let g := part.foldl (fun g e => g.setPart e.1 e.2) g
  let g := preds.foldl (fun g e =>
    g.setPred (e.1 / 32) (laneBit (e.1 % 32)) (if e.2 then 0xFFFFFFFF else 0)) g
  scal.foldl (fun g e => g.setScalar e.1 e.2) g

/-- R197, R198: every pending result written; loads that met poison write nothing and stay to be
reported (R58). -/
def Group.commitPend (g : Group) (fr : Nat) : Group :=
  let regs := g.pend.foldl (fun l p => pendJoin fr 10 l p.regs) []
  let preds := g.pend.foldl (fun l p => pendJoin fr 11 l p.preds) []
  let scal := g.pend.foldl (fun l p => pendJoin fr 12 l p.scal) []
  let part := g.pend.flatMap (fun p => p.part)
  let order := if part.length ≤ 1 then part
    else (sortBy (fun e => Config.freeRank fr e.1) ((List.range part.length).zip part)).map (fun e => e.2)
  let late := regs.filter (fun e => part.any (fun p => p.1 == e.1) && Config.freePick fr (16 * e.1 + 6))
  { (late.foldl (fun g e => g.setReg (e.1 / 32) (e.1 % 32) e.2) (g.writePend regs preds scal order)) with
    pend := (g.pend.filter (fun p => p.poison.isSome)).map (fun p => { poison := p.poison }) }

/-- R198: the part of a pending result in some lanes, and the rest of it. -/
def Pend.inLanes (p : Pend) (m : Word) : Pend :=
  { p with
    regs := p.regs.filter (fun e => bit m (e.1 % 32))
    preds := p.preds.filter (fun e => bit m (e.1 % 32))
    part := p.part.filter (fun e => bit m (e.1 % 32)) }
def Pend.outLanes (p : Pend) (m : Word) : Pend :=
  { regs := p.regs.filter (fun e => !bit m (e.1 % 32)), preds := p.preds.filter (fun e => !bit m (e.1 % 32)),
    part := p.part.filter (fun e => !bit m (e.1 % 32)) }

/-- R198: the pending results of some lanes written; those of other lanes stay pending. -/
def Group.commitLanes (g : Group) (fr : Nat) (m : Word) : Group :=
  let here : Group := { g with pend := g.pend.map (fun (p : Pend) => p.inLanes m) }
  let c := here.commitPend fr
  { c with pend := c.pend ++ (g.pend.map (fun (p : Pend) => p.outLanes m)).filter (fun p => p != ({} : Pend)) }

/-- The list without the first element that passes. -/
def dropFirst {α : Type} (p : α → Bool) : List α → List α
  | [] => []
  | x :: xs => if p x then xs else x :: dropFirst p xs

/-! ### What an instruction sees of the machine -/

/-- The fragment that issues, its team as it stands before the instruction acts, and the instruction. -/
structure Ctx where
  i : Instr
  /-- R255: the fields as an extended form -/
  o : XOps
  /-- R266: the operand a literal takes the place of -/
  lit : LitPos
  core : Nat
  team : Team
  frag : Frag
  len : Nat
  word : Word
  free : Nat

/-- One home group that the fragment carries (R187). -/
structure GCtx where
  g : Group
  carried : Word
  /-- R180 -/
  act : Word

/-- R180: the lanes of a group that are active under a predicate. -/
def Group.activeR (g : Group) (fr : Nat) (carried : Word) (o : XOps) : Word :=
  let p := g.readPred fr o.pred.toNat
  carried &&& g.exec &&& (if o.pneg then ~~~p else p)

/-- The home groups the fragment carries, in ascending number. -/
def Ctx.groups (c : Ctx) : List GCtx :=
  c.frag.lanes.filterMap (fun e =>
    (c.team.group? e.1).map (fun g => { g := g, carried := e.2, act := g.activeR c.free e.2 c.o }))

/-- Where a group goes on: its fragment's state, address, `fmt` and privilege. -/
structure Next where
  st : FState := .ready
  pc : Dword
  fmt : Word
  hm : Bool
  /-- R190: the instruction could not issue -/
  held : Bool := false
  deriving DecidableEq, Repr

/-- The instruction after this one. -/
def Ctx.next (c : Ctx) : Next :=
  { pc := c.frag.pc + w64 c.len, fmt := c.frag.fmt, hm := c.frag.hm }

/-- This instruction again: nothing has happened. -/
def Ctx.again (c : Ctx) : Next := { pc := c.frag.pc, fmt := c.frag.fmt, hm := c.frag.hm }

/-- What an instruction came to for one home group: it goes on, it is held and tried again (R48, R56),
or it stops. -/
inductive GOut where
  | go (n : Next)
  | hold
  | trap (t : Trap)
  /-- R194: it stops with a fault that another fragment of the group has taken -/
  | follow (n : Next)
  deriving DecidableEq, Repr

/-! ### Barrier arrivals (R158, R348) -/

/-- R348: an arrival; when ARR reaches COUNT the phase completes. -/
def Bar.arrive (b : Bar) : Bar :=
  if b.arr + 1 = b.count then { b with phase := (b.phase + 1) % 2 ^ 32, arr := 0 }
  else { b with arr := b.arr + 1 }

/-- R158: the arrival of a command at a barrier of its team. -/
def Team.arrive (t : Team) (bar : Nat) : Team :=
  match kfind bar t.bars with
  | some b => { t with bars := kset bar b.arrive t.bars }
  | none => t

/-- A member of a list that holds each once. -/
def addOnce {α : Type} [DecidableEq α] (x : α) (l : List α) : List α := if l.contains x then l else l ++ [x]

/-- R149: whoever knows of a command's write hands that on. -/
def AccOld.share (o : AccOld) (src dst : Knower) : AccOld :=
  { o with seen := if o.seen.contains src then addOnce dst o.seen else o.seen
           past := o.past ++ (o.past.filter (fun e => decide (e.1 = src) && !o.past.contains (dst, e.2))).map
             (fun e => (dst, e.2)) }

/-- R149: what one knows of the accumulators another knows too. -/
def Team.accShare (t : Team) (src dst : Knower) : Team := { t with accOld := t.accOld.map (fun o => o.share src dst) }

/-- R158: a command's writes of the accumulators are known to the phase it arrives in. -/
def Team.accTell (t : Team) (cmd bar : Nat) : Team :=
  match kfind bar t.bars with
  | some b =>
    { t with accOld := t.accOld.map (fun o =>
        if o.cmd = cmd then { o with seen := addOnce (.phase bar b.phase) o.seen } else o) }
  | none => t

/-- R348: the wait condition of a group at a barrier. -/
def barReady (b : Bar) (ep : Nat) : Bool :=
  let d := (b.phase + 2 ^ 32 - ep) % 2 ^ 32
  decide (1 ≤ d) && decide (d ≤ 2 ^ 31)

/-! ### Stopping a group (R450 to R457, R461) -/

/-- R461: the core halts; only the first cause is recorded. -/
def State.haltCore (s : State) (c slot group : Nat) (cause : Nat) : State :=
  let saving := s.teams.any (fun e => e.2.core == c && e.2.beingSaved)
  s.modCore c (fun k =>
    if k.dbg.halt then k
    else { k with dbg := { k.dbg with halt := true, halted := !saving, cause := cause, slot := slot, group := group } })

/-- R393: a reserved delivery arrives at the subscriber's barrier. -/
def State.deliverSlot (s : State) (pub : Team) (sid rank : Nat) : State :=
  match s.rankTeam pub rank with
  | none => s
  | some u =>
    s.modTeam u.id (fun u =>
      match kfind sid u.subs with
      | none => u
      | some b => { (u.arrive b.bar) with subs := kset sid { b with reserved := b.reserved - 1 } u.subs })

/-- R392: the stream of a publication. -/
def Cmd.sid (c : Cmd) : Nat := fld (nth 0 c.body 0) 16 4

/-- R393: every delivery that a publication reserved arrives. -/
def State.deliverAll (s : State) (c : Cmd) : State :=
  match s.team? c.team with
  | none => s
  | some t => c.slots.foldl (fun s e => s.deliverSlot t c.sid e.1) s

/-- R393: the deliveries of one subscription are written and arrive in the order of their slot indices. -/
def State.pubTurn (s : State) (t : Team) (c : Cmd) : Bool :=
  c.slots.all (fun e =>
    match (s.rankTeam t e.1).bind (fun u => kfind c.sid u.subs) with
    | some b => decide (e.2 ≤ b.next - b.reserved)
    | none => true)

/-- R393: a command that makes no access delivers what it reserved in its turn: until then it stands among the started
ones, its work done. -/
def State.inTurn (s : State) (core : Nat) (c : Cmd) (now : State → State) : State :=
  match s.team? c.team with
  | none => s
  | some t =>
    if s.pubTurn t c then now s
    else s.modCore core (fun k => { k with started := k.started ++ [{ c with fin := true, status := 1 }] })

/-- R452: a fault ends the team: nothing of it issues again, its commands that have not started are
discarded, each with its arrival and no record, and the grid counts the fault.  A publication that has reserved its slots
and waits for an entry is one of them (R391). -/
def State.endTeam (s : State) (tid : Nat) (cause : Cause) (faddr : Dword) : State :=
  match s.team? tid with
  | none => s
  | some t =>
    if t.dead then s
    else
      let k := s.core t.core
      let mine (q : List Cmd) : List Cmd := q.filter (fun c => c.team == tid)
      let rest (q : List Cmd) : List Cmd := q.filter (fun c => c.team != tid)
      let reserved := t.frags.flatMap (fun f =>
        match f.st with
        | .qpush _ cmds _ _ => cmds.filter (fun c => !c.slots.isEmpty)
        | _ => [])
      let gone := mine k.qmx ++ mine k.qcp ++ t.saved.map (fun e => e.2) ++ reserved
      let s := (s.setTeam { t with dead := true, saved := [] }).modCore t.core (fun k =>
        { k with qmx := rest k.qmx, qcp := rest k.qcp })
      let s := gone.foldl (fun s c =>
        s.inTurn t.core { c with stslot := none } (fun s => (s.deliverAll c).modTeam tid (fun t => t.arrive c.bar))) s
      s.modGrid t.grid (fun g =>
        if g.count = 0 then { g with count := 1, cause := cause.code, faddr := faddr &&& 0xFFFFFFFFFFFFFF }
        else { g with count := min (g.count + 1) 0xFFFFFFFF })

/-- R455: `sr.tcause`. -/
def Trap.word (t : Trap) : Word :=
  w32 (t.cause.code + 64 * b2n t.malf + 128 * b2n t.hw + 256 * (t.detail % 256))

/-- R455: `sr.taddr`. -/
def Trap.faddr (t : Trap) (pc : Dword) : Dword := t.addr.getD pc

/-- R455: the trap registers written when a group stops. -/
def Group.record (g : Group) (t : Trap) (pc resume : Dword) (word fmt : Word) : Group :=
  { g with tr := { g.tr with
      tcause := t.word, taddr := t.faddr pc, tinst := pc, tresume := resume, tmask0 := t.mask0,
      tmask1 := t.mask1, tmask2 := t.mask2, tword := (if t.cause = .fetchFault then 0 else word),
      texec := g.exec, tfmt := fmt } }

/-- R451: what becomes of a cause. -/
inductive Fate where
  | halt | handler | team
  deriving DecidableEq, Repr

/-- R451, R464, R465: the fate of a cause for a group. -/
def State.fate (s : State) (t : Team) (hm : Bool) (c : Cause) : Fate :=
  let v := s.vi t.vi
  let n := c.code
  let ignored := n == 0x3C || n == 0x3D || n == 0x3E
  if (!ignored && bit v.dbgHalt n) || c == .singleStep then .halt
  else if bit v.trapCfg 0 && (c == .throttleNotice || (!ignored && bit v.trapMask n)) && !hm then .handler
  else .team

/-- R454: entry to the handler, once the group's results are written: the lanes that have not exited
become active, `fmt` becomes 0, and execution continues at `VI_TRAP_ENTRY`.  The watchdog counts anew. -/
def Group.enterHandler (g : Group) (lanes : Word) : Group :=
  { g with hm := true, exec := g.exec ||| (lanes &&& g.alive), wdog := 0 }

/-- R190: what a fragment of some of its home groups waits for. -/
def FState.only (st : FState) (keep : Nat → Bool) : FState :=
  match st with
  | .qpush q cmds seq next => .qpush q (cmds.filter (fun c => keep c.group)) seq next
  | .barw b gs next => .barw b (gs.filter keep) next
  | .sleeping b gs cont => .sleeping b (gs.filter keep) cont
  | .qpop d gs next => .qpop d (gs.filter keep) next
  | .publish cmds next => .publish (cmds.filter (fun c => keep c.group)) next
  | .held i arr next => .held i (arr.filter (fun a => keep a.group)) next
  | .meeting i act targets join next =>
    .meeting i (act.filter (fun e => keep e.1)) (targets.filter (fun e => keep (e.1 / 32))) join next
  | .rayq i rays next => .rayq i (rays.filter (fun r => keep (r.lane / 32))) next
  | st => st

/-- R187, R454: a fragment with its lanes of a group in the mode the group now has: lanes of groups of two modes never
share a fragment, so they split off where they have to. -/
def Team.modeFrag (t : Team) (g : Nat) (hm : Bool) (f : Frag) : Team :=
  if f.hm = hm ∨ !f.lanes.any (fun e => e.1 == g) then t
  else if f.lanes.all (fun e => e.1 == g) then t.setFrag { f with hm := hm }
  else
    let t := t.setFrag { f with lanes := f.lanes.filter (fun e => e.1 != g), st := f.st.only (fun n => n != g) }
    { (t.setFrag { f with id := t.nextFrag, hm := hm, lanes := f.lanes.filter (fun e => e.1 == g),
                          st := f.st.only (fun n => n == g) }) with nextFrag := t.nextFrag + 1 }

/-- R454: privilege belongs to a home group: its fragments, but for those that are dealt with already, take its mode
(log entry 111). -/
def Team.setMode (t : Team) (but : List Nat) (g : Nat) (hm : Bool) : Team :=
  (t.frags.filter (fun f => !but.contains f.id)).foldl (fun t f => t.modeFrag g hm f) t

/-- R451 to R455: a home group stops for a cause at an instruction. -/
def State.takeTrap (s : State) (tid : Nat) (f : Frag) (word : Word) (fr g : Nat) (t : Trap)
    (resume : Dword) (peers : List Nat := []) : State × Next :=
  let stay : Next := { st := .stopped, pc := f.pc, fmt := f.fmt, hm := f.hm }
  match s.team? tid with
  | none => (s, stay)
  | some tm =>
    let hm := (tm.group? g).elim f.hm (fun gr => gr.hm)
    match s.fate tm hm t.cause with
    | .team => (s.endTeam tid t.cause (t.faddr f.pc), stay)
    | .halt =>
      let s := s.modGroup tid g (fun gr =>
        { ((gr.commitPend fr).record t f.pc resume word f.fmt) with stop := some (.fault t.cause hm) })
      (s.haltCore tm.core tm.slot g t.cause.code, stay)
    | .handler =>
      ((s.modGroup tid g (fun gr =>
        ((gr.commitPend fr).record t f.pc resume word f.fmt).enterHandler (glanes f.lanes g))).modTeam tid
          (fun tm => tm.setMode (f.id :: peers) g true),
       { st := .ready, pc := (s.vi tm.vi).trapEntry, fmt := 0, hm := true })

/-! ### Fragments split and go on (R190, R191, R323) -/

/-- Home groups with one way of going on, in order of first appearance. -/
def classes (l : List (Nat × Next)) : List (Next × List Nat) :=
  l.foldl (fun acc e =>
    match acc.find? (fun c => c.1 == e.2) with
    | some _ => acc.map (fun c => if c.1 == e.2 then (c.1, c.2 ++ [e.1]) else c)
    | none => acc ++ [(e.2, [e.1])]) []

/-- The length of an instruction word of LEN, in bytes (R250). -/
def lenOf (w : Word) : Nat := if bit w 1 then (if bit w 0 then 20 else 12) else if bit w 0 then 12 else 4

/-- R199: the loop buffer of a fragment after a transfer from `src` (with `len` bytes) to `dst`: a taken
backward `BRA` whose body fits in 256 bytes issues from the buffer; leaving the body ends that.  A
back-edge after an `ICINV` fetches anew (R200). -/
def Frag.looped (f : Frag) (isBra : Bool) (src dst : Dword) (len : Nat) : Frag :=
  let back := isBra && decide (dst.toNat ≤ src.toNat)
  let f := if back && decide (f.fence < f.loopFence) then { f with fence := f.loopFence } else f
  if back && decide (src.toNat + len - dst.toNat ≤ 256) then { f with loop := some (dst, src + w64 len) }
  else
    match f.loop with
    | some (a, b) =>
      if a.toNat ≤ dst.toNat ∧ dst.toNat < b.toNat then f
      else { f with loop := none, fence := max f.fence f.loopFence }
    | none => f

/-- R190: a fragment that goes on, with some of its lanes. -/
def Frag.goes (f : Frag) (word : Word) (id : Nat) (n : Next) (lanes : GLanes) : Frag :=
  { (f.looped (fld word 3 7 == 0x40) f.pc n.pc (lenOf word)) with
    id := id, lanes := lanes, st := n.st, pc := n.pc, fmt := n.fmt, hm := n.hm, word := word,
    starve := if n.held then f.was.1 else f.starve, promoted := if n.held then f.was.2.1 else f.promoted,
    yielded := if n.held then f.was.2.2 else f.yielded, blocked := n.held }

/-- The lanes of a fragment in some home groups. -/
def Frag.lanesIn (f : Frag) (gs : List Nat) : GLanes := f.lanes.filter (fun e => gs.contains e.1 && e.2 != 0)

/-- R191, R323: a fragment goes on; groups that go different ways become fragments of their own, with
its path and precedence.  A fragment without lanes ceases to exist (R190). -/
def Team.goOn (t : Team) (fid : Nat) (word : Word) (l : List (Nat × Next)) : Team :=
  match t.frag? fid with
  | none => t
  | some f =>
    match classes l with
    | [] => t
    | (n, gs) :: rest =>
      let t :=
        if (f.lanesIn gs).isEmpty then t.delFrag fid else t.setFrag (f.goes word fid n (f.lanesIn gs))
      rest.foldl (fun t c =>
        if (f.lanesIn c.2).isEmpty then t
        else { (t.setFrag (f.goes word t.nextFrag c.1 (f.lanesIn c.2))) with nextFrag := t.nextFrag + 1 }) t

/-- R450 step 8: the causes that are taken once the instruction has completed. -/
def Trap.completes (t : Trap) : Bool :=
  t.cause == .softwareTrap || t.cause == .singleStep || (t.cause == .breakpoint && !t.hw)

/-- R455: the resume address of a cause, given the address of the instruction and of the one after it. -/
def Trap.resume (t : Trap) (pc after : Dword) : Dword := if t.completes then after else pc

/-- R457: the debug register passed over, once an instruction has completed: the `WRSR` that resumed leaves
it for the next instruction. -/
def skipNext (k : Option Nat) : Option Nat :=
  match k with
  | some n => if 8 ≤ n then some (n - 8) else none
  | none => none

/-- R457, R463, R465: what a completed instruction does to its group's counts. -/
def Group.complete (g : Group) : Group := { g with wdog := 0, exempt := g.exempt - 1, skip := skipNext g.skip }

/-- R450 step 8: an instruction that has completed raises SINGLE_STEP where `CORE_DBG.STEP` is set. -/
def stepTrap : Trap := { cause := .singleStep }

/-- R217: one more, or one less, for a fragment that was passed over. -/
def Team.aged (t : Team) (fid : Nat) (up : Bool) : Team :=
  { t with frags := t.frags.map (fun f =>
      if f.id = fid then { f with starve := if up then f.starve + 1 else f.starve - 1 } else f) }

/-- R423: the home groups of the fragments passed over count the clk, once each, or do not. -/
def Team.passCount (t : Team) (fids : List Nat) (up : Bool) : Team :=
  { t with groups := t.groups.map (fun e =>
      if t.frags.any (fun f => fids.contains f.id && f.lanes.any (fun x => x.1 == e.1)) then
        (e.1, e.2.perfAdd 2 (if up then 1 else 2 ^ 64 - 1))
      else e) }

/-- R217, R423: the candidates that a selection passes over age, or did not. -/
def State.pass (s : State) (others : List (Nat × Nat)) (up : Bool) : State :=
  let s := others.foldl (fun s e => s.modTeam e.1 (fun t => t.aged e.2 up)) s
  (others.map (fun e => e.1)).eraseDups.foldl (fun s tid =>
    s.modTeam tid (fun t => t.passCount ((others.filter (fun e => e.1 == tid)).map (fun e => e.2)) up)) s

/-- R190, R217, R218, R474: a way whose selected fragment could not issue has not issued in this clk. -/
def Core.unissue (k : Core) (way : Nat) (w : Was) : Core :=
  { k with last := (match w.last with | some x => kset way x k.last | none => kdel way k.last),
           lastClk := (match w.lastClk with | some x => kset way x k.lastClk | none => kdel way k.lastClk),
           nt := (if w.nt then sinsert way k.nt else k.nt),
           idle := (match w.idle with | some x => kset way x k.idle | none => k.idle) }

def State.unissue (s : State) (core way : Nat) : State :=
  match kfind way (s.core core).was with
  | none => s
  | some w => (s.modCore core (fun k => k.unissue way w)).pass w.others false

/-- R194, R454, R457: another fragment of a group goes where a first one that met the same fault has gone: into the
handler, or back from it. -/
def Group.follow (g : Group) (n : Next) (lanes : Word) : Group :=
  let l := lanes &&& g.alive
  if n.st ≠ .ready then g
  else if n.hm then { g with exec := g.exec ||| l }
  else { g with exec := (g.exec &&& ~~~l) ||| (g.tr.texec &&& l) }

/-- The home groups of a fragment go on or stop, each as its instruction came out; the groups that stop
split off (R191).  `peers` are fragments that a fault stops together with this one (R194). -/
def State.settle (s : State) (tid : Nat) (f : Frag) (word : Word) (fr : Nat) (outs : List (Nat × GOut))
    (peers : List Nat := []) : State :=
  let core := match s.team? tid with | some t => t.core | none => 0
  let stepping := (s.core core).dbg.step
  let after (n : Next) : Bool := n.st == .ready
  let r := outs.foldl (fun (acc : State × List (Nat × Next) × List (Nat × Next)) e =>
    match e.2 with
    | .hold => (acc.1, acc.2.1 ++ [(e.1, { pc := f.pc, fmt := f.fmt, hm := f.hm, held := true })], acc.2.2)
    | .go n =>
      if after n then
        let s := acc.1.modGroup tid e.1 Group.complete
        if stepping then
          let x := s.takeTrap tid { f with fmt := n.fmt, hm := n.hm } word fr e.1 stepTrap n.pc
          (x.1, acc.2.1, acc.2.2 ++ [(e.1, { x.2 with pc := n.pc })])
        else (s, acc.2.1 ++ [(e.1, n)], acc.2.2)
      else (acc.1, acc.2.1 ++ [(e.1, n)], acc.2.2)
    | .trap t =>
      let s := if t.completes then acc.1.modGroup tid e.1 Group.complete else acc.1
      let x := s.takeTrap tid f word fr e.1 t (t.resume f.pc (f.pc + w64 (lenOf word))) peers
      (x.1, acc.2.1, acc.2.2 ++ [(e.1, x.2)])
    | .follow n =>
      (acc.1.modGroup tid e.1 (fun g => g.follow n (glanes f.lanes e.1)), acc.2.1,
        acc.2.2 ++ [(e.1, if n.st = .ready then n else { n with pc := f.pc, fmt := f.fmt, hm := f.hm })])) (s, [], [])
  let s := r.1.modTeam tid (fun t => t.goOn f.id word (r.2.1 ++ r.2.2))
  if outs.all (fun e => e.2 == .hold) then s.unissue core f.way else s

/-- The home groups of an issue settle. -/
def Ctx.settle (c : Ctx) (outs : List (Nat × GOut)) (s : State) : State :=
  s.settle c.team.id c.frag c.word c.free outs

/-- A move of another agent that cannot be made now is made again later (R48). -/
def State.later (s : State) (m : HeldMove) : State := { s with held := s.held ++ [m] }

/-! ### Checks and effects, home group by home group (R57, R191) -/

/-- What the checks of an instruction came to for a home group: the effect it is to have and how it goes
on, a cause, or to be held. -/
inductive GRes (α : Type) where
  | ok (a : α) (n : Next)
  | trap (t : Trap)
  | hold

/-- R100: the vector registers an instruction reads as operands, and in which lane each. -/
def srcRuns (i : Instr) : List (Kind × (Nat × Nat)) :=
  let own := (dstRuns i).map (fun r => (Kind.vec, r))
  match i with
  | .st _ => own ++ srcUses i
  | .stShort _ => own ++ srcUses i
  | .stt _ => own ++ srcUses i
  | .stacc _ => own ++ srcUses i
  | .cvt o => if bit o.w3 8 then own ++ srcUses i else srcUses i
  | _ => srcUses i

/-- R398: the instructions that read a vector operand of one lane of each group, its lowest active one. -/
def groupWide (i : Instr) : Bool :=
  match i with
  | .vamp _ => true
  | .msetcnt _ => true
  | .rayl _ => true
  | .tiledone _ => true
  | .emit _ => true
  | .emitShort _ => true
  | .emitq _ => true
  | .emitqShort _ => true
  | .launch _ => true
  | .launchShort _ => true
  | _ => false

/-- R425: the active lane with the lowest team lane number, with its group. -/
def Ctx.firstLane (c : Ctx) : List (GCtx × Nat) :=
  match c.groups.find? (fun g => g.act != 0) with
  | some g => (lanesOf g.act).take 1 |>.map (fun l => (g, l))
  | none => []

/-- R195: the home group, among those the fragment carries, with a lane in a column. -/
def Ctx.column (c : Ctx) (l : Nat) : Option GCtx := c.groups.find? (fun gc => bit gc.carried l)

/-- R195: the group and lane whose register a lane reads as an operand of a kind; none: it reads no register. -/
def Ctx.readLane (c : Ctx) (gc : GCtx) (k : Kind) (l : Nat) : Option (Group × Nat) :=
  let side (left : Bool) : Option (Group × Nat) :=
    let outside := if left then l == 0 else l == 31
    let col := if left then (l + 31) % 32 else (l + 1) % 32
    let there : Option (Group × Nat) :=
      match c.column col with
      | some g => if bit g.act col then some (g.g, col) else none
      | none => none
    match c.o.edge with
    | .zero => if outside then none else there
    | .clamp => if outside then some (gc.g, l) else some (there.getD (gc.g, l))
    | .wrap => some (there.getD (gc.g, l))
  match k with
  | .left => side true
  | .right => side false
  | _ => some (gc.g, l)

/-- R100: a poisoned register is an operand of some lane. -/
def Ctx.poisonedOperand (c : Ctx) (gc : GCtx) : Bool :=
  if c.team.groups.all (fun e => e.2.regPoison.isEmpty) then false
  else
    let hit (x : GCtx × Nat) : Bool :=
      (srcRuns c.i).any (fun r =>
        match c.readLane x.1 r.1 x.2 with
        | none => false
        | some y => (List.range r.2.2).any (fun k => smem (32 * (r.2.1 + k) + y.2) y.1.regPoison))
    let own (l : List Nat) : List (GCtx × Nat) := l.map (fun n => (gc, n))
    let lanes : List (GCtx × Nat) :=
      match c.i with
      | .bcast o => if gc.act = 0 then [] else own [o.b.toNat]
      | .bcastShort o => if gc.act = 0 then [] else own [o.b.toNat % 32]
      | .movs o => if gc.act = 0 then [] else own [o.b.toNat]
      | .movsShort o => if gc.act = 0 then [] else own [o.b.toNat % 32]
      | .shfl _ _ => own (lanesOf (gc.act ||| (gc.carried &&& memberMask c.i)))
      | .execw _ => own (lanesOf gc.carried)
      | .execwShort _ => own (lanesOf gc.carried)
      | .calli _ => own ((lanesOf gc.carried).take 1)
      | .calliShort _ => own ((lanesOf gc.carried).take 1)
      | .ret _ => own ((lanesOf gc.carried).take 1)
      | .retShort _ => own ((lanesOf gc.carried).take 1)
      | .wrsr _ => if gc.act = 0 then [] else c.firstLane
      | .wrsrShort _ => if gc.act = 0 then [] else c.firstLane
      | i => own (if groupWide i then (lanesOf gc.act).take 1 else lanesOf gc.act)
    lanes.any hit

/-- R100: the trap of a poisoned operand. -/
def uncTrap : Trap := { cause := .uncorrectable }

/-- R56, R423: a group that waits at issue has not issued. -/
def State.notIssued (s : State) (tid g : Nat) : State := s.modGroup tid g (fun g => g.perfAdd 0 0xFFFFFFFFFFFFFFFF)

/-- The checks of every home group are made, then the groups that passed have their effect, then the
fragment goes on: no lane of a group acts before all its lanes have passed (R57), and a group that
stops does nothing (R191). -/
def Ctx.runGroups {α : Type} (c : Ctx) (check : GCtx → State → GRes α × State)
    (perform : List (GCtx × α) → State → State) (s : State) : State :=
  let r := c.groups.foldl (fun (acc : List (Nat × GOut) × List (GCtx × α) × State) gc =>
    let x := check gc acc.2.2
    match x.1 with
    | .ok a n =>
      if c.poisonedOperand gc then (acc.1 ++ [(gc.g.num, .trap uncTrap)], acc.2.1, x.2)
      else (acc.1 ++ [(gc.g.num, .go n)], acc.2.1 ++ [(gc, a)], x.2)
    | .trap t =>
      if t.cause == .arithTrap && c.poisonedOperand gc then (acc.1 ++ [(gc.g.num, .trap uncTrap)], acc.2.1, x.2)
      else (acc.1 ++ [(gc.g.num, .trap t)], acc.2.1, x.2)
    | .hold => (acc.1 ++ [(gc.g.num, .hold)], acc.2.1, x.2.notIssued c.team.id gc.g.num)) ([], [], s)
  c.settle r.1 (perform r.2.1 r.2.2)

/-- The usual check: nothing to check beyond what `issue` has checked; the groups that have no active
lane do nothing. -/
def Ctx.okNext {α : Type} (c : Ctx) (a : α) (s : State) : GRes α × State := (.ok a c.next, s)

/-- The effect of an instruction that only changes its home groups. -/
def Ctx.mapGroups {α : Type} (c : Ctx) (f : GCtx → α → Group → Group) (l : List (GCtx × α)) (s : State) : State :=
  s.modTeam c.team.id (fun t => l.foldl (fun t e => t.modGroup e.1.g.num (f e.1 e.2)) t)

/-! ### Issue (R180, R198, R255, R450) -/

/-- The first word of an instruction (R455 `sr.tword`). -/
def firstWord (i : Instr) : Word :=
  match encode i with
  | some (w :: _) => w
  | _ => 0

/-- R262, R455: special registers that only handler mode reaches. -/
def privilegedUse (i : Instr) : Bool :=
  match i with
  | .mcad _ => true
  | .rdsr o => srTrap o.a.toNat
  | .rdsrShort o => srTrap o.a.toNat
  | .wrsr o => srTrap o.d.toNat
  | .wrsrShort o => srTrap o.d.toNat
  | _ => false

/-- R211: the role an instruction names and the kinds it may bind (1 core, 2 strand, 3 slice). -/
def roleUse (i : Instr) : Option (Nat × Nat) :=
  match i with
  | .xch o => some (o.c.toNat % 64, 1)
  | .mldw o => if bit o.c 2 then some (fld o.w3 16 6, 2) else none
  | .mma o => if bit o.c 2 then some (fld o.w3 16 6, 2) else none
  | .mmas o => if bit o.c 2 then some (fld o.w3 16 6, 2) else none
  | _ => none

/-- R210, R211: the kind a role has. -/
def Grid.roleKind (g : Grid) (j : Nat) : Nat :=
  if j < g.rc.nroles then fld (nth 0 g.roles j) 0 2 else 0

/-- R210: the VALUE of a role. -/
def Grid.roleValue (g : Grid) (j : Nat) : Nat := fld (nth 0 g.roles j) 8 8

/-- R269: the write of a read-only trap register. -/
def readOnlyUse (i : Instr) : Bool :=
  match i with
  | .wrsr o => srTrap o.d.toNat && !srWritable o.d.toNat
  | .wrsrShort o => srTrap o.d.toNat && !srWritable o.d.toNat
  | _ => false

/-- R255 steps 3 to 5; step 4 refuses a read-only trap register only in handler mode (R269). -/
def fieldCause (i : Instr) (hm : Bool) : Option Cause :=
  match formCause i with
  | some .typeInvalid => if hm && readOnlyUse i then some .reservedField else some .typeInvalid
  | none => if hm && readOnlyUse i then some .reservedField else none
  | c => c

/-- R255 steps 6 to 8. -/
def State.liveCause (s : State) (t : Team) (f : Frag) (i : Instr) : Option Cause :=
  if privilegedUse i && !f.hm then some .privileged
  else if f.lanes.any (fun e =>
      match t.group? e.1 with
      | none => false
      | some g => (vregRuns i).any (fun r => decide (8 * g.win < r.1 + r.2))) then some .regRange
  else
    match roleUse i with
    | none => none
    | some (j, k) =>
      match s.grid? t.grid with
      | none => some .roleUnbound
      | some g => if g.roleKind j = k then none else some .roleUnbound

/-- R256: every home group of the fragment stops for one cause. -/
def State.trapAll (s : State) (tid : Nat) (f : Frag) (word : Word) (fr : Nat) (t : Trap) : State :=
  s.settle tid f word fr (f.lanes.map (fun e => (e.1, GOut.trap t)))

/-- R58, R198: a poisoned load that a marker meets: any of the group's, or, at an implicit marker, one of the lanes
that the fragment carries.  Of several the first pending one is reported (log entry 99). -/
def Group.poisoned (g : Group) (whole : Bool) (carried : Word) : Option Trap :=
  g.pend.findSome? (fun p => p.poison.filter (fun t => whole || t.mask0 &&& carried != 0))

/-- R58, R197, R198: the marked instruction waits for the groups' long-class results, and an implicit marker for those
of the lanes that the fragment carries; the groups with a load that met poison stop at it. -/
def State.marker (s : State) (tid : Nat) (f : Frag) (word : Word) (fr : Nat) (whole : Bool := true) : State × Bool :=
  match s.team? tid with
  | none => (s, false)
  | some t =>
    let gs := f.lanes.filterMap (fun e => t.group? e.1)
    let bad := gs.filterMap (fun g => (g.poisoned whole (glanes f.lanes g.num)).map (fun p => (g.num, p)))
    let s := s.modTeam tid (fun t => gs.foldl (fun t g => t.modGroup g.num (fun g =>
      if whole then g.commitPend fr else g.commitLanes fr (glanes f.lanes g.num))) t)
    if bad.isEmpty then (s, true)
    else
      let s := s.modTeam tid (fun t => bad.foldl (fun t b => t.modGroup b.1 (fun g =>
        { g with pend := dropFirst (fun p => p.poison == some b.2) g.pend })) t)
      let outs := f.lanes.map (fun e =>
        match kfind e.1 bad with
        | some p => (e.1, GOut.trap p)
        | none => (e.1, GOut.hold))
      (s.settle tid f word fr outs, decide (bad.length < f.lanes.length))

/-- R217: a fragment whose issue has been counted. -/
def Frag.counted (f : Frag) : Frag :=
  { f with starve := 0, promoted := false, yielded := false, was := (f.starve, f.promoted, f.yielded) }

/-- R217, R423: what an issue counts in the fragment's team. -/
def Team.counted (t : Team) (f : Frag) : Team :=
  (f.lanes.foldl (fun t e => t.modGroup e.1 (fun g => g.perfAdd 0 1)) t).setFrag f.counted

/-- R218, R474: what a core keeps of an issue. -/
def Core.issued (k : Core) (way clk team frag : Nat) : Core :=
  { k with last := kset way (team, frag) k.last, lastClk := kset way clk k.lastClk, nt := sdel way k.nt,
           idle := kdel way k.idle }

/-- R217, R218, R423, R474: the way has issued from the fragment. -/
def State.issued (s : State) (t : Team) (f : Frag) (core : Nat) : State :=
  (s.setTeam (t.counted f)).modCore core (fun k => k.issued f.way s.clock.clk t.id f.id)

/-- R144: the outcome `t` of a step from `s`, with the writes it performs applied to memory; a step changes
physical memory in no other way. -/
def sealMem (s t : State) : State := { t with mem := Memory.commit s.mem t.out, out := [] }

/-- What a program cannot change besides: the registers of the hub and the clock, which no program reaches
(R51, R428, R479). -/
def sealStep (s t : State) : State := { sealMem s t with hub := s.hub, clock := s.clock }

/-- The state in which the writes of a step begin. -/
def State.quiet (s : State) : State := { s with out := [] }

/-- The issue counted, and the selection used up. -/
def State.begun (s : State) (t : Team) (f : Frag) : State :=
  { (s.issued t f t.core) with cur := none, free := s.free + 1 }

/-- R198: the wait of a marked instruction, or of one that waits as though marked. -/
def State.waited (s : State) (fm : Form) (tid : Nat) (f : Frag) (word : Word) (fr : Nat) : State × Bool :=
  if fm.x.sw || fm.waits then s.marker tid f word fr fm.x.sw else (s, true)

/-- R255 steps 6 to 8, then the effect. -/
def State.perform (s : State) (i : Instr) (fm : Form) (tid fid fr : Nat) (body : Ctx → State → State) : State :=
  match s.team? tid with
  | none => s
  | some t =>
    match t.frag? fid with
    | none => s
    | some f =>
      match s.liveCause t f i with
      | some c => s.trapAll tid f (firstWord i) fr { cause := c }
      | none =>
        body { i := i, o := fm.x, lit := fm.spec.lit, core := t.core, team := t, frag := f, len := lenOf (firstWord i),
               word := firstWord i, free := fr } s

/-- The instruction for a fragment that is to issue. -/
def State.issueAt (s : State) (i : Instr) (t : Team) (f : Frag) (body : Ctx → State → State) : State :=
  match form i with
  | none => s
  | some fm =>
    match fieldCause i f.hm with
    | some c => (s.begun t f).trapAll t.id f (firstWord i) s.free { cause := c }
    | none =>
      let m := (s.begun t f).waited fm t.id f (firstWord i) s.free
      if m.2 then m.1.perform i fm t.id f.id s.free body else m.1

/-- One instruction row: the fragment selected by WAY_ISSUE_SELECT executes it. -/
def issue (i : Instr) (s : State) (body : Ctx → State → State) : Host.Outcome State Fault Refusal :=
  match s.cur with
  | none => .fault .noIssuer
  | some c =>
    match s.team? c.team with
    | none => .fault .noIssuer
    | some t =>
      match t.frag? c.frag with
      | none => .fault .noIssuer
      | some f => .next (sealStep s (s.quiet.issueAt i t f body))

/-- One event row: the effect, with the writes it performs. -/
def event (s : State) (f : State → State) : Host.Outcome State Fault Refusal :=
  .next (sealMem s (f { s with out := [], free := s.free + 1 }))

/-- R484: a register access, which has no effect before the module is READY. -/
def regEvent (s : State) (f : State → State) : Host.Outcome State Fault Refusal :=
  event s (fun s => if s.hub.phase = 3 then f s else s)

/-- R51: an access to the register page of a VI, of which there are 64. -/
def viEvent (vi : Nat) (s : State) (f : State → State) : Host.Outcome State Fault Refusal :=
  regEvent s (fun s => if vi < 64 then f s else s)

end Sys2Proof.Machine
end

