-- ==== Sys2Proof/Machine/Operands.lean ====
section
/-! DEFINITION. The operand forms: a source read in a lane as a vector register, a scalar, a neighbour
or a literal, destinations by width, and the shapes of instruction that write one result per lane,
per predicate or per scalar (R195, R254, R257, R258, R296 to R299, R319). -/

namespace Sys2Proof.Machine

/-- R257: one register, or a pair with the low half in the first. -/
def Group.val (g : Group) (fr n r l : Nat) : Dword :=
  if n = 2 then g.readReg fr (r + 1) l ++ g.readReg fr r l else (g.readReg fr r l).setWidth 64

/-- R257: one scalar register, or a pair. -/
def Group.sval (g : Group) (fr n r : Nat) : Dword :=
  if n = 2 then g.readScal fr (r + 1) ++ g.readScal fr r else (g.readScal fr r).setWidth 64

/-- R195: what the lane in a column supplies, where it is present and active. -/
def Ctx.columnVal (c : Ctx) (n r l : Nat) : Option Dword :=
  match c.column l with
  | some gc => if bit gc.act l then some (gc.g.val c.free n r l) else none
  | none => none

/-- R195: a neighbour operand, to the left or to the right of a lane, under the edge mode. -/
def Ctx.neighbour (c : Ctx) (gc : GCtx) (left : Bool) (n r l : Nat) : Dword :=
  let own := gc.g.val c.free n r l
  let outside := if left then l == 0 else l == 31
  let col := if left then (l + 31) % 32 else (l + 1) % 32
  match c.o.edge with
  | .zero => if outside then 0 else (c.columnVal n r col).getD 0
  | .clamp => if outside then own else (c.columnVal n r col).getD own
  | .wrap => (c.columnVal n r col).getD own

/-- R258, R296: a source field of a kind, read in a lane; `n` is its width in registers. -/
def Ctx.val (c : Ctx) (gc : GCtx) (k : Kind) (f : BitVec 8) (n l : Nat) : Dword :=
  match k with
  | .vec => gc.g.val c.free n f.toNat l
  | .scal => gc.g.sval c.free n f.toNat
  | .left => c.neighbour gc true n f.toNat l
  | .right => c.neighbour gc false n f.toNat l

/-- R254: the literal, where the instruction carries one in this place. -/
def Ctx.litAt (c : Ctx) (p : LitPos) : Option Dword := if c.lit = p then c.o.lit else none

def Ctx.srcA (c : Ctx) (gc : GCtx) (n l : Nat) : Dword :=
  match c.litAt .a with
  | some v => v
  | none => c.val gc c.o.ka c.o.a n l
def Ctx.srcB (c : Ctx) (gc : GCtx) (n l : Nat) : Dword :=
  match c.litAt .b with
  | some v => v
  | none => c.val gc c.o.kb c.o.b n l
def Ctx.srcC (c : Ctx) (gc : GCtx) (n l : Nat) : Dword :=
  match c.litAt .c with
  | some v => v
  | none => c.val gc c.o.kc c.o.c n l

/-- R319: a scalar source of a scalar instruction. -/
def Ctx.sA (c : Ctx) (gc : GCtx) (n : Nat) : Dword :=
  match c.litAt .a with
  | some v => v
  | none => gc.g.sval c.free n c.o.a.toNat
def Ctx.sB (c : Ctx) (gc : GCtx) (n : Nat) : Dword :=
  match c.litAt .b with
  | some v => v
  | none => gc.g.sval c.free n c.o.b.toNat
def Ctx.sC (c : Ctx) (gc : GCtx) (n : Nat) : Dword :=
  match c.litAt .c with
  | some v => v
  | none => gc.g.sval c.free n c.o.c.toNat

/-- R257: the words of a result, by register. -/
def destWords (d n : Nat) (v : Dword) : List (Nat × Word) :=
  if n = 2 then [(d, v.setWidth 32), (d + 1, (v >>> 32).setWidth 32)] else [(d, v.setWidth 32)]

/-- Register writes of a lane. -/
def Group.writeLane (g : Group) (fr l : Nat) (ws : List (Nat × Word)) : Group :=
  ws.foldl (fun g w => g.writeReg fr w.1 l w.2) g

/-- The results of an instruction for a home group: words by lane. -/
abbrev LaneWrites := List (Nat × List (Nat × Word))

/-- A short-class result written in its lanes. -/
def Group.writeLanes (g : Group) (fr : Nat) (ws : LaneWrites) : Group :=
  ws.foldl (fun g w => g.writeLane fr w.1 w.2) g

/-- Lane results keyed `32 * register + lane`, as `Pend` holds them. -/
def keyed (ws : LaneWrites) : List (Nat × Word) :=
  ws.foldl (fun l w => w.2.foldl (fun l e => kset (32 * e.1 + w.1) e.2 l) l) []

/-- R196: a long-class result, pending until the next marker. -/
def Group.addPend (g : Group) (ws : LaneWrites) : Group :=
  if ws.isEmpty then g else { g with pend := g.pend ++ [{ regs := keyed ws }] }

/-- The active lanes of a group each with a result of `n` registers at D. -/
def Ctx.results (c : Ctx) (gc : GCtx) (n : Nat) (f : Nat → Dword) : LaneWrites :=
  (lanesOf gc.act).map (fun l => (l, destWords c.o.d.toNat n (f l)))

/-- A short-class instruction that writes `n` registers at D in every active lane. -/
def Ctx.perLane (c : Ctx) (n : Nat) (f : GCtx → Nat → Dword) (s : State) : State :=
  c.runGroups (fun gc s => c.okNext (c.results gc n (f gc)) s)
    (c.mapGroups (fun _ ws g => g.writeLanes c.free ws)) s

/-- A long-class instruction that writes `n` registers at D in every active lane. -/
def Ctx.perLaneLong (c : Ctx) (n : Nat) (f : GCtx → Nat → Dword) (s : State) : State :=
  c.runGroups (fun gc s => c.okNext (c.results gc n (f gc)) s)
    (c.mapGroups (fun _ ws g => g.addPend ws)) s

/-- R297: an instruction that writes predicate D in every active lane. -/
def Ctx.perPred (c : Ctx) (f : GCtx → Nat → Bool) (s : State) : State :=
  c.runGroups (fun gc s => c.okNext (maskOf (fun l => bit gc.act l && f gc l)) s)
    (c.mapGroups (fun gc m g => g.writePred c.free (fld c.o.d 0 3) gc.act m)) s

/-- R319: a scalar instruction, performed once for each home group with an active lane. -/
def Ctx.perScal (c : Ctx) (n : Nat) (f : GCtx → Dword) (s : State) : State :=
  c.runGroups (fun _ s => c.okNext () s)
    (c.mapGroups (fun gc _ g =>
      if gc.act = 0 then g
      else (destWords c.o.d.toNat n (f gc)).foldl (fun g w => g.writeScal c.free w.1 w.2) g)) s

end Sys2Proof.Machine
end

