-- ==== Sys2Proof/Machine/Flags.lean ====
section
/-! DEFINITION. The format register and the arithmetic exceptions: the fields of `fmt`, the five
exceptions in the order of its bits [8:4], and ARITH_TRAP (R283 to R285). -/

namespace Sys2Proof.Machine

/-- R283: rounding modes. -/
inductive RM where
  | rne | rtz | rdn | rup
  deriving DecidableEq, Repr

/-- R283: `fmt.RM`. -/
def fmtRM (f : Word) : RM :=
  match fld f 0 2 with | 0 => .rne | 1 => .rtz | 2 => .rdn | _ => .rup
/-- R283: `fmt.FTZ`. -/
def fmtFTZ (f : Word) : Bool := bit f 2
/-- R283: `fmt.SAT`. -/
def fmtSAT (f : Word) : Bool := bit f 3
/-- R283: `fmt` bits [31:9] are reserved. -/
def fmtReserved (f : Word) : Bool := fld f 9 23 != 0

/-- R285: the exceptions, bit i for `fmt` bit 4 + i. -/
abbrev Exc := BitVec 5
def excNone : Exc := 0
def excInvalid : Exc := 1
def excDivZero : Exc := 2
def excOverflow : Exc := 4
def excUnderflow : Exc := 8
def excInexact : Exc := 16

/-- R283: the exceptions whose trap is enabled. -/
def fmtEnabled (f : Word) : Exc := BitVec.ofNat 5 (fld f 4 5)

/-- R285, R456: ARITH_TRAP of a home group, where some active lane raised an enabled exception. -/
def arithTrap (fmt : Word) (xs : List (Nat × Exc)) : Option Trap :=
  let m := maskOf (fun l => xs.any (fun x => x.1 == l && (x.2 &&& fmtEnabled fmt) != 0))
  if m = 0 then none
  else some { cause := .arithTrap, mask0 := m, detail := (xs.foldl (fun e x => e ||| x.2) excNone).toNat }

/-- The active lanes of a home group each with a value and its exceptions. -/
def Ctx.fLanes {α : Type} (gc : GCtx) (f : Nat → α × Exc) : List (Nat × α × Exc) :=
  (lanesOf gc.act).map (fun l => (l, f l))

/-- R285, R300: the check of a floating instruction: ARITH_TRAP before any lane writes. -/
def Ctx.fCheck {α : Type} (c : Ctx) (gc : GCtx) (f : Nat → α × Exc) (s : State) :
    GRes (List (Nat × α)) × State :=
  let r := Ctx.fLanes gc f
  match arithTrap c.frag.fmt (r.map (fun e => (e.1, e.2.2))) with
  | some t => (.trap t, s)
  | none => (.ok (r.map (fun e => (e.1, e.2.1))) c.next, s)

/-- A short-class floating instruction writing one register at D in every active lane. -/
def Ctx.perLaneF (c : Ctx) (f : GCtx → Nat → Word × Exc) (s : State) : State :=
  c.runGroups (fun gc s => c.fCheck gc (f gc) s)
    (c.mapGroups (fun _ ws g => g.writeLanes c.free (ws.map (fun w => (w.1, [(c.o.d.toNat, w.2)]))))) s

/-- A long-class floating instruction writing one register at D in every active lane. -/
def Ctx.perLaneFLong (c : Ctx) (f : GCtx → Nat → Word × Exc) (s : State) : State :=
  c.runGroups (fun gc s => c.fCheck gc (f gc) s)
    (c.mapGroups (fun _ ws g => g.addPend (ws.map (fun w => (w.1, [(c.o.d.toNat, w.2)]))))) s

/-- A floating comparison writing predicate D in every active lane. -/
def Ctx.perPredF (c : Ctx) (f : GCtx → Nat → Bool × Exc) (s : State) : State :=
  c.runGroups (fun gc s => c.fCheck gc (f gc) s)
    (c.mapGroups (fun gc ws g => g.writePred c.free (fld c.o.d 0 3) gc.act
      (maskOf (fun l => ws.any (fun w => w.1 == l && w.2))))) s

end Sys2Proof.Machine
end

