-- ==== Sys2Proof/Machine/Float.lean ====
section
/-! DEFINITION. Floating-point numbers: the five formats, decoding and encoding, exact values, the one
rounding of R286, arithmetic as the exact value rounded once, correctly rounded square roots and
transcendentals, and the conversions (R280 to R288, R308 to R313). -/

namespace Sys2Proof.Machine

/-- R280: a floating format: mantissa and exponent bits, the exponent of the smallest normal, the largest
finite value as `lm * 2 ^ le`, whether it has infinities, and whether its all-ones exponent holds
normal numbers. -/
structure FFmt where
  mb : Nat
  eb : Nat
  emin : Int
  lm : Nat
  le : Int
  inf : Bool
  canon : Nat
  deriving DecidableEq, Repr

def fF32 : FFmt := { mb := 23, eb := 8, emin := -126, lm := 2 ^ 24 - 1, le := 104, inf := true, canon := 0x7FC00000 }
def fF16 : FFmt := { mb := 10, eb := 5, emin := -14, lm := 2 ^ 11 - 1, le := 5, inf := true, canon := 0x7E00 }
def fBF16 : FFmt := { mb := 7, eb := 8, emin := -126, lm := 2 ^ 8 - 1, le := 120, inf := true, canon := 0x7FC0 }
def fE4M3 : FFmt := { mb := 3, eb := 4, emin := -6, lm := 14, le := 5, inf := false, canon := 0x7F }
def fE5M2 : FFmt := { mb := 2, eb := 5, emin := -14, lm := 7, le := 13, inf := true, canon := 0x7E }

/-- R260: the format of a floating type. -/
def fFmtOf : Ty → Option FFmt
  | .f32 => some fF32 | .f16 => some fF16 | .bf16 => some fBF16 | .e4m3 => some fE4M3
  | .e5m2 => some fE5M2 | _ => none

/-- R287: what bits encode: NaN, an infinity, or `(-1) ^ neg * m * 2 ^ e`. -/
inductive FVal where
  | nan
  | inf (neg : Bool)
  | fin (neg : Bool) (m : Nat) (e : Int)
  deriving DecidableEq, Repr

def FFmt.width (f : FFmt) : Nat := f.mb + f.eb + 1
/-- The exponent of the unit of the subnormals. -/
def FFmt.esub (f : FFmt) : Int := f.emin - (f.mb : Int)

/-- R287: `Dec`. -/
def FFmt.dec (f : FFmt) (bits : Nat) : FVal :=
  let neg := bits / 2 ^ (f.mb + f.eb) % 2 == 1
  let ex := bits / 2 ^ f.mb % 2 ^ f.eb
  let m := bits % 2 ^ f.mb
  if ex = 2 ^ f.eb - 1 ∧ f.inf then (if m = 0 then .inf neg else .nan)
  else if ex = 2 ^ f.eb - 1 ∧ m = 2 ^ f.mb - 1 then .nan
  else if ex = 0 then .fin neg m f.esub
  else .fin neg (m + 2 ^ f.mb) (f.esub + (ex - 1 : Nat))

/-- The number of binary digits of a natural. -/
def bitLen (n : Nat) : Nat := if n = 0 then 0 else Nat.log2 n + 1

/-- An integer power of two times a natural compared: `a * 2 ^ x < b * 2 ^ y`. -/
def ltScaled (a : Nat) (x : Int) (b : Nat) (y : Int) : Bool :=
  if x ≤ y then decide (a < b * 2 ^ (y - x).toNat) else decide (a * 2 ^ (x - y).toNat < b)

/-- Whether a magnitude with a remainder goes up by a rounding mode: `lo` is the last bit kept, the
remainder compared with half: less, equal, more. -/
def roundsUp (rm : RM) (neg odd : Bool) (rem half : Nat) : Bool :=
  match rm with
  | .rne => decide (half < rem) || (decide (rem = half) && odd)
  | .rtz => false
  | .rdn => neg && decide (rem ≠ 0)
  | .rup => !neg && decide (rem ≠ 0)

/-- A magnitude `m * 2 ^ e` rounded to a multiple of `2 ^ q`: the multiple, and whether it is inexact. -/
def roundTo (rm : RM) (neg : Bool) (m : Nat) (e q : Int) : Nat × Bool :=
  if q ≤ e then (m * 2 ^ (e - q).toNat, false)
  else
    let sh := (q - e).toNat
    let hi := m / 2 ^ sh
    let rem := m % 2 ^ sh
    (if roundsUp rm neg (hi % 2 == 1) (2 * rem) (2 ^ sh) then hi + 1 else hi, decide (rem ≠ 0))

/-- R287: `Enc` of a finite magnitude `m * 2 ^ e` that the format holds. -/
def FFmt.enc (f : FFmt) (neg : Bool) (m : Nat) (e : Int) : Nat :=
  let s := if neg then 2 ^ (f.mb + f.eb) else 0
  if m = 0 then s
  else
    let top : Int := (bitLen m : Int) - 1 + e
    if top < f.emin then s + m * 2 ^ (e - f.esub).toNat
    else
      let n := bitLen m - 1
      let frac := if n ≤ f.mb then m * 2 ^ (f.mb - n) else m / 2 ^ (n - f.mb)
      s + ((top - f.emin + 1).toNat * 2 ^ f.mb) + (frac - 2 ^ f.mb)

/-- R280: an infinity; in E4M3, which has none, the canonical NaN (R286). -/
def FFmt.infBits (f : FFmt) (neg : Bool) : Nat :=
  if f.inf then (if neg then 2 ^ (f.mb + f.eb) else 0) + (2 ^ f.eb - 1) * 2 ^ f.mb else f.canon

/-- R280: the largest finite value of a sign. -/
def FFmt.maxBits (f : FFmt) (neg : Bool) : Nat := f.enc neg f.lm f.le

/-- R280: FP32, FP16 and BF16, which FTZ affects (R286). -/
def FFmt.flushes (f : FFmt) : Bool := decide (f.width ≠ 8)

/-- R286: `Round`, with the exceptions of R285.  `ftz` replaces a subnormal result by a zero of its sign. -/
def FFmt.round (f : FFmt) (rm : RM) (sat ftz : Bool) (x : FVal) : Nat × Exc :=
  match x with
  | .nan => (f.canon, excNone)
  | .inf neg => if sat && decide (f.width = 8) then (f.maxBits neg, excNone) else (f.infBits neg, excNone)
  | .fin neg 0 _ => (f.enc neg 0 0, excNone)
  | .fin neg m e =>
    let q1 : Int := (bitLen m : Int) - 1 + e - (f.mb : Int)
    let r1 := roundTo rm neg m e q1
    let tiny := ltScaled r1.1 q1 1 f.emin
    let q := if tiny then f.esub else q1
    let r := if tiny then roundTo rm neg m e f.esub else r1
    if ltScaled f.lm f.le r.1 q then
      let toInf := match rm with | .rne => true | .rtz => false | .rdn => neg | .rup => !neg
      if sat && decide (f.width = 8) then (f.maxBits neg, excOverflow ||| excInexact)
      else if toInf then (f.infBits neg, excOverflow ||| excInexact)
      else (f.maxBits neg, excOverflow ||| excInexact)
    else
      let ex : Exc := if r.2 then (if tiny then excUnderflow ||| excInexact else excInexact) else excNone
      if ftz && f.flushes && r.1 != 0 && ltScaled r.1 q 1 f.emin then
        (f.enc neg 0 0, excUnderflow ||| excInexact)
      else (f.enc neg r.1 q, ex)

/-- R286: a subnormal operand under FTZ is a zero of its sign. -/
def FFmt.flushIn (f : FFmt) (ftz : Bool) (x : FVal) : FVal :=
  match x with
  | .fin neg m e => if ftz && f.flushes && ltScaled m e 1 f.emin then .fin neg 0 e else x
  | _ => x

/-- R287: an operand as a vector instruction takes it. -/
def FFmt.opnd (f : FFmt) (ftz : Bool) (bits : Nat) : FVal := f.flushIn ftz (f.dec (bits % 2 ^ f.width))

/-! ### Exact arithmetic -/

def FVal.neg : FVal → FVal
  | .nan => .nan
  | .inf s => .inf !s
  | .fin s m e => .fin (!s) m e

/-- An exact signed integer times a power of two, with the sign a zero sum takes (R286). -/
def finOf (rm : RM) (v : Int) (e : Int) : FVal :=
  if v = 0 then .fin (rm == .rdn) 0 e else .fin (decide (v < 0)) v.natAbs e

/-- The exact sum of two finite values. -/
def addFin (rm : RM) (s1 : Bool) (m1 : Nat) (e1 : Int) (s2 : Bool) (m2 : Nat) (e2 : Int) : FVal :=
  if m1 = 0 ∧ m2 = 0 then .fin (if s1 = s2 then s1 else rm == .rdn) 0 0
  else
    let e := min e1 e2
    let v1 : Int := (m1 * 2 ^ (e1 - e).toNat : Nat)
    let v2 : Int := (m2 * 2 ^ (e2 - e).toNat : Nat)
    finOf rm ((if s1 then -v1 else v1) + (if s2 then -v2 else v2)) e

/-- The exact sum; opposite infinities are invalid. -/
def FVal.add (rm : RM) (a b : FVal) : FVal × Exc :=
  match a, b with
  | .nan, _ => (.nan, excNone)
  | _, .nan => (.nan, excNone)
  | .inf s, .inf t => if s = t then (.inf s, excNone) else (.nan, excInvalid)
  | .inf s, .fin _ _ _ => (.inf s, excNone)
  | .fin _ _ _, .inf t => (.inf t, excNone)
  | .fin s1 m1 e1, .fin s2 m2 e2 => (addFin rm s1 m1 e1 s2 m2 e2, excNone)

/-- The exact product; an infinity times zero is invalid. -/
def FVal.mul (a b : FVal) : FVal × Exc :=
  match a, b with
  | .nan, _ => (.nan, excNone)
  | _, .nan => (.nan, excNone)
  | .inf s, .inf t => (.inf (s != t), excNone)
  | .inf s, .fin t m _ => if m = 0 then (.nan, excInvalid) else (.inf (s != t), excNone)
  | .fin t m _, .inf s => if m = 0 then (.nan, excInvalid) else (.inf (s != t), excNone)
  | .fin s1 m1 e1, .fin s2 m2 e2 => (.fin (s1 != s2) (m1 * m2) (e1 + e2), excNone)

/-- A quotient of naturals with enough digits to be rounded: the last bit says that digits follow. -/
def divDigits (a b : Nat) : Nat × Nat :=
  let k := 72 + bitLen b
  let n := a * 2 ^ k
  (2 * (n / b) + (if n % b = 0 then 0 else 1), k + 1)

/-- The exact quotient, for the rounding that follows (R308). -/
def FVal.div (a b : FVal) : FVal × Exc :=
  match a, b with
  | .nan, _ => (.nan, excNone)
  | _, .nan => (.nan, excNone)
  | .inf _, .inf _ => (.nan, excInvalid)
  | .inf s, .fin t _ _ => (.inf (s != t), excNone)
  | .fin s _ _, .inf t => (.fin (s != t) 0 0, excNone)
  | .fin s m1 e1, .fin t m2 e2 =>
    if m2 = 0 then (if m1 = 0 then (.nan, excInvalid) else (.inf (s != t), excDivZero))
    else if m1 = 0 then (.fin (s != t) 0 0, excNone)
    else
      let d := divDigits m1 m2
      (.fin (s != t) d.1 (e1 - e2 - (d.2 : Int)), excNone)

/-- The integer square root, bit by bit from bit `k`. -/
def isqrtAux (n : Nat) : Nat → Nat → Nat
  | 0, r => r
  | k + 1, r =>
    let t := r + 2 ^ k
    isqrtAux n k (if t * t ≤ n then t else r)

/-- `⌊√n⌋`. -/
def isqrt (n : Nat) : Nat := isqrtAux n (bitLen n / 2 + 1) 0

/-- R308: `√a`. -/
def FVal.sqrt (a : FVal) : FVal × Exc :=
  match a with
  | .nan => (.nan, excNone)
  | .inf s => if s then (.nan, excInvalid) else (.inf false, excNone)
  | .fin s m e =>
    if m = 0 then (.fin s 0 0, excNone)
    else if s then (.nan, excInvalid)
    else
      let m2 := if e % 2 = 0 then m else 2 * m
      let e2 := if e % 2 = 0 then e else e - 1
      let n := m2 * 2 ^ 128
      let r := isqrt n
      (.fin false (2 * r + (if r * r = n then 0 else 1)) (e2 / 2 - 65), excNone)

/-- R308: `1 / √a`. -/
def FVal.rsqrt (a : FVal) : FVal × Exc :=
  match a with
  | .nan => (.nan, excNone)
  | .inf s => if s then (.nan, excInvalid) else (.fin false 0 0, excNone)
  | .fin s m e =>
    if m = 0 then (.inf s, excDivZero)
    else if s then (.nan, excInvalid)
    else
      let m2 := if e % 2 = 0 then m else 2 * m
      let e2 := if e % 2 = 0 then e else e - 1
      let k := 64 + bitLen m2
      let n := 2 ^ (2 * k)
      let r := isqrt (n / m2)
      (.fin false (2 * r + (if r * r * m2 = n then 0 else 1)) (-(e2 / 2) - (k : Int) - 1), excNone)

/-! ### Transcendentals: fixed-point series with far more digits than any result needs -/

/-- `π / 2` with 512 binary places. -/
def halfPi : Nat :=
  0x1921fb54442d18469898cc51701b839a252049c1114cf98e804177d4c76273644a29410f31c6809bbdf2a33679a748636605614dbe4be286e9fc26adadaa3848b
/-- `ln 2` with 320 binary places. -/
def ln2Fix : Nat := 0xb17217f7d1cf79abc9e3b39803f2f6af40f343267298b62d8a0d175b8baafa2be7b876206debac98

/-- The exponential series of `x * 2 ^ -w`, from term `k`. -/
def expSeries (w x : Nat) : Nat → Nat → Nat → Nat
  | 0, _, _ => 0
  | f + 1, k, t => t + expSeries w x f (k + 1) (t * x / 2 ^ w / (k + 1))

/-- R308: `2 ^ a`. -/
def FVal.exp2 (a : FVal) : FVal × Exc :=
  match a with
  | .nan => (.nan, excNone)
  | .inf s => if s then (.fin false 0 0, excNone) else (.inf false, excNone)
  | .fin s m e =>
    if m = 0 then (.fin false 1 0, excNone)
    else if ltScaled 1023 0 m e then (.fin false (2 ^ 80 + 1) (if s then -1200 else 1000), excNone)
    else
      -- `a` with 320 binary places, as an integer part and a fraction
      let x : Nat := if 0 ≤ e + 320 then m * 2 ^ (e + 320).toNat else m / 2 ^ (-(e + 320)).toNat
      let ip : Nat := x / 2 ^ 320
      let fp : Nat := x % 2 ^ 320
      let n : Int := if s then (if fp = 0 then -(ip : Int) else -(ip : Int) - 1) else (ip : Int)
      let fr := if s then (if fp = 0 then 0 else 2 ^ 320 - fp) else fp
      if fr = 0 then (.fin false 1 n, excNone)
      else
        let y := fr * ln2Fix / 2 ^ 320
        let v := expSeries 320 y 90 0 (2 ^ 320)
        (.fin false (2 * v + 1) (n - 321), excNone)

/-- `z + z ^ 3 / 3 + z ^ 5 / 5 + …` for `z * 2 ^ -w`, from the odd power `k`. -/
def atanhSeries (w z2 : Nat) : Nat → Nat → Nat → Nat
  | 0, _, _ => 0
  | f + 1, k, t => t / k + atanhSeries w z2 f (k + 2) (t * z2 / 2 ^ w)

/-- R308: `log2 a`. -/
def FVal.log2 (a : FVal) : FVal × Exc :=
  match a with
  | .nan => (.nan, excNone)
  | .inf s => if s then (.nan, excInvalid) else (.inf false, excNone)
  | .fin s m e =>
    if m = 0 then (.inf true, excDivZero)
    else if s then (.nan, excInvalid)
    else
      let k := bitLen m - 1
      let n : Int := e + (k : Int)
      if m = 2 ^ k then (.fin (decide (n < 0)) n.natAbs 0, excNone)
      else
        let z : Nat := (m - 2 ^ k) * 2 ^ 320 / (m + 2 ^ k)
        let z2 := z * z / 2 ^ 320
        let l : Nat := 2 * atanhSeries 320 z2 220 1 z * 2 ^ 320 / ln2Fix
        let v : Int := n * ((2 ^ 320 : Nat) : Int) + (l : Int)
        (.fin (decide (v < 0)) (2 * v.natAbs + 1) (-321), excNone)

/-- The alternating series of the sine or cosine of `x * 2 ^ -w`: `t` is the term for the power `k`. -/
def trigSeries (w x2 : Nat) : Nat → Nat → Nat → Int
  | 0, _, _ => 0
  | f + 1, k, t => (t : Int) - trigSeries w x2 f (k + 2) (t * x2 / 2 ^ w / ((k + 1) * (k + 2)))

/-- The quadrant and the remainder of a magnitude, with 512 binary places. -/
def trigReduce (m : Nat) (e : Int) : Nat × Nat :=
  let x := m * 2 ^ (e + 512).toNat
  (x / halfPi % 4, x % halfPi)

/-- `sin` or `cos` of the remainder in a quadrant: negative, magnitude with 512 places. -/
def trigAt (quad r : Nat) : Bool × Nat :=
  let x2 := r * r / 2 ^ 512
  let sn := (trigSeries 512 x2 100 1 r).toNat
  let cs := (trigSeries 512 x2 100 0 (2 ^ 512)).toNat
  match quad with
  | 0 => (false, sn)
  | 1 => (false, cs)
  | 2 => (true, sn)
  | _ => (true, cs)

/-- R308: `sin a`, a in radians. -/
def FVal.sin (a : FVal) : FVal × Exc :=
  match a with
  | .nan => (.nan, excNone)
  | .inf _ => (.nan, excInvalid)
  | .fin s m e =>
    if m = 0 then (.fin s 0 0, excNone)
    else
      let q := trigReduce m e
      let v := trigAt q.1 q.2
      (.fin (s != v.1) (2 * v.2 + 1) (-513), excNone)

/-- R308: `cos a`, a in radians. -/
def FVal.cos (a : FVal) : FVal × Exc :=
  match a with
  | .nan => (.nan, excNone)
  | .inf _ => (.nan, excInvalid)
  | .fin _ m e =>
    if m = 0 then (.fin false 1 0, excNone)
    else
      let q := trigReduce m e
      let v := trigAt ((q.1 + 1) % 4) q.2
      (.fin v.1 (2 * v.2 + 1) (-513), excNone)

/-- R308: rounded to an integral value; inexact when the result differs. -/
def FVal.integral (rm : RM) (a : FVal) : FVal × Exc :=
  match a with
  | .fin s m e =>
    let r := roundTo rm s m e 0
    if 0 ≤ e then (a, excNone) else (.fin s r.1 0, if r.2 then excInexact else excNone)
  | _ => (a, excNone)

/-! ### The floating instructions -/

/-- What the rounding of an instruction takes from `fmt` (R284). -/
structure FEnv where
  rm : RM
  ftz : Bool
  sat : Bool
  deriving DecidableEq, Repr

/-- R284: the environment of a fragment. -/
def fEnv (fmt : Word) : FEnv := { rm := fmtRM fmt, ftz := fmtFTZ fmt, sat := fmtSAT fmt }
/-- R284: RNE, no flush: matrix strands, atomics, accumulator instructions. -/
def fEnvEngine : FEnv := { rm := .rne, ftz := false, sat := false }

/-- An exact value with its exceptions, rounded once in a format (R308). -/
def FFmt.finish (f : FFmt) (v : FEnv) (x : FVal × Exc) : Nat × Exc :=
  let r := f.round v.rm false v.ftz x.1
  (r.1, x.2 ||| r.2)

def FFmt.add (f : FFmt) (v : FEnv) (a b : Nat) : Nat × Exc :=
  f.finish v ((f.opnd v.ftz a).add v.rm (f.opnd v.ftz b))
def FFmt.sub (f : FFmt) (v : FEnv) (a b : Nat) : Nat × Exc :=
  f.finish v ((f.opnd v.ftz a).add v.rm (f.opnd v.ftz b).neg)
def FFmt.mul (f : FFmt) (v : FEnv) (a b : Nat) : Nat × Exc :=
  f.finish v ((f.opnd v.ftz a).mul (f.opnd v.ftz b))
def FFmt.fma (f : FFmt) (v : FEnv) (a b c : Nat) : Nat × Exc :=
  let p := (f.opnd v.ftz a).mul (f.opnd v.ftz b)
  let z := f.opnd v.ftz c
  if z = .nan then (f.canon, excNone)
  else
    let r := p.1.add v.rm z
    f.finish v (r.1, p.2 ||| r.2)
def FFmt.div (f : FFmt) (v : FEnv) (a b : Nat) : Nat × Exc :=
  f.finish v ((f.opnd v.ftz a).div (f.opnd v.ftz b))
/-- An instruction of one operand. -/
def FFmt.un (f : FFmt) (v : FEnv) (g : FVal → FVal × Exc) (a : Nat) : Nat × Exc :=
  f.finish v (g (f.opnd v.ftz a))

/-- The order of two operands that are not NaN: less, equal or more; zeros are equal. -/
def FVal.cmp (a b : FVal) : Ordering :=
  match a, b with
  | .inf s, .inf t => if s = t then .eq else if s then .lt else .gt
  | .inf s, _ => if s then .lt else .gt
  | _, .inf t => if t then .gt else .lt
  | .fin s1 m1 e1, .fin s2 m2 e2 =>
    let e := min e1 e2
    let v1 : Int := (m1 * 2 ^ (e1 - e).toNat : Nat)
    let v2 : Int := (m2 * 2 ^ (e2 - e).toNat : Nat)
    compare (if s1 then -v1 else v1) (if s2 then -v2 else v2)
  | _, _ => .eq

/-- Whether a value is negative by its sign bit. -/
def FVal.isNeg : FVal → Bool
  | .nan => false
  | .inf s => s
  | .fin s _ _ => s

/-- R309: `FMIN` (and, with `mx`, `FMAX`): -0 ranks below +0, a NaN yields to the other operand. -/
def FFmt.minmax (f : FFmt) (ftz mx : Bool) (a b : Nat) : Nat :=
  let x := f.opnd ftz a
  let y := f.opnd ftz b
  let deliver (bits : Nat) (v : FVal) : Nat :=
    match v with
    | .fin s 0 _ => f.enc s 0 0
    | _ => bits % 2 ^ f.width
  if x = .nan then (if y = .nan then f.canon else deliver b y)
  else if y = .nan then deliver a x
  else
    let less := match x.cmp y with
      | .lt => true
      | .eq => x.isNeg
      | .gt => false
    if less != mx then deliver a x else deliver b y

/-- R309: `FCMP`. -/
def FFmt.fcmp (f : FFmt) (ftz : Bool) (cc : FCc) (a b : Nat) : Bool × Exc :=
  let x := f.opnd ftz a
  let y := f.opnd ftz b
  let uno := decide (x = .nan) || decide (y = .nan)
  let o := x.cmp y
  match cc with
  | .ord => (!uno, excNone)
  | .uno => (uno, excNone)
  | .eq => (!uno && o == .eq, excNone)
  | .ne => (uno || o != .eq, excNone)
  | .lt => if uno then (false, excInvalid) else (o == .lt, excNone)
  | .le => if uno then (false, excInvalid) else (o != .gt, excNone)
  | .gt => if uno then (false, excInvalid) else (o == .gt, excNone)
  | .ge => if uno then (false, excInvalid) else (o != .lt, excNone)

/-- R310: `FCLASS`. -/
def fclassBits (bits : Nat) : Nat :=
  match fF32.dec (bits % 2 ^ 32) with
  | .nan => 2 ^ 8
  | .inf s => if s then 1 else 2 ^ 7
  | .fin s m e =>
    if m = 0 then (if s then 2 ^ 3 else 2 ^ 4)
    else if ltScaled m e 1 fF32.emin then (if s then 2 ^ 2 else 2 ^ 5)
    else if s then 2 ^ 1 else 2 ^ 6

/-! ### Conversions (R288, R312) -/

/-- R298: the width and signedness of an integer type. -/
def intTy : Ty → Nat × Bool
  | .s8 => (8, true) | .s16 => (16, true) | .s32 => (32, true) | .s64 => (64, true)
  | .n8 => (8, false) | .n16 => (16, false) | .n32 => (32, false) | .n64 => (64, false)
  | _ => (32, false)

/-- The value of an integer of a type. -/
def intVal (t : Ty) (x : Nat) : Int :=
  let w := intTy t
  if w.2 then sval w.1 x else ((x % 2 ^ w.1 : Nat) : Int)

/-- R287: `Sat` of a value to the range of an integer type, as bits; whether it was outside. -/
def intSat (t : Ty) (v : Int) : Nat × Bool :=
  let w := intTy t
  let lo : Int := if w.2 then -((2 ^ (w.1 - 1) : Nat) : Int) else 0
  let hi : Int := if w.2 then ((2 ^ (w.1 - 1) : Nat) : Int) - 1 else ((2 ^ w.1 : Nat) : Int) - 1
  if v < lo then (wrapInt w.1 lo, true) else if hi < v then (wrapInt w.1 hi, true) else (wrapInt w.1 v, false)

/-- R288, R312: `CVT` of one element between two types. -/
def cvtElem (v : FEnv) (src dst : Ty) (x : Nat) : Nat × Exc :=
  match fFmtOf src, fFmtOf dst with
  | none, none => ((intSat dst (intVal src x)).1, excNone)
  | none, some f =>
    let n := intVal src x
    f.round v.rm (v.sat && decide (f.width = 8)) v.ftz (.fin (decide (n < 0)) n.natAbs 0)
  | some g, none =>
    match g.opnd v.ftz x with
    | .nan => (0, excInvalid)
    | .inf s =>
      let w := intTy dst
      ((intSat dst (if s then -((2 ^ w.1 : Nat) : Int) else ((2 ^ w.1 : Nat) : Int))).1, excInvalid)
    | .fin s m e =>
      let r := roundTo v.rm s m e 0
      let n := intSat dst (if s then -(r.1 : Int) else (r.1 : Int))
      (n.1, if n.2 then excInvalid else if r.2 then excInexact else excNone)
  | some g, some f =>
    let a := g.opnd v.ftz x
    let r := f.round v.rm (v.sat && decide (f.width = 8)) v.ftz a
    match a with
    | .inf _ => if f.width = 8 ∧ (v.sat ∨ f.inf = false) then (r.1, excInvalid) else r
    | _ => r

end Sys2Proof.Machine
end

