-- ==== Sys2Proof/Machine/Integer.lean ====
section
/-! DEFINITION. Integer and address instructions, moves between lanes and registers (R298, R301 to
R307, R314). -/

namespace Sys2Proof.Machine

/-- R298: the width of an integer type; 32 for the raw type. -/
def tyWidth : Ty → Nat
  | .s8 => 8 | .n8 => 8 | .s16 => 16 | .n16 => 16 | .s64 => 64 | .n64 => 64 | _ => 32

/-- R279: signed types. -/
def tySigned : Ty → Bool
  | .s8 => true | .s16 => true | .s32 => true | .s64 => true | _ => false

/-- R298: the number an operand's bits stand for in a type, signed or unsigned. -/
def tyVal (t : Ty) (x : Dword) : Int :=
  if tySigned t then sval (tyWidth t) x.toNat else ((x.toNat % 2 ^ tyWidth t : Nat) : Int)

/-- R298: a result of the type's width as it is written: narrow results extended to 32 bits. -/
def tyExt (t : Ty) (x : Nat) : Dword :=
  let w := tyWidth t
  let y := x % 2 ^ w
  if tySigned t && decide (2 ^ (w - 1) ≤ y) then w64 (y + 2 ^ 64 - 2 ^ w) else w64 y

/-- R301: a wrapped integer result. -/
def tyWrap (t : Ty) (x : Int) : Dword := tyExt t (wrapInt (tyWidth t) x)

/-- R301: an instruction of two sources and one result, by the type's numbers. -/
def Ctx.int2 (c : Ctx) (f : Ty → Dword → Dword → Dword) (s : State) : State :=
  let n := tyRegs c.o.ty
  c.perLane n (fun gc l => f c.o.ty (c.srcA gc n l) (c.srcB gc n l)) s

/-- R301: an instruction of one source. -/
def Ctx.int1 (c : Ctx) (f : Ty → Dword → Dword) (s : State) : State :=
  let n := tyRegs c.o.ty
  c.perLane n (fun gc l => f c.o.ty (c.srcA gc n l)) s

/-- R301: an instruction of three sources. -/
def Ctx.int3 (c : Ctx) (f : Ty → Dword → Dword → Dword → Dword) (s : State) : State :=
  let n := tyRegs c.o.ty
  c.perLane n (fun gc l => f c.o.ty (c.srcA gc n l) (c.srcB gc n l) (c.srcC gc n l)) s

/-- R301: `IADD`. -/
def iaddVal (t : Ty) (a b : Dword) : Dword := tyWrap t (tyVal t a + tyVal t b)
/-- R301: `ISUB`. -/
def isubVal (t : Ty) (a b : Dword) : Dword := tyWrap t (tyVal t a - tyVal t b)
/-- R301: `IMUL`. -/
def imulVal (t : Ty) (a b : Dword) : Dword := tyWrap t (tyVal t a * tyVal t b)
/-- R302: `IMULH`. -/
def imulhVal (t : Ty) (a b : Dword) : Dword :=
  tyWrap t (tyVal t a * tyVal t b / ((2 ^ tyWidth t : Nat) : Int))
/-- R301: `IMAD`. -/
def imadVal (t : Ty) (a b x : Dword) : Dword := tyWrap t (tyVal t a * tyVal t b + tyVal t x)
/-- R301: `IMADW`. -/
def imadwVal (t : Ty) (a b x : Dword) : Dword :=
  BitVec.ofInt 64 (tyVal t a * tyVal t b) + x
/-- R303: `IDIV`. -/
def idivVal (t : Ty) (a b : Dword) : Dword :=
  if tyVal t b = 0 then tyExt t (2 ^ tyWidth t - 1) else tyWrap t (Int.tdiv (tyVal t a) (tyVal t b))
/-- R301: `IMIN`. -/
def iminVal (t : Ty) (a b : Dword) : Dword := tyWrap t (if tyVal t a ≤ tyVal t b then tyVal t a else tyVal t b)
/-- R301: `IMAX`. -/
def imaxVal (t : Ty) (a b : Dword) : Dword := tyWrap t (if tyVal t a ≤ tyVal t b then tyVal t b else tyVal t a)
/-- R301: `IABS`; the most negative value gives itself. -/
def iabsVal (t : Ty) (a : Dword) : Dword := tyWrap t ((tyVal t a).natAbs : Int)
/-- R301: `INEG`. -/
def inegVal (t : Ty) (a : Dword) : Dword := tyWrap t (-(tyVal t a))
/-- R301: `NOT`. -/
def notVal (t : Ty) (a : Dword) : Dword := tyExt t (~~~a).toNat
/-- R301: `AND`. -/
def andVal (t : Ty) (a b : Dword) : Dword := tyExt t (a &&& b).toNat
/-- R301: `OR`. -/
def orVal (t : Ty) (a b : Dword) : Dword := tyExt t (a ||| b).toNat
/-- R301: `XOR`. -/
def xorVal (t : Ty) (a b : Dword) : Dword := tyExt t (a ^^^ b).toNat
/-- R301: `ANDN`. -/
def andnVal (t : Ty) (a b : Dword) : Dword := tyExt t (a &&& ~~~b).toNat
/-- R301: `POPC`. -/
def popcVal (t : Ty) (a : Dword) : Dword := w64 (popc (BitVec.ofNat (tyWidth t) a.toNat))
/-- R301: `CLZ`; the width for zero. -/
def clzVal (t : Ty) (a : Dword) : Dword :=
  let x := a.toNat % 2 ^ tyWidth t
  w64 (if x = 0 then tyWidth t else tyWidth t - 1 - Nat.log2 x)
/-- R301: `BREV`. -/
def brevVal (t : Ty) (a : Dword) : Dword :=
  w64 ((List.range (tyWidth t)).foldl (fun r i => r + b2n (bit a i) * 2 ^ (tyWidth t - 1 - i)) 0)

/-- R304: the shifts by a whole 32-bit amount. -/
def shlVal (t : Ty) (a : Dword) (k : Nat) : Dword :=
  tyExt t (if k < tyWidth t then a.toNat * 2 ^ k else 0)
def shrlVal (t : Ty) (a : Dword) (k : Nat) : Dword :=
  tyExt t (if k < tyWidth t then a.toNat % 2 ^ tyWidth t / 2 ^ k else 0)
def shraVal (t : Ty) (a : Dword) (k : Nat) : Dword :=
  tyExt t (wrapInt (tyWidth t) (sval (tyWidth t) a.toNat / ((2 ^ min k (tyWidth t) : Nat) : Int)))
def rotlVal (t : Ty) (a : Dword) (k : Nat) : Dword :=
  let w := tyWidth t
  let x := a.toNat % 2 ^ w
  tyExt t (x * 2 ^ (k % w) + x / 2 ^ (w - k % w))

/-- R304: a shift instruction; the amount is 32 bits. -/
def Ctx.shift (c : Ctx) (f : Ty → Dword → Nat → Dword) (s : State) : State :=
  let n := tyRegs c.o.ty
  c.perLane n (fun gc l => f c.o.ty (c.srcA gc n l) ((c.srcB gc 1 l).toNat % 2 ^ 32)) s

/-- R305: `BFX`. -/
def bfxVal (t : Ty) (a b x : Dword) : Dword :=
  let p := min (fld b 0 8) 32
  let n := min (fld x 0 8) 32
  let f := a.toNat % 2 ^ 32 / 2 ^ p % 2 ^ n
  if n = 0 then 0
  else if t = .s32 then w64 (wrapInt 32 (sval n f)) else w64 f
/-- R305: `BFI`. -/
def bfiVal (_ : Ty) (a b x : Dword) : Dword :=
  let p := min (fld x 0 8) 32
  let n := min (fld x 8 8) 32
  let m : Word := w32 ((2 ^ n - 1) * 2 ^ p)
  ((a.setWidth 32 &&& ~~~m) ||| (w32 (b.toNat % 2 ^ 32 * 2 ^ p) &&& m)).setWidth 64

/-- R306: the conditions of a comparison. -/
def ccHolds (cc : Cc) (a b : Int) : Bool :=
  match cc with
  | .eq => decide (a = b) | .ne => decide (a ≠ b) | .lt => decide (a < b)
  | .le => decide (a ≤ b) | .gt => decide (b < a) | .ge => decide (b ≤ a)

/-- R306: `ICMP`. -/
def icmpVal (t : Ty) (cc : Cc) (a b : Dword) : Bool := ccHolds cc (tyVal t a) (tyVal t b)
/-- R306: `ISEL`. -/
def iselVal (t : Ty) (a b x : Dword) : Dword :=
  tyExt t (if x.toNat % 2 ^ tyWidth t = 0 then b.toNat else a.toNat)

/-- R307: `LEA` with its scale. -/
def leaVal (t : Ty) (sh : Nat) (a b : Dword) : Dword :=
  let off : Dword :=
    match t with
    | .s32 => (b.setWidth 32).signExtend 64
    | .n32 => (b.setWidth 32).setWidth 64
    | _ => b
  setFld a 0 56 ((fld a 0 56 + off.toNat * 2 ^ sh) % 2 ^ 56)

/-- R307: `LEA`: a pair, an offset by the type. -/
def Ctx.leaBody (c : Ctx) (s : State) : State :=
  c.perLane 2 (fun gc l =>
    leaVal c.o.ty (fld c.o.w3 0 3) (c.srcA gc 2 l) (c.srcB gc (tyRegs c.o.ty) l)) s

/-- R301: `POPC` and `CLZ` write 32 bits. -/
def Ctx.count (c : Ctx) (f : Ty → Dword → Dword) (s : State) : State :=
  c.perLane 1 (fun gc l => f c.o.ty (c.srcA gc (tyRegs c.o.ty) l)) s

/-- R314: the immediate of `MOVI` and `SMOVI`. -/
def Ctx.imm (c : Ctx) : Dword :=
  match c.o.lit with
  | some v => v
  | none => if c.o.ty = .n64 then c.o.w3.signExtend 64 else c.o.w3.setWidth 64

/-- R314: a register of a home lane of the group, as the order of issue leaves it where a path that is not ordered writes
it (log entry 123). -/
def Ctx.homeLane (c : Ctx) (gc : GCtx) : Word := gc.g.readReg c.free c.o.a.toNat (fld c.o.b 0 5)

/-- R314: `MOVS`: a scalar takes a register of a home lane. -/
def Ctx.movsBody (c : Ctx) (s : State) : State := c.perScal 1 (fun gc => (c.homeLane gc).setWidth 64) s

/-- IADD_SHORT (R301). -/
def execIaddShort (o : SOps) (s : State) : Host.Outcome State Fault Refusal :=
  issue (.iaddShort o) s (fun c => c.int2 iaddVal)

/-- IADD (R301). -/
def execIadd (o : XOps) (s : State) : Host.Outcome State Fault Refusal :=
  issue (.iadd o) s (fun c => c.int2 iaddVal)

/-- ISUB_SHORT (R301). -/
def execIsubShort (o : SOps) (s : State) : Host.Outcome State Fault Refusal :=
  issue (.isubShort o) s (fun c => c.int2 isubVal)

/-- ISUB (R301). -/
def execIsub (o : XOps) (s : State) : Host.Outcome State Fault Refusal :=
  issue (.isub o) s (fun c => c.int2 isubVal)

/-- IMUL_SHORT (R301). -/
def execImulShort (o : SOps) (s : State) : Host.Outcome State Fault Refusal :=
  issue (.imulShort o) s (fun c => c.int2 imulVal)

/-- IMUL (R301). -/
def execImul (o : XOps) (s : State) : Host.Outcome State Fault Refusal :=
  issue (.imul o) s (fun c => c.int2 imulVal)

/-- IMULH_SHORT (R302). -/
def execImulhShort (o : SOps) (s : State) : Host.Outcome State Fault Refusal :=
  issue (.imulhShort o) s (fun c => c.int2 imulhVal)

/-- IMULH (R302). -/
def execImulh (o : XOps) (s : State) : Host.Outcome State Fault Refusal :=
  issue (.imulh o) s (fun c => c.int2 imulhVal)

/-- IMAD (R301). -/
def execImad (o : XOps) (s : State) : Host.Outcome State Fault Refusal :=
  issue (.imad o) s (fun c => c.int3 imadVal)

/-- IMADW (R301). -/
def execImadw (o : XOps) (s : State) : Host.Outcome State Fault Refusal :=
  issue (.imadw o) s (fun c => c.perLane 2 (fun gc l => imadwVal c.o.ty (c.srcA gc 1 l) (c.srcB gc 1 l) (c.srcC gc 2 l)))

/-- IDIV_SHORT (R303). -/
def execIdivShort (o : SOps) (s : State) : Host.Outcome State Fault Refusal :=
  issue (.idivShort o) s (fun c => c.perLaneLong (tyRegs c.o.ty) (fun gc l =>
    idivVal c.o.ty (c.srcA gc (tyRegs c.o.ty) l) (c.srcB gc (tyRegs c.o.ty) l)))

/-- IDIV (R303). -/
def execIdiv (o : XOps) (s : State) : Host.Outcome State Fault Refusal :=
  issue (.idiv o) s (fun c => c.perLaneLong (tyRegs c.o.ty) (fun gc l =>
    idivVal c.o.ty (c.srcA gc (tyRegs c.o.ty) l) (c.srcB gc (tyRegs c.o.ty) l)))

/-- IMIN_SHORT (R301). -/
def execIminShort (o : SOps) (s : State) : Host.Outcome State Fault Refusal :=
  issue (.iminShort o) s (fun c => c.int2 iminVal)

/-- IMIN (R301). -/
def execImin (o : XOps) (s : State) : Host.Outcome State Fault Refusal :=
  issue (.imin o) s (fun c => c.int2 iminVal)

/-- IMAX_SHORT (R301). -/
def execImaxShort (o : SOps) (s : State) : Host.Outcome State Fault Refusal :=
  issue (.imaxShort o) s (fun c => c.int2 imaxVal)

/-- IMAX (R301). -/
def execImax (o : XOps) (s : State) : Host.Outcome State Fault Refusal :=
  issue (.imax o) s (fun c => c.int2 imaxVal)

/-- IABS_SHORT (R301). -/
def execIabsShort (o : SOps) (s : State) : Host.Outcome State Fault Refusal :=
  issue (.iabsShort o) s (fun c => c.int1 iabsVal)

/-- IABS (R301). -/
def execIabs (o : XOps) (s : State) : Host.Outcome State Fault Refusal :=
  issue (.iabs o) s (fun c => c.int1 iabsVal)

/-- INEG_SHORT (R301). -/
def execInegShort (o : SOps) (s : State) : Host.Outcome State Fault Refusal :=
  issue (.inegShort o) s (fun c => c.int1 inegVal)

/-- INEG (R301). -/
def execIneg (o : XOps) (s : State) : Host.Outcome State Fault Refusal :=
  issue (.ineg o) s (fun c => c.int1 inegVal)

/-- NOT_SHORT (R301). -/
def execNotShort (o : SOps) (s : State) : Host.Outcome State Fault Refusal :=
  issue (.notShort o) s (fun c => c.int1 notVal)

/-- NOT (R301). -/
def execNot (o : XOps) (s : State) : Host.Outcome State Fault Refusal :=
  issue (.not o) s (fun c => c.int1 notVal)

/-- POPC_SHORT (R301). -/
def execPopcShort (o : SOps) (s : State) : Host.Outcome State Fault Refusal :=
  issue (.popcShort o) s (fun c => c.count popcVal)

/-- POPC (R301). -/
def execPopc (o : XOps) (s : State) : Host.Outcome State Fault Refusal :=
  issue (.popc o) s (fun c => c.count popcVal)

/-- CLZ_SHORT (R301). -/
def execClzShort (o : SOps) (s : State) : Host.Outcome State Fault Refusal :=
  issue (.clzShort o) s (fun c => c.count clzVal)

/-- CLZ (R301). -/
def execClz (o : XOps) (s : State) : Host.Outcome State Fault Refusal :=
  issue (.clz o) s (fun c => c.count clzVal)

/-- BREV_SHORT (R301). -/
def execBrevShort (o : SOps) (s : State) : Host.Outcome State Fault Refusal :=
  issue (.brevShort o) s (fun c => c.int1 brevVal)

/-- BREV (R301). -/
def execBrev (o : XOps) (s : State) : Host.Outcome State Fault Refusal :=
  issue (.brev o) s (fun c => c.int1 brevVal)

/-- AND_SHORT (R301). -/
def execAndShort (o : SOps) (s : State) : Host.Outcome State Fault Refusal :=
  issue (.andShort o) s (fun c => c.int2 andVal)

/-- AND (R301). -/
def execAnd (o : XOps) (s : State) : Host.Outcome State Fault Refusal :=
  issue (.and o) s (fun c => c.int2 andVal)

/-- OR_SHORT (R301). -/
def execOrShort (o : SOps) (s : State) : Host.Outcome State Fault Refusal :=
  issue (.orShort o) s (fun c => c.int2 orVal)

/-- OR (R301). -/
def execOr (o : XOps) (s : State) : Host.Outcome State Fault Refusal :=
  issue (.or o) s (fun c => c.int2 orVal)

/-- XOR_SHORT (R301). -/
def execXorShort (o : SOps) (s : State) : Host.Outcome State Fault Refusal :=
  issue (.xorShort o) s (fun c => c.int2 xorVal)

/-- XOR (R301). -/
def execXor (o : XOps) (s : State) : Host.Outcome State Fault Refusal :=
  issue (.xor o) s (fun c => c.int2 xorVal)

/-- ANDN_SHORT (R301). -/
def execAndnShort (o : SOps) (s : State) : Host.Outcome State Fault Refusal :=
  issue (.andnShort o) s (fun c => c.int2 andnVal)

/-- ANDN (R301). -/
def execAndn (o : XOps) (s : State) : Host.Outcome State Fault Refusal :=
  issue (.andn o) s (fun c => c.int2 andnVal)

/-- SHL_SHORT (R304). -/
def execShlShort (o : SOps) (s : State) : Host.Outcome State Fault Refusal :=
  issue (.shlShort o) s (fun c => c.shift shlVal)

/-- SHL (R304). -/
def execShl (o : XOps) (s : State) : Host.Outcome State Fault Refusal :=
  issue (.shl o) s (fun c => c.shift shlVal)

/-- SHRL_SHORT (R304). -/
def execShrlShort (o : SOps) (s : State) : Host.Outcome State Fault Refusal :=
  issue (.shrlShort o) s (fun c => c.shift shrlVal)

/-- SHRL (R304). -/
def execShrl (o : XOps) (s : State) : Host.Outcome State Fault Refusal :=
  issue (.shrl o) s (fun c => c.shift shrlVal)

/-- SHRA_SHORT (R304). -/
def execShraShort (o : SOps) (s : State) : Host.Outcome State Fault Refusal :=
  issue (.shraShort o) s (fun c => c.shift shraVal)

/-- SHRA (R304). -/
def execShra (o : XOps) (s : State) : Host.Outcome State Fault Refusal :=
  issue (.shra o) s (fun c => c.shift shraVal)

/-- ROTL_SHORT (R304). -/
def execRotlShort (o : SOps) (s : State) : Host.Outcome State Fault Refusal :=
  issue (.rotlShort o) s (fun c => c.shift rotlVal)

/-- ROTL (R304). -/
def execRotl (o : XOps) (s : State) : Host.Outcome State Fault Refusal :=
  issue (.rotl o) s (fun c => c.shift rotlVal)

/-- BFX (R305). -/
def execBfx (o : XOps) (s : State) : Host.Outcome State Fault Refusal :=
  issue (.bfx o) s (fun c => c.int3 bfxVal)

/-- BFI (R305). -/
def execBfi (o : XOps) (s : State) : Host.Outcome State Fault Refusal :=
  issue (.bfi o) s (fun c => c.int3 bfiVal)

/-- ICMP (R306). -/
def execIcmp (cc : Cc) (o : XOps) (s : State) : Host.Outcome State Fault Refusal :=
  issue (.icmp cc o) s (fun c => c.perPred (fun gc l =>
    icmpVal c.o.ty cc (c.srcA gc (tyRegs c.o.ty) l) (c.srcB gc (tyRegs c.o.ty) l)))

/-- ISEL (R306). -/
def execIsel (o : XOps) (s : State) : Host.Outcome State Fault Refusal :=
  issue (.isel o) s (fun c => c.int3 iselVal)

/-- LEA_SHORT (R307). -/
def execLeaShort (o : SOps) (s : State) : Host.Outcome State Fault Refusal :=
  issue (.leaShort o) s (fun c => c.leaBody)

/-- LEA (R307). -/
def execLea (o : XOps) (s : State) : Host.Outcome State Fault Refusal :=
  issue (.lea o) s (fun c => c.leaBody)

/-- MOV_SHORT (R314). -/
def execMovShort (o : SOps) (s : State) : Host.Outcome State Fault Refusal :=
  issue (.movShort o) s (fun c => c.int1 (fun _ a => a))

/-- MOV (R314). -/
def execMov (o : XOps) (s : State) : Host.Outcome State Fault Refusal :=
  issue (.mov o) s (fun c => c.int1 (fun _ a => a))

/-- MOVI_SHORT (R314). -/
def execMoviShort (o : SOps) (s : State) : Host.Outcome State Fault Refusal :=
  issue (.moviShort o) s (fun c => c.perLane (tyRegs c.o.ty) (fun _ _ => c.imm))

/-- MOVI (R314). -/
def execMovi (o : XOps) (s : State) : Host.Outcome State Fault Refusal :=
  issue (.movi o) s (fun c => c.perLane (tyRegs c.o.ty) (fun _ _ => c.imm))

/-- BCAST_SHORT (R314). -/
def execBcastShort (o : SOps) (s : State) : Host.Outcome State Fault Refusal :=
  issue (.bcastShort o) s (fun c => c.perLane 1 (fun gc _ => (c.homeLane gc).setWidth 64))

/-- BCAST (R314). -/
def execBcast (o : XOps) (s : State) : Host.Outcome State Fault Refusal :=
  issue (.bcast o) s (fun c => c.perLane 1 (fun gc _ => (c.homeLane gc).setWidth 64))

/-- MOVS_SHORT (R314). -/
def execMovsShort (o : SOps) (s : State) : Host.Outcome State Fault Refusal :=
  issue (.movsShort o) s (fun c => c.movsBody)

/-- MOVS (R314). -/
def execMovs (o : XOps) (s : State) : Host.Outcome State Fault Refusal :=
  issue (.movs o) s (fun c => c.movsBody)

end Sys2Proof.Machine
end

