-- ==== Sys2Proof/Machine/FloatInstr.lean ====
section
/-! DEFINITION. The vector floating instructions, conversions and packed arithmetic (R300, R308 to
R313). -/

namespace Sys2Proof.Machine

/-- R308: the format an instruction works in. -/
def Ctx.ffmt (c : Ctx) : FFmt := (fFmtOf c.o.ty).getD fF32
/-- R284: the environment of the issuing fragment. -/
def Ctx.env (c : Ctx) : FEnv := fEnv c.frag.fmt

/-- R298: a result of a floating format, zero above its bits. -/
def fWord (r : Nat × Exc) : Word × Exc := (w32 r.1, r.2)

/-- R308: one source, of a 32-bit register. -/
def Ctx.f1 (c : Ctx) (f : FFmt → FEnv → Nat → Nat × Exc) (gc : GCtx) (l : Nat) : Word × Exc :=
  fWord (f c.ffmt c.env (c.srcA gc 1 l).toNat)
def Ctx.f2 (c : Ctx) (f : FFmt → FEnv → Nat → Nat → Nat × Exc) (gc : GCtx) (l : Nat) : Word × Exc :=
  fWord (f c.ffmt c.env (c.srcA gc 1 l).toNat (c.srcB gc 1 l).toNat)
def Ctx.f3 (c : Ctx) (f : FFmt → FEnv → Nat → Nat → Nat → Nat × Exc) (gc : GCtx) (l : Nat) : Word × Exc :=
  fWord (f c.ffmt c.env (c.srcA gc 1 l).toNat (c.srcB gc 1 l).toNat (c.srcC gc 1 l).toNat)

/-- R309: `FMIN` and `FMAX`. -/
def fminmaxVal (mx : Bool) (f : FFmt) (v : FEnv) (a b : Nat) : Nat × Exc := (f.minmax v.ftz mx a b, excNone)
/-- R308: `FABS`: the sign bit cleared, the other bits of the element kept. -/
def fabsVal (f : FFmt) (_ : FEnv) (a : Nat) : Nat × Exc := (a % 2 ^ (f.width - 1), excNone)
/-- R308: `FNEG`: the sign bit inverted. -/
def fnegVal (f : FFmt) (_ : FEnv) (a : Nat) : Nat × Exc :=
  ((a % 2 ^ f.width + 2 ^ (f.width - 1)) % 2 ^ f.width, excNone)
/-- R308: the instructions of one operand that round an exact value. -/
def frcpVal (f : FFmt) (v : FEnv) (a : Nat) : Nat × Exc := f.un v (fun x => (FVal.fin false 1 0).div x) a
def frsqVal (f : FFmt) (v : FEnv) (a : Nat) : Nat × Exc := f.un v FVal.rsqrt a
def fsqrtVal (f : FFmt) (v : FEnv) (a : Nat) : Nat × Exc := f.un v FVal.sqrt a
def fexp2Val (f : FFmt) (v : FEnv) (a : Nat) : Nat × Exc := f.un v FVal.exp2 a
def flog2Val (f : FFmt) (v : FEnv) (a : Nat) : Nat × Exc := f.un v FVal.log2 a
def fsinVal (f : FFmt) (v : FEnv) (a : Nat) : Nat × Exc := f.un v FVal.sin a
def fcosVal (f : FFmt) (v : FEnv) (a : Nat) : Nat × Exc := f.un v FVal.cos a
def froundVal (f : FFmt) (v : FEnv) (a : Nat) : Nat × Exc := f.un v (FVal.integral v.rm) a
def fclassVal (_ : FFmt) (_ : FEnv) (a : Nat) : Nat × Exc := (fclassBits a, excNone)

/-- R281, R311: element `i` of a word, in elements of a type. -/
def elemAt (t : Ty) (i : Nat) (x : Dword) : Nat :=
  match tyElems t with
  | 4 => fld x (8 * i) 8
  | 2 => fld x (16 * i) 16
  | _ => x.toNat

/-- R311: the width of an element of a type. -/
def elemWidth (t : Ty) : Nat :=
  match tyElems t with | 4 => 8 | 2 => 16 | _ => 32 * tyRegs t

/-- R311: `CVT` in a lane: the element placed as element DI, over the old word where MERGE is 1. -/
def Ctx.cvtLane (c : Ctx) (gc : GCtx) (l : Nat) : Dword × Exc :=
  let src := cvtSty c.o
  let dst := c.o.ty
  let x := c.srcA gc (tyRegs src) l
  let r := cvtElem c.env src dst (elemAt src (fld c.o.w3 4 2) x % 2 ^ (32 * tyRegs src))
  let old : Dword := if bit c.o.w3 8 then gc.g.val c.free (tyRegs dst) c.o.d.toNat l else 0
  (setFld old (elemWidth dst * fld c.o.w3 6 2) (elemWidth dst) r.1, r.2)

/-- R311: `CVT`, which may write a pair. -/
def Ctx.cvtBody (c : Ctx) (s : State) : State :=
  c.runGroups (fun gc s => c.fCheck gc (c.cvtLane gc) s)
    (c.mapGroups (fun _ ws g =>
      g.writeLanes c.free (ws.map (fun w => (w.1, destWords c.o.d.toNat (tyRegs c.o.ty) w.2))))) s

/-- R313: `HFMA2`: two elements, each rounded once. -/
def Ctx.hfma2Lane (c : Ctx) (gc : GCtx) (l : Nat) : Word × Exc :=
  let a := c.srcA gc 1 l; let b := c.srcB gc 1 l; let x := c.srcC gc 1 l
  let e (i : Nat) : Nat × Exc :=
    c.ffmt.fma c.env (fld a (16 * i) 16) (fld b (16 * i) 16) (fld x (16 * i) 16)
  (w32 ((e 0).1 + (e 1).1 * 2 ^ 16), (e 0).2 ||| (e 1).2)

/-- R313: `DOT4` of FP8 elements: exact products, each sum rounded in FP32. -/
def dot4Float (f : FFmt) (v : FEnv) (a b x : Nat) : Nat × Exc :=
  let el (w i : Nat) : FVal := f.dec (w / 2 ^ (8 * i) % 256)
  let p (i : Nat) : FVal × Exc := (el a i).mul (el b i)
  let z := fF32.opnd v.ftz x
  let acc (s : FVal × Exc) (y : FVal × Exc) : FVal × Exc :=
    let t := s.1.add v.rm y.1
    let r := fF32.round v.rm false false t.1
    (fF32.dec r.1, s.2 ||| y.2 ||| t.2 ||| r.2)
  let s := acc (acc (acc (p 0) (p 1)) (p 2)) (p 3)
  let nan : Bool := (List.range 4).any (fun i => decide (el a i = .nan) || decide (el b i = .nan)) || decide (z = .nan)
  let t := s.1.add v.rm z
  let r := fF32.round v.rm false v.ftz t.1
  if nan then (fF32.canon, excNone) else (r.1, s.2 ||| t.2 ||| r.2)

/-- R313: `DOT4` of integer elements. -/
def dot4Int (t : Ty) (a b x : Nat) : Nat :=
  let el (w i : Nat) : Int := intVal t (w / 2 ^ (8 * i) % 256)
  wrapInt 32 ((x : Int) + el a 0 * el b 0 + el a 1 * el b 1 + el a 2 * el b 2 + el a 3 * el b 3)

/-- R313: `DOT4` in a lane. -/
def Ctx.dot4Lane (c : Ctx) (gc : GCtx) (l : Nat) : Word × Exc :=
  let a := (c.srcA gc 1 l).toNat % 2 ^ 32
  let b := (c.srcB gc 1 l).toNat % 2 ^ 32
  let x := (c.srcC gc 1 l).toNat % 2 ^ 32
  match fFmtOf c.o.ty with
  | some f => fWord (dot4Float f c.env a b x)
  | none => (w32 (dot4Int c.o.ty a b x), excNone)

/-- FADD_SHORT (R308). -/
def execFaddShort (o : SOps) (s : State) : Host.Outcome State Fault Refusal :=
  issue (.faddShort o) s (fun c => c.perLaneF (c.f2 FFmt.add))

/-- FADD (R308). -/
def execFadd (o : XOps) (s : State) : Host.Outcome State Fault Refusal :=
  issue (.fadd o) s (fun c => c.perLaneF (c.f2 FFmt.add))

/-- FSUB_SHORT (R308). -/
def execFsubShort (o : SOps) (s : State) : Host.Outcome State Fault Refusal :=
  issue (.fsubShort o) s (fun c => c.perLaneF (c.f2 FFmt.sub))

/-- FSUB (R308). -/
def execFsub (o : XOps) (s : State) : Host.Outcome State Fault Refusal :=
  issue (.fsub o) s (fun c => c.perLaneF (c.f2 FFmt.sub))

/-- FMUL_SHORT (R308). -/
def execFmulShort (o : SOps) (s : State) : Host.Outcome State Fault Refusal :=
  issue (.fmulShort o) s (fun c => c.perLaneF (c.f2 FFmt.mul))

/-- FMUL (R308). -/
def execFmul (o : XOps) (s : State) : Host.Outcome State Fault Refusal :=
  issue (.fmul o) s (fun c => c.perLaneF (c.f2 FFmt.mul))

/-- FFMA (R308). -/
def execFfma (o : XOps) (s : State) : Host.Outcome State Fault Refusal :=
  issue (.ffma o) s (fun c => c.perLaneF (c.f3 FFmt.fma))

/-- FMIN_SHORT (R309). -/
def execFminShort (o : SOps) (s : State) : Host.Outcome State Fault Refusal :=
  issue (.fminShort o) s (fun c => c.perLaneF (c.f2 (fminmaxVal false)))

/-- FMIN (R309). -/
def execFmin (o : XOps) (s : State) : Host.Outcome State Fault Refusal :=
  issue (.fmin o) s (fun c => c.perLaneF (c.f2 (fminmaxVal false)))

/-- FMAX_SHORT (R309). -/
def execFmaxShort (o : SOps) (s : State) : Host.Outcome State Fault Refusal :=
  issue (.fmaxShort o) s (fun c => c.perLaneF (c.f2 (fminmaxVal true)))

/-- FMAX (R309). -/
def execFmax (o : XOps) (s : State) : Host.Outcome State Fault Refusal :=
  issue (.fmax o) s (fun c => c.perLaneF (c.f2 (fminmaxVal true)))

/-- FCMP (R309). -/
def execFcmp (cc : FCc) (o : XOps) (s : State) : Host.Outcome State Fault Refusal :=
  issue (.fcmp cc o) s (fun c => c.perPredF (fun gc l =>
    c.ffmt.fcmp c.env.ftz cc (c.srcA gc 1 l).toNat (c.srcB gc 1 l).toNat))

/-- FDIV_SHORT (R308). -/
def execFdivShort (o : SOps) (s : State) : Host.Outcome State Fault Refusal :=
  issue (.fdivShort o) s (fun c => c.perLaneFLong (c.f2 FFmt.div))

/-- FDIV (R308). -/
def execFdiv (o : XOps) (s : State) : Host.Outcome State Fault Refusal :=
  issue (.fdiv o) s (fun c => c.perLaneFLong (c.f2 FFmt.div))

/-- FABS_SHORT (R308). -/
def execFabsShort (o : SOps) (s : State) : Host.Outcome State Fault Refusal :=
  issue (.fabsShort o) s (fun c => c.perLaneF (c.f1 fabsVal))

/-- FABS (R308). -/
def execFabs (o : XOps) (s : State) : Host.Outcome State Fault Refusal :=
  issue (.fabs o) s (fun c => c.perLaneF (c.f1 fabsVal))

/-- FNEG_SHORT (R308). -/
def execFnegShort (o : SOps) (s : State) : Host.Outcome State Fault Refusal :=
  issue (.fnegShort o) s (fun c => c.perLaneF (c.f1 fnegVal))

/-- FNEG (R308). -/
def execFneg (o : XOps) (s : State) : Host.Outcome State Fault Refusal :=
  issue (.fneg o) s (fun c => c.perLaneF (c.f1 fnegVal))

/-- FRCP_SHORT (R308). -/
def execFrcpShort (o : SOps) (s : State) : Host.Outcome State Fault Refusal :=
  issue (.frcpShort o) s (fun c => c.perLaneFLong (c.f1 frcpVal))

/-- FRCP (R308). -/
def execFrcp (o : XOps) (s : State) : Host.Outcome State Fault Refusal :=
  issue (.frcp o) s (fun c => c.perLaneFLong (c.f1 frcpVal))

/-- FRSQ_SHORT (R308). -/
def execFrsqShort (o : SOps) (s : State) : Host.Outcome State Fault Refusal :=
  issue (.frsqShort o) s (fun c => c.perLaneFLong (c.f1 frsqVal))

/-- FRSQ (R308). -/
def execFrsq (o : XOps) (s : State) : Host.Outcome State Fault Refusal :=
  issue (.frsq o) s (fun c => c.perLaneFLong (c.f1 frsqVal))

/-- FSQRT_SHORT (R308). -/
def execFsqrtShort (o : SOps) (s : State) : Host.Outcome State Fault Refusal :=
  issue (.fsqrtShort o) s (fun c => c.perLaneFLong (c.f1 fsqrtVal))

/-- FSQRT (R308). -/
def execFsqrt (o : XOps) (s : State) : Host.Outcome State Fault Refusal :=
  issue (.fsqrt o) s (fun c => c.perLaneFLong (c.f1 fsqrtVal))

/-- FEXP2_SHORT (R308). -/
def execFexp2Short (o : SOps) (s : State) : Host.Outcome State Fault Refusal :=
  issue (.fexp2Short o) s (fun c => c.perLaneFLong (c.f1 fexp2Val))

/-- FEXP2 (R308). -/
def execFexp2 (o : XOps) (s : State) : Host.Outcome State Fault Refusal :=
  issue (.fexp2 o) s (fun c => c.perLaneFLong (c.f1 fexp2Val))

/-- FLOG2_SHORT (R308). -/
def execFlog2Short (o : SOps) (s : State) : Host.Outcome State Fault Refusal :=
  issue (.flog2Short o) s (fun c => c.perLaneFLong (c.f1 flog2Val))

/-- FLOG2 (R308). -/
def execFlog2 (o : XOps) (s : State) : Host.Outcome State Fault Refusal :=
  issue (.flog2 o) s (fun c => c.perLaneFLong (c.f1 flog2Val))

/-- FSIN_SHORT (R308). -/
def execFsinShort (o : SOps) (s : State) : Host.Outcome State Fault Refusal :=
  issue (.fsinShort o) s (fun c => c.perLaneFLong (c.f1 fsinVal))

/-- FSIN (R308). -/
def execFsin (o : XOps) (s : State) : Host.Outcome State Fault Refusal :=
  issue (.fsin o) s (fun c => c.perLaneFLong (c.f1 fsinVal))

/-- FCOS_SHORT (R308). -/
def execFcosShort (o : SOps) (s : State) : Host.Outcome State Fault Refusal :=
  issue (.fcosShort o) s (fun c => c.perLaneFLong (c.f1 fcosVal))

/-- FCOS (R308). -/
def execFcos (o : XOps) (s : State) : Host.Outcome State Fault Refusal :=
  issue (.fcos o) s (fun c => c.perLaneFLong (c.f1 fcosVal))

/-- FROUND_SHORT (R308). -/
def execFroundShort (o : SOps) (s : State) : Host.Outcome State Fault Refusal :=
  issue (.froundShort o) s (fun c => c.perLaneF (c.f1 froundVal))

/-- FROUND (R308). -/
def execFround (o : XOps) (s : State) : Host.Outcome State Fault Refusal :=
  issue (.fround o) s (fun c => c.perLaneF (c.f1 froundVal))

/-- FCLASS_SHORT (R310). -/
def execFclassShort (o : SOps) (s : State) : Host.Outcome State Fault Refusal :=
  issue (.fclassShort o) s (fun c => c.perLaneF (c.f1 fclassVal))

/-- FCLASS (R310). -/
def execFclass (o : XOps) (s : State) : Host.Outcome State Fault Refusal :=
  issue (.fclass o) s (fun c => c.perLaneF (c.f1 fclassVal))

/-- CVT (R311). -/
def execCvt (o : XOps) (s : State) : Host.Outcome State Fault Refusal :=
  issue (.cvt o) s (fun c => c.cvtBody)

/-- HFMA2 (R313). -/
def execHfma2 (o : XOps) (s : State) : Host.Outcome State Fault Refusal :=
  issue (.hfma2 o) s (fun c => c.perLaneF c.hfma2Lane)

/-- DOT4 (R313). -/
def execDot4 (o : XOps) (s : State) : Host.Outcome State Fault Refusal :=
  issue (.dot4 o) s (fun c => c.perLaneF c.dot4Lane)

end Sys2Proof.Machine
end

