-- ==== Sys2Proof/Machine/Fetch.lean ====
section
/-! DEFINITION. Instruction fetch: the words of an instruction as a whole, in the version memory holds
or in one that an instruction cache may still hold; the check of a control transfer's target (R35,
R172, R199, R200, R322, R328, R332). -/

namespace Sys2Proof.Machine

/-- R456: DETAIL of a fetch or target cause: the cause that `Translate` met, or not executable. -/
def XFault.detail (f : XFault) : Nat := if f.notExec then 64 else f.cause.code

/-- R35, R42: a run of code, or none where it is poisoned or does not decode. -/
def State.codeBytes (s : State) (vi : Nat) (x : XOk) (off n : Nat) : Option (List Byte) :=
  let tag := s.keyTag x.leaf
  let a := x.pa - x.off + off
  if x.packed then s.packBytes vi tag x.pack x.psz (leafLen x.leaf x.psz) off n
  else if s.poisoned a n then none
  else some (s.bytesAs tag a n)

/-- R24, R35: one word of code; what its translation gives is for the caller's accessed bit. -/
def State.fetchWord (s : State) (vi core : Nat) (hm : Bool) (pc : Dword) :
    Except Nat (Word × XOk) × State :=
  match s.translate vi pc .fetch 4 hm with
  | .error f => (.error f.detail, s.logViol vi pc 3 core f)
  | .ok x =>
    match s.codeBytes vi x x.off 4 with
    | none => (.error Cause.poisonRead.code, s)
    | some bs => (.ok (w32 (leNat bs), x), s)

/-- The words after the first, in address order. -/
def State.fetchMore (s : State) (vi core : Nat) (hm : Bool) :
    Nat → Dword → List (Word × XOk) → Except Nat (List (Word × XOk)) × State
  | 0, _, acc => (.ok acc, s)
  | n + 1, pc, acc =>
    let r := s.fetchWord vi core hm pc
    match r.1 with
    | .error d => (.error d, r.2)
    | .ok w => State.fetchMore r.2 vi core hm n (pc + 4) (acc ++ [w])

/-- R199, R200: a fragment may issue from a line that caches still hold; from one that an ICINV has discarded only the
loop that was issuing then. -/
def Frag.mayUse (f : Frag) (l : ILine) : Bool :=
  decide (f.fence ≤ l.time) && (!l.loopOnly || (f.loop.isSome && decide (l.time < f.loopFence)))

/-- R200: the fragment is in the iteration of a loop during which an ICINV discarded its body. -/
def Frag.inOldBody (f : Frag) : Bool := f.loop.isSome && decide (f.fence < f.loopFence)

/-- Words from bytes. -/
def bytesWords : List Byte → List Word
  | a :: b :: c :: d :: r => w32 (leNat [a, b, c, d]) :: bytesWords r
  | _ => []

/-- The instruction at an offset of a held line, where the line holds all of it. -/
def ILine.instrAt (l : ILine) (off : Nat) : Option (List Word) :=
  let bs := l.bytes.drop off
  match bytesWords (bs.take 4) with
  | [w] => if lenOf w ≤ bs.length then some (bytesWords (bs.take (lenOf w))) else none
  | _ => none

/-- R199: the line of an address as it is fetched now: its 128 bytes and, where they can be read, the 16 after them in
the page and its block. -/
def State.lineNow (s : State) (vi : Nat) (x : XOk) : List Byte :=
  let line := x.off / 128 * 128
  let more := if (line + 128) % (if x.packed then 4096 else 65536) = 0 then none else s.codeBytes vi x (line + 128) 16
  (s.codeBytes vi x line 128).getD [] ++ more.getD []

/-- R199: the line of an instruction's address; a core keeps it under that address, for a migration of its page moves
its bytes unchanged and invalidates no line (log entry 20). -/
def codeLine (pc : Dword) : Nat := pc.toNat / 128

/-- R48, R120: what a fetch comes to: the words, a fault with its detail, or it cannot be made now. -/
inductive FetchRes where
  | ok (ws : List Word)
  | fault (detail : Nat)
  | hold

/-- R44, R114, R199: the request of a line of code that enters the caches. -/
def State.codeAsk (s : State) (t : Team) (x : XOk) (pc : Dword) : State :=
  let r := x.ask t.vi (if t.deadline then 0 else 1) 0
  if x.packed then s.packAsk r (s.keyTag x.leaf) pc x.pack x.psz (leafLen x.leaf x.psz) (x.off / 128 * 128) 128
  else s.request r (s.keyTag x.leaf) (x.pa / 128 * 128) 128 false

/-- R48, R120, R199: the words of the instruction at a fragment's address, all of one version of the code; a line that
enters the cache is a request of the team's class.  A page that migrates holds the fetch, and so does a full queue. -/
def State.fetchInstr (s : State) (t : Team) (f : Frag) : FetchRes × State :=
  let held (n : Nat) : Bool :=
    (List.range n).any (fun k => s.heldAt (s.translate t.vi (f.pc + w64 (4 * k)) .fetch 4 f.hm))
  let r := s.fetchWord t.vi t.core f.hm f.pc
  if held 1 then (.hold, s)
  else
    match r.1 with
    | .error d => (.fault d, r.2)
    | .ok (w, x) =>
      if held (lenOf w / 4) then (.hold, s)
      else
        let m := r.2.fetchMore t.vi t.core f.hm (lenOf w / 4 - 1) (f.pc + 4) [(w, x)]
        let now : Option (List Word) :=
          match m.1 with
          | .ok ws => some (ws.map (fun e => e.1))
          | .error _ => none
        let cache := (s.core t.core).icache
        let lines := cache.filter (fun l => l.vi == t.vi && l.line == codeLine f.pc && f.mayUse l)
        let versions (l : List ILine) : List (List Word) := l.filterMap (fun l => l.instrAt (f.pc.toNat % 128))
        let body := versions (lines.filter (fun l => f.inOldBody && decide (l.time < f.loopFence)))
        let held := if body.isEmpty then versions lines else body
        let used := ((List.range held.length).zip held).foldl
          (fun cur h => if some h.2 = cur then cur else if s.pick 6 (64 * f.pc.toNat + h.1) then some h.2 else cur)
          (if body.isEmpty then now else body.head?)
        if body.isEmpty ∧ used = now then
          match m.1 with
          | .error d => (.fault d, m.2)
          | .ok ws =>
            let l : ILine := { vi := t.vi, line := codeLine f.pc, bytes := s.lineNow t.vi x, time := s.free, loopOnly := false }
            let known := cache.any (fun h => h.vi == l.vi && h.line == l.line && h.bytes == l.bytes && f.mayUse h && !h.loopOnly)
            if !known && s.noEntry (x.ask t.vi (if t.deadline then 0 else 1) 0) x then (.hold, s)
            else
              let s := ws.foldl (fun s e => s.touchLeaf t.vi .fetch e.2) m.2
              let s := if known then s
                else (s.codeAsk t x f.pc).modCore t.core (fun k => { k with icache := k.icache ++ [l] })
              (.ok (ws.map (fun e => e.1)), s)
        else
          match used with
          | some ws => (.ok ws, r.2.touchLeaf t.vi .fetch x)
          | none => (.fault 0, r.2)

/-- R328: a landing point. -/
def isLanding (w : Word) : Bool := fld w 0 2 == 0 && fld w 3 7 == 0x47 && fld w 10 22 == 0

/-- R322: why a target fails, with DETAIL. -/
inductive TargetBad where
  | misaligned
  | unmapped (detail : Nat)
  | notLanding
  deriving DecidableEq, Repr

/-- R322: the check of a control transfer's target: `indirect` ones for alignment, `land` for a landing
point. -/
def State.targetBad (s : State) (vi core : Nat) (hm indirect land : Bool) (t : Dword) :
    Option TargetBad × State :=
  if indirect && fld t 0 2 != 0 then (some .misaligned, s)
  else if fld t 56 8 != 0 then (some (.unmapped Cause.spaceInvalid.code), s)
  else
    let r := s.fetchWord vi core hm t
    match r.1 with
    | .error d => (some (.unmapped d), r.2)
    | .ok (w, _) => if land && !isLanding w then (some .notLanding, r.2) else (none, r.2)

/-- R48, R322: the translation of a target reaches a page that migrates, so the check is held. -/
def State.targetHeld (s : State) (vi : Nat) (hm indirect : Bool) (t : Dword) : Bool :=
  !(indirect && fld t 0 2 != 0) && s.heldAt (s.translate vi t .fetch 4 hm)

/-- R25: the table reads of the translation of a target that passed, where another lane's target stops the group. -/
def State.targetWalk (s : State) (vi : Nat) (hm : Bool) (t : Dword) : State :=
  match s.translate vi t .fetch 4 hm with
  | .ok x => s.walkReads vi x.etag (x.cache.map (fun e => e.2.1))
  | .error _ => s

/-- R23, R25: the A bit of a target's leaf, set once every target of the instruction has translated. -/
def State.targetTouch (s : State) (vi : Nat) (hm : Bool) (t : Dword) : State :=
  match s.translate vi t .fetch 4 hm with
  | .ok x => s.touchLeaf vi .fetch x
  | .error _ => s

/-- R322: the target has translated, whatever its word is. -/
def TargetBad.translated : Option TargetBad → Bool
  | none => true
  | some .notLanding => true
  | _ => false

/-- R23, R322: the check of the one target of a home group, which sets the A bit of a target that translates. -/
def State.targetCheck (s : State) (vi core : Nat) (hm indirect land : Bool) (t : Dword) : Option TargetBad × State :=
  let r := s.targetBad vi core hm indirect land t
  (r.1, if TargetBad.translated r.1 then r.2.targetTouch vi hm t else r.2)

/-- R322: the trap of a failed target. -/
def TargetBad.trap (b : TargetBad) (target : Dword) (mask : Word) : Trap :=
  match b with
  | .misaligned => { cause := .jumpMisaligned, mask0 := mask, addr := some target }
  | .unmapped d => { cause := .jumpUnmapped, mask0 := mask, addr := some target, detail := d }
  | .notLanding => { cause := .notLanding, mask0 := mask, addr := some target }

/-- R332: the fragment issues nothing that was fetched before now, and the loop buffers of its way are empty; what
other fragments have fetched they may still issue. -/
def State.refetch (s : State) (core way tid fid : Nat) : State :=
  { s with teams := s.teams.map (fun e =>
      if e.2.core == core then
        (e.1, { e.2 with frags := e.2.frags.map (fun f =>
          if e.1 == tid && f.id == fid then { f with fence := s.free + 1, loop := none }
          else if f.way == way then { f with loop := none, fence := max f.fence f.loopFence }
          else f) })
      else e) }

/-- R200: `ICINV` for the cores of a partition: every line of the VI leaves the caches; a fragment that
issues from a loop buffer keeps the old body until its back-edge. -/
def State.icinv (s : State) (vi part tid fid : Nat) : State :=
  let cores := s.partCores part
  let now := s.free + 1
  let looping := s.teams.any (fun e => e.2.vi == vi && e.2.frags.any (fun f => f.loop.isSome && !(e.2.id == tid && f.id == fid)))
  let s := { s with teams := s.teams.map (fun e =>
    if e.2.vi == vi then
      (e.1, { e.2 with frags := e.2.frags.map (fun f =>
        if f.loop.isSome && !(e.2.id == tid && f.id == fid) then { f with loopFence := now }
        else { f with fence := now, loop := none }) })
    else e) }
  cores.foldl (fun s c => s.modCore c (fun k =>
    { k with icache :=
        if looping then k.icache.map (fun l => if l.vi == vi then { l with loopOnly := true } else l)
        else k.icache.filter (fun l => l.vi != vi) })) s

end Sys2Proof.Machine
end

