-- ==== Sys2Proof/Machine/Regions.lean ====
section
/-! DEFINITION. Divergent regions and member-masked arrivals: meetings, region entries, compaction into
fragments, the close of a region, lanes that exit, and the lanes a member-masked instruction waits for
(R182 to R189, R193, R194, R329). -/

namespace Sys2Proof.Machine

/-! ### A region entry as stored (R183, R185) -/

/-- R185: the slot of a live entry: its place among those of the team (log entry 85). -/
def Team.slotOf (t : Team) (r : Nat) : Option Nat := (findIdx (fun x => x.id == r) t.regions 0).map (fun e => e.1)

/-- R183: the words of a mask over the lanes of the team, or of a value for each group. -/
def groupWords (l : GLanes) : List Byte := (List.range 32).flatMap (fun g => leBytes 4 (glanes l g).toNat)

/-- R183: the 512 bytes of a region entry. -/
def Team.entryImage (t : Team) (r : Region) : List Byte :=
  let parent := (r.parent.bind t.slotOf).getD 0x1FFF
  leBytes 8 (fld r.jaddr 0 56)
  ++ leBytes 8 (r.paths % 2 ^ 11 + b2n r.kind * 2 ^ 11 + parent % 2 ^ 13 * 2 ^ 12
      + (if r.parent.isSome then r.ppath % 2 ^ 10 * 2 ^ 25 else 0))
  ++ List.replicate 112 0
  ++ groupWords (r.fmts.filter (fun e => glanes r.meet e.1 != 0)) ++ groupWords r.meet ++ groupWords r.arr

/-! ### Forming fragments (R187, R188) -/

/-- R187: what a new fragment takes from the fragments whose lanes it gathers: their `fmt` and the code
they may still issue. -/
structure Seed where
  lanes : GLanes
  fmts : GLanes
  fence : Nat
  deriving DecidableEq, Repr

/-- R187: a group's lanes of a path joined to the first fragment of its way with its `fmt` and privilege
and without those columns, else a fragment of its own; `alone`: every group its own (R188). -/
def packGroup (alone : Bool) (way : Nat) (fmt : Word) (hm : Bool) (g : Nat) (l : Word) :
    List (Nat × Word × Bool × GLanes) → List (Nat × Word × Bool × GLanes)
  | [] => [(way, fmt, hm, [(g, l)])]
  | e :: r =>
    if !alone && e.1 == way && e.2.1 == fmt && e.2.2.1 == hm && e.2.2.2.all (fun x => x.2 &&& l == 0) then
      (e.1, e.2.1, e.2.2.1, e.2.2.2 ++ [(g, l)]) :: r
    else e :: packGroup alone way fmt hm g l r

/-- R187: the fragments of one path, way by way, group by group. -/
def Team.pack (t : Team) (alone : Bool) (seed : Seed) : List (Nat × Word × Bool × GLanes) :=
  let one (w : Nat) (acc : List (Nat × Word × Bool × GLanes)) (e : Nat × Word) :
      List (Nat × Word × Bool × GLanes) :=
    match t.group? e.1 with
    | some g =>
      if g.way = w ∧ e.2 ≠ 0 then packGroup alone w (glanes seed.fmts e.1) g.hm e.1 e.2 acc else acc
    | none => acc
  (List.range 8).foldl (fun acc w => seed.lanes.foldl (one w) acc) []

/-- R187: new fragments of a path, with their number; the second part lists their numbers. -/
def Team.form (t : Team) (alone : Bool) (seed : Seed) (region : Option Nat) (rank : Nat) (pc : Dword) :
    Team × List Nat :=
  (t.pack alone seed).foldl (fun (acc : Team × List Nat) e =>
    let id := acc.1.nextFrag
    let f : Frag := { id := id, way := e.1, lanes := e.2.2.2, fmt := e.2.1, hm := e.2.2.1, pc := pc,
                      region := region, rank := rank, fence := seed.fence }
    ({ (acc.1.setFrag f) with nextFrag := id + 1 }, acc.2 ++ [id])) (t, [])

/-- R450 step 8: the groups of fragments whose instruction has just completed raise SINGLE_STEP where
the core steps. -/
def State.stepped (s : State) (tid : Nat) (ids : List Nat) (at' : Dword) (word : Word) : State :=
  match s.team? tid with
  | none => s
  | some t =>
    if (s.core t.core).dbg.step then
      ids.foldl (fun s id =>
        match (s.team? tid).bind (fun t => t.frag? id) with
        | none => s
        | some f =>
          let r := f.lanes.foldl (fun (acc : State × List (Nat × Next)) e =>
            let x := acc.1.takeTrap tid { f with pc := at' } word s.free e.1 stepTrap f.pc
            (x.1, acc.2 ++ [(e.1, { x.2 with pc := f.pc })])) (s, [])
          r.1.modTeam tid (fun t => t.goOn id f.word r.2)) s
    else s

/-! ### Closing a region (R184, R188) -/

/-- R184, R188: a region whose ARR is its MEET closes: the lanes of MEET that have not exited resume
after the `JOIN` on the enclosing path, with the `fmt` of the entry. -/
def Team.close (t : Team) (r : Region) : Team × List Nat :=
  let live : GLanes := r.meet.filterMap (fun e =>
    match t.group? e.1 with
    | some g => if e.2 &&& g.alive = 0 then none else some (e.1, e.2 &&& g.alive)
    | none => none)
  let old := t.frags.filter (fun f => f.region == some r.id)
  let fence := (old.map (fun f => max f.fence f.loopFence)).foldl max 0
  let t := { t with regions := t.regions.filter (fun x => x.id != r.id),
                    frags := t.frags.filter (fun f => f.region != some r.id) }
  let t := live.foldl (fun t e => t.modGroup e.1 Group.complete) t
  t.form r.parent.isNone { lanes := live, fmts := r.fmts, fence := fence } r.parent r.ppath (r.jaddr + 4)

/-- R184: every region that has become complete closes, the innermost first. -/
def State.closeAll (s : State) (tid : Nat) : State :=
  match s.team? tid with
  | none => s
  | some t =>
    (sortBy (fun r => r.id) t.regions).reverse.foldl (fun s r0 =>
      match (s.team? tid).bind (fun t => (t.region? r0.id).map (fun r => (t, r))) with
      | none => s
      | some (t, r) =>
        if gsubset r.meet r.arr then
          let x := t.close r
          let word := ((t.frags.filter (fun f => f.region == some r.id)).findSome? (fun f =>
            match f.st with | .joined w => some w | _ => none)).getD 0
          (s.setTeam x.1).stepped tid x.2 r.jaddr word
        else s) s

/-- R194, R326, R356: groups stop with one fault each in every one of several waiting fragments that carries them: the
first takes the fault and the others go where it went; `rest` says how the other groups of a fragment go on. -/
def State.stopIn (s : State) (tid : Nat) (bad : List (Nat × Trap)) (fs : List Frag) (word : Frag → Word)
    (rest : State → Frag → Nat → GOut) : State :=
  (fs.foldl (fun (acc : State × List (Nat × Next)) h0 =>
    match (acc.1.team? tid).bind (fun t => t.frag? h0.id) with
    | none => acc
    | some h =>
      let ids := fs.map (fun f => f.id)
      let new := h.lanes.filterMap (fun e =>
        match kfind e.1 bad, kfind e.1 acc.2 with
        | some tr, none => some (e.1, (acc.1.takeTrap tid h (word h) acc.1.free e.1 tr h.pc ids).2)
        | _, _ => none)
      (acc.1.settle tid h (word h) acc.1.free (h.lanes.map (fun e =>
        match kfind e.1 bad, kfind e.1 acc.2 with
        | some _, some n => (e.1, GOut.follow n)
        | some tr, none => (e.1, GOut.trap tr)
        | none, _ => (e.1, rest acc.1 h e.1))) ids, acc.2 ++ new)) (s, [])).1

/-! ### Meetings (R182, R183, R186) -/

/-- R182: the fragments of a fragment's path. -/
def Team.path (t : Team) (f : Frag) : List Frag :=
  t.frags.filter (fun h => h.region == f.region && (f.region.isNone || h.rank == f.rank))

/-- R182: a fragment waits at a divergence instruction. -/
def Frag.isMeeting (f : Frag) : Bool := match f.st with | .meeting _ _ _ _ _ => true | _ => false

/-- R182: some other fragment of the path waits at a divergence instruction other than the one at `pc`. -/
def Team.meetsElsewhere (t : Team) (f : Frag) (pc : Option Dword) : Bool :=
  (t.path f).any (fun h => h.id != f.id && h.isMeeting && (match pc with | some p => h.pc != p | none => true))

/-- The lanes of a path. -/
def lanesOfFrags (l : List Frag) : GLanes := l.foldl (fun a f => gunion a f.lanes) []

/-- R186: paths by target, with their lanes: more lanes first, then the lower target. -/
def paths (act : GLanes) (target : Nat → Dword) : List (Dword × GLanes) :=
  let all := act.foldl (fun acc e =>
    (lanesOf e.2).foldl (fun (acc : List (Nat × GLanes)) l =>
      let p := (target (32 * e.1 + l)).toNat
      kset p (gunion (kget [] p acc) [(e.1, laneBit l)]) acc) acc) ([] : List (Nat × GLanes))
  (sortBy (fun p => (2048 - gcount p.2)) all).map (fun p => (w64 p.1, p.2))

/-- R322, R324, R326: the checks of the targets that the lanes of a meeting choose: per home group, the
lanes that fail, in three classes, with the detail of a failed translation. -/
structure TCheck where
  mis : Word := 0
  unm : Word := 0
  land : Word := 0
  detail : Nat := 0
  deriving DecidableEq, Repr

/-- R322: what the check of one lane's target adds. -/
def TCheck.add (k : TCheck) (l : Nat) : Option TargetBad → TCheck
  | none => k
  | some .misaligned => { k with mis := k.mis ||| laneBit l }
  | some (.unmapped d) => { k with unm := k.unm ||| laneBit l, detail := if k.unm = 0 then d else k.detail }
  | some .notLanding => { k with land := k.land ||| laneBit l }

/-- The targets that lanes of a group take, lane by lane. -/
def takenTargets (g : Nat) (act : Word) (takes : Nat → Bool) (target : Nat → Dword) : List (Nat × Dword) :=
  ((lanesOf act).filter (fun l => takes (32 * g + l))).map (fun l => (l, target (32 * g + l)))

/-- R25, R322: the targets of a group's lanes checked one after the other, with the walk reads of those that translate. -/
def State.checkWalk (s : State) (vi core : Nat) (hm indirect landing : Bool) (l : List (Nat × Dword)) : TCheck × State :=
  l.foldl (fun (acc : TCheck × State) e =>
    let b := acc.2.targetBad vi core hm indirect landing e.2
    (acc.1.add e.1 b.1, if TargetBad.translated b.1 then b.2.targetWalk vi hm e.2 else b.2)) ({}, s)

/-- R23, R322, R326: one group's check.  The A bits are set where every target has translated. -/
def State.checkTargets (s : State) (vi core : Nat) (hm indirect landing : Bool) (l : List (Nat × Dword)) : TCheck × State :=
  let r := s.checkWalk vi core hm indirect landing l
  (r.1, if r.1.mis = 0 ∧ r.1.unm = 0 then l.foldl (fun s e => s.targetTouch vi hm e.2) r.2 else r.2)

/-- R326, R456: the trap of a group with failing lanes. -/
def TCheck.trap (k : TCheck) (jmpi : Bool) (g : Nat) (all : Word) (target : Nat → Dword) : Option Trap :=
  let addr (m : Word) : Option Dword := (lanesOf m).head?.map (fun l => target (32 * g + l))
  if jmpi then
    if k.mis ≠ 0 then some { cause := .jumpMisaligned, mask0 := k.mis, mask1 := k.unm, mask2 := k.land, addr := addr k.mis }
    else if k.unm ≠ 0 then
      some { cause := .jumpUnmapped, mask0 := k.mis, mask1 := k.unm, mask2 := k.land, addr := addr k.unm, detail := k.detail }
    else if k.land ≠ 0 then
      some { cause := .notLanding, mask0 := k.mis, mask1 := k.unm, mask2 := k.land, addr := addr k.land }
    else none
  else if k.unm ≠ 0 then some { cause := .jumpUnmapped, mask0 := k.unm &&& all, addr := addr k.unm, detail := k.detail }
  else none

/-- R185: a team's reconvergence stack holds at most this many entries. -/
def stackLimit : Nat := 4096

/-- R182 to R187, R324, R326: a meeting that has every fragment of its path completes: targets are
checked (the meeting waits while the page of one migrates, R48), the entry is pushed and the paths are formed; or, with no active lane, every lane goes on
after the `JOIN`. -/
def State.completeMeeting (s : State) (tid fid : Nat) : State :=
  match (s.team? tid).bind (fun t => (t.frag? fid).map (fun f => (t, f))) with
  | none => s
  | some (t, f) =>
    match f.st with
    | .meeting i _ _ join next =>
      let ps := t.path f
      if !ps.all (fun h => h.isMeeting && h.pc == f.pc) then s
      else
        let jmpi := match i with | .jmpi _ => true | _ => false
        let word := firstWord i
        let act : GLanes := ps.foldl (fun a h =>
          match h.st with
          | .meeting _ l _ _ _ => gunion a ((l.map (fun e => (e.1, e.2 &&& glanes h.lanes e.1))).filter (fun e => e.2 != 0))
          | _ => a) []
        let tg : List (Nat × Dword) := ps.foldl (fun a h =>
          match h.st with
          | .meeting _ _ l _ _ => a ++ l.filter (fun e => bit (glanes h.lanes (e.1 / 32)) (e.1 % 32))
          | _ => a) []
        let target (k : Nat) : Dword := kget next k tg
        let meet := lanesOfFrags ps
        let fmts : GLanes := ps.foldl (fun a h => h.lanes.foldl (fun a e => kset e.1 h.fmt a) a) []
        let fence := ps.foldl (fun m h => max m (max h.fence h.loopFence)) f.fence
        let parkAll : Region :=
          { id := t.nextRegion, jaddr := join, paths := 0, kind := jmpi, parent := f.region, ppath := f.rank,
            fmts := fmts, meet := meet, arr := meet }
        if act.isEmpty then
          let t1 := { t with frags := t.frags.filter (fun h => !ps.any (fun p => p.id == h.id)) }
          let x := { t1 with frags := t1.frags ++ [{ f with region := some t.nextRegion, lanes := [], fence := fence }] }.close parkAll
          (s.setTeam x.1).stepped tid x.2 f.pc word
        else if act.any (fun e => (takenTargets e.1 e.2 (fun k => (kfind k tg).isSome) target).any (fun x =>
            s.targetHeld t.vi ((t.group? e.1).any (fun g => g.hm)) jmpi x.2)) then s
        else
          -- the checks, group by group
          let ck := act.foldl (fun (acc : List (Nat × Trap) × State) e =>
            let hm := match t.group? e.1 with | some g => g.hm | none => false
            let r := acc.2.checkTargets t.vi t.core hm jmpi jmpi (takenTargets e.1 e.2 (fun k => (kfind k tg).isSome) target)
            match r.1.trap jmpi e.1 e.2 target with
            | some tr => (acc.1 ++ [(e.1, tr)], r.2)
            | none => (acc.1, r.2)) ([], s)
          let bad : List (Nat × Trap) :=
            if !ck.1.isEmpty then ck.1
            else if stackLimit ≤ t.regions.length then
              meet.map (fun e => (e.1, { cause := .stackLimit, mask0 := e.2 }))
            else []
          if !bad.isEmpty then
            (if ck.1.isEmpty then s else ck.2).stopIn tid bad (ps.filter (fun h => h.lanes.any (fun e => (kfind e.1 bad).isSome))) (fun _ => word)
              (fun _ h _ => GOut.go { st := h.st.only (fun g => (kfind g bad).isNone), pc := h.pc, fmt := h.fmt, hm := h.hm })
          else
            let pl := paths act target
            let parked : GLanes := (meet.map (fun e => (e.1, e.2 &&& ~~~(glanes act e.1)))).filter (fun e => e.2 != 0)
            let r : Region :=
              { parkAll with paths := pl.length, arr := parked }
            let t := { t with regions := t.regions ++ [r], nextRegion := t.nextRegion + 1,
                              frags := t.frags.filter (fun h => !ps.any (fun p => p.id == h.id)) }
            let t := act.foldl (fun t e => t.modGroup e.1 Group.complete) t
            let x := ((List.range pl.length).zip pl).foldl (fun (acc : Team × List Nat) e =>
              let y := acc.1.form false { lanes := e.2.2, fmts := fmts, fence := fence } (some r.id) e.1 e.2.1
              (y.1, acc.2 ++ y.2)) (t, [])
            (ck.2.setTeam x.1).stepped tid x.2 f.pc word
    | _ => s

/-! ### Member-masked arrivals (R193, R194) -/

/-- R193: the fragments of a team that wait at an instruction with lanes of a group. -/
def Team.gather (t : Team) (i : Instr) (pc : Dword) (g : Nat) : List (Frag × Arrival) :=
  t.frags.filterMap (fun f =>
    match f.st with
    | .held j arr _ =>
      if j = i ∧ f.pc = pc ∧ glanes f.lanes g ≠ 0 then (arr.find? (fun a => a.group == g)).map (fun a => (f, a))
      else none
    | _ => none)

/-- R315: the active lanes of the arrivals. -/
def gatheredAct (l : List (Frag × Arrival)) : Word := l.foldl (fun m e => m ||| e.2.act) 0
/-- R193: the lanes that have arrived. -/
def gatheredLanes (l : List (Frag × Arrival)) : Word := l.foldl (fun m e => m ||| e.2.lanes) 0
/-- R193, R315: the named lanes: the member mask, or the active lanes where it is zero; active lanes are
added, absent lanes removed. -/
def namedLanes (m act launched : Word) : Word := ((if m = 0 then act else m) ||| act) &&& launched

/-- R194: the lanes that cannot arrive any more, with the cause; where some have exited, MEMBER_EXITED with all of them (log
entry 124). -/
def Team.memberFault (t : Team) (g : Group) (l : List (Frag × Arrival)) (named : Word) : Option Trap :=
  let missing := named &&& ~~~(gatheredLanes l)
  let exited := missing &&& g.exited
  let waiting := gatheredLanes l
  let gone := maskOf (fun n =>
    bit missing n &&
      (match (t.regions.filter (fun r =>
          (waiting &&& ~~~(glanes r.meet g.num) == 0) && bit (glanes r.meet g.num) n)).getLast? with
        | some r => bit (glanes r.arr g.num) n
        | none => false))
  if exited ≠ 0 then some { cause := .memberExited, mask0 := exited ||| gone }
  else if gone ≠ 0 then some { cause := .memberMissing, mask0 := gone }
  else none

/-- R193, R363: how a held fragment goes on once a group's part in its instruction is over: it waits for its other
groups' members, or for the exchanges of its groups, or has done. -/
def State.heldRest (s : State) (tid g : Nat) (after : FState) (f : Frag) : Next :=
  let stay : Next := { st := f.st, pc := f.pc, fmt := f.fmt, hm := f.hm }
  match f.st with
  | .held j arr next =>
    let left := arr.filter (fun a => a.group != g && glanes f.lanes a.group != 0)
    let pending := match s.team? tid with
      | some t => f.lanes.any (fun e => e.1 != g && ((t.group? e.1).bind (fun x => x.xch)).isSome)
      | none => false
    if !left.isEmpty then { stay with st := .held j left next }
    else if pending then { stay with st := .xch next }
    else { stay with st := after, pc := if after = .ready then next else f.pc }
  | _ => stay

/-- R193, R190: the part of a group in held fragments is over: the group stops in all of them, or it has been
performed; a fragment goes on when none of its groups waits any more. -/
def State.memberEnd (s : State) (tid g : Nat) (i : Instr) (l : List (Frag × Arrival)) (trap : Option Trap)
    (after : FState) : State :=
  let held := (l.map (fun e => e.1)).filter (fun f => match f.st with | .held _ _ _ => true | _ => false)
  s.stopIn tid (match trap with | some t => [(g, t)] | none => []) held (fun _ => firstWord i)
    (fun s f _ => GOut.go (s.heldRest tid g after f))

/-! ### Joint arrivals (R380) -/

/-- R380: the named groups of a joint instruction: the mask, or all groups, and those that have arrived. -/
def Team.jointNamed (t : Team) (mask : Word) (arrived : List Nat) : List Nat :=
  let base := if mask = 0 then t.groups.map (fun e => e.1) else lanesOf mask
  base ++ arrived.filter (fun g => !base.contains g)

/-- R380: the arrivals at a joint instruction. -/
def Team.jointArrivals (t : Team) (i : Instr) (pc : Dword) : List (Frag × Arrival) :=
  t.frags.flatMap (fun f =>
    match f.st with
    | .held j arr _ => if j = i ∧ f.pc = pc then arr.map (fun a => (f, a)) else []
    | _ => [])

/-- R380: some of the groups waiting at a joint instruction go on, or stop. -/
def State.jointEnd (s : State) (tid : Nat) (i : Instr) (pc : Dword) (gs : List Nat) (trap : Option Trap) : State :=
  match s.team? tid with
  | none => s
  | some t =>
    let fs := t.frags.filter (fun f =>
      match f.st with
      | .held j _ _ => j == i && f.pc == pc && f.lanes.any (fun e => gs.contains e.1)
      | _ => false)
    s.stopIn tid (match trap with | some tr => gs.map (fun g => (g, tr)) | none => []) fs (fun f => f.word)
      (fun _ f g =>
        match f.st with
        | .held j arr next =>
          if gs.contains g then GOut.go { pc := next, fmt := f.fmt, hm := f.hm }
          else GOut.go { st := .held j (arr.filter (fun a => !gs.contains a.group)) next, pc := f.pc, fmt := f.fmt, hm := f.hm }
        | _ => GOut.hold)

/-- R380: a named group that has finished or does not exist: the waiting groups fault. -/
def State.jointFault (s : State) (tid : Nat) (i : Instr) (pc : Dword) (mask : Word) : State :=
  match s.team? tid with
  | none => s
  | some t =>
    let arr := t.jointArrivals i pc
    if arr.isEmpty then s
    else
      let gone := (t.jointNamed mask (arr.map (fun a => a.2.group))).filter (fun g =>
        match t.group? g with | some gr => gr.finished | none => true)
      if gone.isEmpty then s
      else s.jointEnd tid i pc (arr.map (fun a => a.2.group))
        (some { cause := .memberExited, mask0 := gone.foldl (fun m g => m ||| laneBit g) 0 })

/-- R194, R380: the waiting groups of a team whose missing lanes have exited or been left behind stop, and so do those
at a joint instruction that names a group which has finished. -/
def State.memberFaults (s : State) (tid : Nat) : State :=
  match s.team? tid with
  | none => s
  | some t =>
    t.frags.foldl (fun s f =>
      match f.st with
      | .held (.mmaJ o) _ _ => s.jointFault tid (.mmaJ o) f.pc o.w3
      | .held i _ _ =>
        f.lanes.foldl (fun s e =>
          match s.team? tid with
          | none => s
          | some t =>
            match t.group? e.1 with
            | none => s
            | some g =>
              let l := t.gather i f.pc e.1
              if l.isEmpty then s
              else
                match t.memberFault g l (namedLanes (memberMask i) (gatheredAct l) g.launched) with
                | some tr => s.memberEnd tid e.1 i l (some tr) .ready
                | none => s) s
      | _ => s) s

/-! ### Lanes that exit (R329) -/

/-- R68, R89, R96: what a group gives up once all of its lanes have exited: its registers become unbound, its private
granules unwritten. -/
def Group.release (g : Group) : Group :=
  if g.finished then
    { g with regs := [], bound := [], regPoison := [], priv := [], privW := [], privPoison := [], pend := [], opfRegs := [[]] }
  else g

/-- R181, R184, R329: lanes of a group end. -/
def Team.exitLanes (t : Team) (fid g : Nat) (m : Word) : Team :=
  let t := t.modGroup g (fun gr => { gr with exited := gr.exited ||| m, exec := gr.exec &&& ~~~m }.release)
  { t with
    regions := t.regions.map (fun r =>
      let x := glanes r.meet g &&& m
      if x = 0 then r else { r with arr := gunion r.arr [(g, x)] })
    frags := t.frags.map (fun f =>
      if f.id = fid then { f with lanes := (f.lanes.map (fun e => if e.1 = g then (e.1, e.2 &&& ~~~m) else e)).filter (fun e => e.2 != 0) }
      else f) }

end Sys2Proof.Machine
end

