-- ==== Sys2Proof/Machine/Lane.lean ====
section
/-! DEFINITION. Member-masked lane instructions: their arrivals, and the shuffle, vote, reduction or scan
performed for a group once every named lane has arrived (R193, R194, R315 to R318). -/

namespace Sys2Proof.Machine

/-- What lane `l` supplied at its own issue. -/
def memberVal (l : List (Frag × Arrival)) (n : Nat) : Dword :=
  match l.find? (fun e => bit e.2.lanes n) with
  | some e => kget 0 n e.2.va
  | none => 0

/-- R316: the second source of a lane. -/
def memberValB (l : List (Frag × Arrival)) (n : Nat) : Dword :=
  match l.find? (fun e => bit e.2.lanes n) with
  | some e => kget 0 n e.2.vb
  | none => 0

/-- R316: `SHFL` for a lane. -/
def shflVal (mode : ShflMode) (named : Word) (a : Nat → Dword) (b : Nat) (l : Nat) : Dword :=
  let src : Option Nat :=
    match mode with
    | .idx => some (b % 32)
    | .up => if b ≤ l then some (l - b) else none
    | .down => some (l + b)
    | .xor => some (l ^^^ (b % 32))
  match src with
  | some n => if n < 32 ∧ bit named n then a n else a l
  | none => a l

/-- R318: one step of a combination. -/
def redStep (op : RedOp) (t : Ty) (v : FEnv) (a b : Nat) : Nat × Exc :=
  match op with
  | .and => ((w32 a &&& w32 b).toNat, excNone)
  | .or => ((w32 a ||| w32 b).toNat, excNone)
  | .xor => ((w32 a ^^^ w32 b).toNat, excNone)
  | .add => if t = .f32 then fF32.add v a b else ((a + b) % 2 ^ 32, excNone)
  | .min =>
    if t = .f32 then (fF32.minmax v.ftz false a b, excNone)
    else if t = .s32 then ((iminVal .s32 (w64 a) (w64 b)).toNat % 2 ^ 32, excNone)
    else (min a b, excNone)
  | .max =>
    if t = .f32 then (fF32.minmax v.ftz true a b, excNone)
    else if t = .s32 then ((imaxVal .s32 (w64 a) (w64 b)).toNat % 2 ^ 32, excNone)
    else (max a b, excNone)

/-- R318: the identity of an operation. -/
def redIdentity (op : RedOp) (t : Ty) : Nat :=
  match op with
  | .add => 0 | .or => 0 | .xor => 0
  | .and => 0xFFFFFFFF
  | .min => if t = .f32 then 0x7F800000 else if t = .s32 then 0x7FFFFFFF else 0xFFFFFFFF
  | .max => if t = .f32 then 0xFF800000 else if t = .s32 then 0x80000000 else 0

/-- R282, R286: the first operand of a combination as it may be delivered: a NaN is the canonical one, and under FTZ a
subnormal is a zero of its sign (log entry 109). -/
def redFirst (t : Ty) (v : FEnv) (x : Nat) : Nat :=
  if t = .f32 then
    match fF32.opnd v.ftz x with
    | .nan => fF32.canon
    | .fin s 0 _ => fF32.enc s 0 0
    | _ => x
  else x

/-- R318: `Combine`. -/
def combine (op : RedOp) (t : Ty) (v : FEnv) : List Nat → Nat × Exc
  | [] => (redIdentity op t, excNone)
  | x :: xs => xs.foldl (fun r y => let z := redStep op t v r.1 y; (z.1, r.2 ||| z.2)) (redFirst t v x, excNone)

/-- A result for every active lane of a group, pending (R196). -/
def memberRegs (d : Nat) (act : Word) (f : Nat → Dword) : Pend :=
  { regs := keyed ((lanesOf act).map (fun l => (l, destWords d 1 (f l)))) }

/-- R317: a predicate result for every active lane. -/
def memberPreds (p : Nat) (act : Word) (v : Bool) : Pend :=
  { preds := (lanesOf act).map (fun l => (32 * p + l, v)) }

/-- R285, R318: a reduction or scan: the results of the active lanes and their exceptions. -/
def memberArith (fmt : Word) (t : Ty) (d : Nat) (act : Word) (f : Nat → Nat × Exc) : Except Trap Pend :=
  let r := (lanesOf act).map (fun l => (l, f l))
  match (if t = .f32 then arithTrap fmt (r.map (fun e => (e.1, e.2.2))) else none) with
  | some tr => .error tr
  | none => .ok { regs := keyed (r.map (fun e => (e.1, [(d, w32 e.2.1)]))) }

/-- R316 to R318: a member-masked instruction performed for a group, with what its lanes supplied. -/
def memberPerform (i : Instr) (fmt : Word) (named : Word) (l : List (Frag × Arrival)) : Except Trap Pend :=
  let act := gatheredAct l
  let a := memberVal l
  let num (n : Nat) : Nat := (a n).toNat % 2 ^ 32
  let mem := (lanesOf (act &&& named)).map num
  match i with
  | .shfl mode o => .ok (memberRegs o.d.toNat act (fun n => shflVal mode named a ((memberValB l n).toNat % 2 ^ 32) n))
  | .vote op o =>
    let ones := maskOf (fun n => bit act n && bit named n && (a n != 0))
    match op with
    | .any => .ok (memberPreds (fld o.d 0 3) act (ones != 0))
    | .all => .ok (memberPreds (fld o.d 0 3) act (ones == act &&& named))
    | .ballot => .ok (memberRegs o.d.toNat act (fun _ => ones.setWidth 64))
  | .redux op o =>
    let r := combine op o.ty (fEnv fmt) mem
    memberArith fmt o.ty o.d.toNat act (fun _ => r)
  | .scan op excl o =>
    memberArith fmt o.ty o.d.toNat act (fun n =>
      combine op o.ty (fEnv fmt)
        ((lanesOf (act &&& named)).filter (fun m => decide (m < n) || (!excl && decide (m = n))) |>.map num))
  | _ => .ok {}

/-- R193: the operation of a group all of whose named lanes have arrived is performed, once; of several fragments the
first that gathered gives `fmt` (log entry 122). -/
def State.memberPerformed (s : State) (tid g : Nat) (i : Instr) (l : List (Frag × Arrival)) (named : Word) :
    State :=
  match l with
  | [] => s
  | (f, _) :: _ =>
    match memberPerform i f.fmt named l with
    | .error t => s.memberEnd tid g i l (some t) .ready
    | .ok p =>
      let s := s.modGroup tid g (fun gr => { gr with pend := gr.pend ++ [p] })
      s.memberEnd tid g i l none .ready

/-- R193: whether every named lane of a group has arrived at an instruction. -/
def Team.memberReady (t : Team) (g : Nat) (l : List (Frag × Arrival)) (i : Instr) : Option Word :=
  match t.group? g with
  | none => none
  | some gr =>
    let named := namedLanes (memberMask i) (gatheredAct l) gr.launched
    if !l.isEmpty && named &&& ~~~(gatheredLanes l) == 0 then some named else none

/-- R193: what a fragment's issue delivers for one of its home groups. -/
def arrivalOf (a b : GCtx → Nat → Dword) (gc : GCtx) : Arrival :=
  { group := gc.g.num, lanes := gc.carried, act := gc.act,
    va := (lanesOf gc.carried).map (fun l => (l, a gc l)),
    vb := (lanesOf gc.carried).map (fun l => (l, b gc l)) }

/-- R193: a fragment arrives at a member-masked instruction and is held. -/
def Ctx.arrive (c : Ctx) (a b : GCtx → Nat → Dword) (s : State) : State :=
  let arrs := c.groups.map (arrivalOf a b)
  let s := c.runGroups (fun _ s => (GRes.ok () { c.again with st := .held c.i arrs c.next.pc }, s))
    (fun _ s => s) s
  s.memberFaults c.team.id

/-- R363: a group all of whose named lanes have arrived at an `XCH` waits for its partner. -/
def State.xchArrived (s : State) (tid g : Nat) (o : XOps) (l : List (Frag × Arrival)) : State :=
  match l with
  | [] => s
  | (f, _) :: _ =>
    let n := s.fresh
    let next := match f.st with | .held _ _ next => next | _ => f.pc
    let x : Xch := { seq := n.1, clk := s.clock.clk, tag := o.b.toNat, wide := tyRegs o.ty == 2, role := o.c.toNat % 64,
                     dst := o.d.toNat, act := gatheredAct l,
                     vals := (lanesOf (gatheredAct l)).map (fun n => (n, memberVal l n)), pc := f.pc }
    (n.2.modGroup tid g (fun gr => { gr with xch := some x })).memberEnd tid g (.xch o) l none (.xch next)

/-- R193, R363: what the arrival of every named lane of a group brings. -/
def State.memberArrived (s : State) (tid g : Nat) (i : Instr) (l : List (Frag × Arrival)) (named : Word) : State :=
  match i with
  | .xch o => s.xchArrived tid g o l
  | _ => s.memberPerformed tid g i l named

/-- R193: where the issuing fragment alone carries every named lane, the operation is performed at once. -/
def Ctx.memberBody (c : Ctx) (a b : GCtx → Nat → Dword) (s : State) : State :=
  c.groups.foldl (fun s gc =>
    match s.team? c.team.id with
    | none => s
    | some t =>
      let l := t.gather c.i c.frag.pc gc.g.num
      if l.length = 1 then
        match t.memberReady gc.g.num l c.i with
        | some named => s.memberArrived c.team.id gc.g.num c.i l named
        | none => s
      else s) (c.arrive a b s)

/-- R193: MEMBER_ARRIVAL_COMPLETE: the operations of a group whose named lanes have all arrived. -/
def State.memberComplete (s : State) (tid g : Nat) : State :=
  match s.team? tid with
  | none => s
  | some t =>
    t.frags.foldl (fun s f =>
      match f.st, s.team? tid with
      | .held i _ _, some t =>
        let l := t.gather i f.pc g
        match i, t.memberReady g l i with
        | .mmaJ _, _ => s
        | _, some named => s.memberArrived tid g i l named
        | _, none => s
      | _, _ => s) s

/-- SHFL (R316). -/
def execShfl (mode : ShflMode) (o : XOps) (s : State) : Host.Outcome State Fault Refusal :=
  issue (.shfl mode o) s (fun c => c.memberBody (fun gc l => c.srcA gc 1 l) (fun gc l => c.srcB gc 1 l))

/-- VOTE (R317). -/
def execVote (op : VoteOp) (o : XOps) (s : State) : Host.Outcome State Fault Refusal :=
  issue (.vote op o) s (fun c => c.memberBody
    (fun gc l => w64 (b2n (bit (gc.g.readPred c.free (fld c.o.a 0 3)) l))) (fun _ _ => 0))

/-- REDUX (R318). -/
def execRedux (op : RedOp) (o : XOps) (s : State) : Host.Outcome State Fault Refusal :=
  issue (.redux op o) s (fun c => c.memberBody (fun gc l => c.srcA gc 1 l) (fun _ _ => 0))

/-- SCAN (R318). -/
def execScan (op : RedOp) (excl : Bool) (o : XOps) (s : State) : Host.Outcome State Fault Refusal :=
  issue (.scan op excl o) s (fun c => c.memberBody (fun gc l => c.srcA gc 1 l) (fun _ _ => 0))

/-- MEMBER_ARRIVAL_COMPLETE (R193). -/
def execMemberArrivalComplete (team group : Nat) (s : State) : Host.Outcome State Fault Refusal :=
  event s (fun s => s.memberComplete team group)

end Sys2Proof.Machine
end

