-- ==== Sys2Proof/Machine/Control.lean ====
section
/-! DEFINITION. Control flow: branches, divergent branches and jumps, joins, calls and returns, exits, the
`exec` mask, fences of fetched code (R321 to R332). -/

namespace Sys2Proof.Machine

/-- The address of an instruction plus a signed offset in a word. -/
def offAddr (pc : Dword) (off : Word) : Dword := pc + off.signExtend 64

/-- R48, R322: a home group goes to a target that passes its check, and stops at one that does not; while the target's
page migrates it waits. -/
def Ctx.goTo (c : Ctx) (indirect land : Bool) (target : Dword) (mask : Word) (s : State) : GRes Unit × State :=
  if s.targetHeld c.team.vi c.frag.hm indirect target then (.hold, s)
  else
    let r := s.targetCheck c.team.vi c.core c.frag.hm indirect land target
    match r.1 with
    | some b => (.trap (b.trap target mask), r.2)
    | none => (.ok () { c.next with pc := target }, r.2)

/-- R323: `BRA`, decided once for each home group. -/
def Ctx.braBody (c : Ctx) (s : State) : State :=
  c.runGroups (fun gc s =>
    let taken := (c.o.pred == 0 && !c.o.pneg) || gc.act != 0
    if taken then c.goTo false false (offAddr c.frag.pc c.o.w3) gc.carried s
    else (.ok () c.next, s)) (fun _ s => s) s

/-- R182: a fragment reaches a divergence instruction; a lane without a target falls through. -/
def Ctx.meet (c : Ctx) (target : GCtx → Nat → Option Dword) (join : Dword) (s : State) : State :=
  if c.team.meetsElsewhere c.frag (some c.frag.pc) then
    c.settle (c.groups.map (fun gc => (gc.g.num, GOut.trap { cause := .joinMismatch }))) s
  else
    let act : GLanes := (c.groups.map (fun gc => (gc.g.num, gc.act))).filter (fun e => e.2 != 0)
    let tg := c.groups.flatMap (fun gc => (lanesOf gc.act).filterMap (fun l =>
      (target gc l).map (fun a => (32 * gc.g.num + l, a))))
    let st : FState := .meeting c.i act tg join c.next.pc
    let s := c.runGroups (fun _ s => (GRes.ok () { c.again with st := st }, s)) (fun _ s => s) s
    match (s.team? c.team.id).bind (fun t => t.frag? c.frag.id |>.map (fun f => t.path f)) with
    | some [_] => s.completeMeeting c.team.id c.frag.id
    | _ => s

/-- R324: `BRD`. -/
def Ctx.brdBody (c : Ctx) (s : State) : State :=
  let p := fld c.o.b 0 3
  c.meet (fun gc l =>
    if bit (gc.g.readPred c.free p) l != bit c.o.b 3 then some (offAddr c.frag.pc c.o.w3) else none)
    (offAddr c.frag.pc ((c.o.lit.getD 0).setWidth 32)) s

/-- R326: `JMPI`. -/
def Ctx.jmpiBody (c : Ctx) (s : State) : State :=
  c.meet (fun gc l => some (gc.g.val c.free 2 c.o.a.toNat l)) (offAddr c.frag.pc c.o.w3) s

/-- R184, R325: `JOIN`. -/
def Ctx.joinBody (c : Ctx) (s : State) : State :=
  let bad : Bool :=
    match c.frag.region.bind (fun r => c.team.region? r) with
    | none => true
    | some r => r.jaddr != c.frag.pc || c.team.meetsElsewhere c.frag none
  if bad then c.settle (c.groups.map (fun gc => (gc.g.num, GOut.trap { cause := .joinMismatch }))) s
  else
    let s := c.runGroups (fun _ s => (GRes.ok () { c.again with st := .joined c.word }, s))
      (fun l s => s.modTeam c.team.id (fun t =>
        match c.frag.region with
        | some r => t.modRegion r (fun r => { r with arr := gunion r.arr (l.map (fun e => (e.1.g.num, e.1.carried))) })
        | none => t)) s
    (s.memberFaults c.team.id).closeAll c.team.id

/-- R327: the target that `CALLI` and `RET` take for a home group: the pair A of its lowest carried
lane, or the scalar pair. -/
def Ctx.groupTarget (c : Ctx) (gc : GCtx) : Dword := c.srcA gc 2 (lowBit 0 gc.carried)

/-- R327: `CALL`, `CALLI` and `RET`: a link in every carried lane, and one target for each home group. -/
def Ctx.callBody (c : Ctx) (link indirect land : Bool) (target : GCtx → Dword) (s : State) : State :=
  c.runGroups (fun gc s => c.goTo indirect land (target gc) gc.carried s)
    (c.mapGroups (fun gc _ g =>
      if link then g.writeLanes c.free ((lanesOf gc.carried).map (fun l => (l, destWords c.o.d.toNat 2 c.next.pc)))
      else g)) s

/-- R329: `EXIT`: the active lanes end; what waited for them is checked. -/
def Ctx.exitBody (c : Ctx) (s : State) : State :=
  let s := c.runGroups (fun _ s => c.okNext () s)
    (fun l s => s.modTeam c.team.id (fun t =>
      l.foldl (fun t e => t.exitLanes c.frag.id e.1.g.num e.1.act) t)) s
  (s.memberFaults c.team.id).closeAll c.team.id

/-- R330: `EXECR`: the mask of R181 in every carried lane. -/
def Ctx.execrBody (c : Ctx) (s : State) : State :=
  c.runGroups (fun _ s => c.okNext () s)
    (c.mapGroups (fun gc _ g =>
      g.writeLanes c.free ((lanesOf gc.carried).map (fun l => (l, [(c.o.d.toNat, gc.g.exec &&& gc.carried)]))))) s

/-- R330: `EXECW`: each carried lane takes its bit of its own A. -/
def Ctx.execwBody (c : Ctx) (s : State) : State :=
  c.runGroups (fun _ s => c.okNext () s)
    (c.mapGroups (fun gc _ g =>
      let on := maskOf (fun l => bit gc.carried l && bit (c.srcA gc 1 l) l)
      { g with exec := (g.exec &&& ~~~gc.carried) ||| (on &&& gc.g.alive) })) s

/-- R331: `YIELD`: key 4 passes the fragment over in the next clk. -/
def Ctx.yieldBody (c : Ctx) (s : State) : State :=
  let s := c.runGroups (fun _ s => c.okNext () s) (fun _ s => s) s
  s.modTeam c.team.id (fun t => { t with frags := t.frags.map (fun f =>
    if f.id = c.frag.id then { f with yielded := true } else f) })

/-- R332: `FFENCE`: the group's stores reach their homes, and the fragment fetches anew. -/
def Ctx.ffenceBody (c : Ctx) (s : State) : State :=
  let s := s.drainVi c.core c.team.vi
  let s := c.runGroups (fun _ s => c.okNext () s) (fun _ s => s) s
  s.refetch c.core c.frag.way c.team.id c.frag.id

/-- An instruction without effect. -/
def Ctx.nopBody (c : Ctx) (s : State) : State := c.runGroups (fun _ s => c.okNext () s) (fun _ s => s) s

/-- BRA (R323). -/
def execBra (o : XOps) (s : State) : Host.Outcome State Fault Refusal :=
  issue (.bra o) s (fun c => c.braBody)

/-- BRD (R324). -/
def execBrd (o : XOps) (s : State) : Host.Outcome State Fault Refusal :=
  issue (.brd o) s (fun c => c.brdBody)

/-- JOIN (R325). -/
def execJoin (o : SOps) (s : State) : Host.Outcome State Fault Refusal :=
  issue (.join o) s (fun c => c.joinBody)

/-- JMPI (R326). -/
def execJmpi (o : XOps) (s : State) : Host.Outcome State Fault Refusal :=
  issue (.jmpi o) s (fun c => c.jmpiBody)

/-- CALL (R327). -/
def execCall (o : XOps) (s : State) : Host.Outcome State Fault Refusal :=
  issue (.call o) s (fun c => c.callBody true false false (fun _ => offAddr c.frag.pc c.o.w3))

/-- CALLI_SHORT (R327). -/
def execCalliShort (o : SOps) (s : State) : Host.Outcome State Fault Refusal :=
  issue (.calliShort o) s (fun c => c.callBody true true true c.groupTarget)

/-- CALLI (R327). -/
def execCalli (o : XOps) (s : State) : Host.Outcome State Fault Refusal :=
  issue (.calli o) s (fun c => c.callBody true true true c.groupTarget)

/-- RET_SHORT (R327). -/
def execRetShort (o : SOps) (s : State) : Host.Outcome State Fault Refusal :=
  issue (.retShort o) s (fun c => c.callBody false true false c.groupTarget)

/-- RET (R327). -/
def execRet (o : XOps) (s : State) : Host.Outcome State Fault Refusal :=
  issue (.ret o) s (fun c => c.callBody false true false c.groupTarget)

/-- LAND (R328). -/
def execLand (o : SOps) (s : State) : Host.Outcome State Fault Refusal :=
  issue (.land o) s (fun c => c.nopBody)

/-- EXIT_SHORT (R329). -/
def execExitShort (o : SOps) (s : State) : Host.Outcome State Fault Refusal :=
  issue (.exitShort o) s (fun c => c.exitBody)

/-- EXIT (R329). -/
def execExit (o : XOps) (s : State) : Host.Outcome State Fault Refusal :=
  issue (.exit o) s (fun c => c.exitBody)

/-- EXECR_SHORT (R330). -/
def execExecrShort (o : SOps) (s : State) : Host.Outcome State Fault Refusal :=
  issue (.execrShort o) s (fun c => c.execrBody)

/-- EXECR (R330). -/
def execExecr (o : XOps) (s : State) : Host.Outcome State Fault Refusal :=
  issue (.execr o) s (fun c => c.execrBody)

/-- EXECW_SHORT (R330). -/
def execExecwShort (o : SOps) (s : State) : Host.Outcome State Fault Refusal :=
  issue (.execwShort o) s (fun c => c.execwBody)

/-- EXECW (R330). -/
def execExecw (o : XOps) (s : State) : Host.Outcome State Fault Refusal :=
  issue (.execw o) s (fun c => c.execwBody)

/-- NOP (R331). -/
def execNop (o : SOps) (s : State) : Host.Outcome State Fault Refusal :=
  issue (.nop o) s (fun c => c.nopBody)

/-- YIELD (R331). -/
def execYield (o : SOps) (s : State) : Host.Outcome State Fault Refusal :=
  issue (.yield o) s (fun c => c.yieldBody)

/-- FFENCE (R332). -/
def execFfence (o : SOps) (s : State) : Host.Outcome State Fault Refusal :=
  issue (.ffence o) s (fun c => c.ffenceBody)

/-- DIVERGENCE_MEETING_COMPLETE (R182). -/
def execDivergenceMeetingComplete (team frag : Nat) (s : State) : Host.Outcome State Fault Refusal :=
  event s (fun s => s.completeMeeting team frag)

end Sys2Proof.Machine
end

