-- ==== Sys2Proof/Machine/Boundary.lean ====
section
/-! DEFINITION. The boundary before an instruction: the stops of R450 that come before decode, the fetch, and
the instruction that the selected fragment is to execute. -/

namespace Sys2Proof.Machine

/-- What the boundary comes to: the step ends here, or an instruction is executed. -/
inductive Front where
  | stop (s : State)
  | run (i : Instr) (s : State)

/-- R463: the watchdog limit of a VI in clk; 0: disabled. -/
def State.wdogLimit (s : State) (vi : Nat) : Nat := fld (s.vi vi).wdog 0 16 * 65536

/-- R453: the lowest enabled breakpoint register that matches an address. -/
def State.brkHit (s : State) (vi : Nat) (skip : Option Nat) (pc : Dword) : Option Nat :=
  (List.range 4).find? (fun n =>
    let r := zget n (s.vi vi).brk
    bit r 0 && fld r 2 54 == fld pc 2 54 && fld pc 56 8 == 0 && skip != some n)

/-- R450 steps 2 and 3: what stops a group at the boundary before its next instruction. -/
def State.boundaryTrap (s : State) (t : Team) (f : Frag) (g : Group) : Option Trap :=
  let limit := s.wdogLimit t.vi
  if limit ≠ 0 ∧ limit ≤ g.wdog then some { cause := .watchdog }
  else if g.notice && !f.hm && bit (s.vi t.vi).trapCfg 0 && bit (s.vi t.vi).trapCfg 1 then some { cause := .throttleNotice }
  else (s.brkHit t.vi g.skip f.pc).map (fun n => { cause := .breakpoint, hw := true, detail := n })

/-- The stops of R450 before decode, for the home groups a fragment carries. -/
def State.boundary (s : State) (t : Team) (f : Frag) : List (Nat × Trap) :=
  f.lanes.filterMap (fun e => (t.group? e.1).bind (fun g => (s.boundaryTrap t f g).map (fun x => (e.1, x))))

/-- R455: the first word of the instruction at which a fragment stands: where it has not been fetched, what a fetch
returns, and an open value where that would fail. -/
def State.wordAt (s : State) (t : Team) (f : Frag) : Word :=
  if f.st == .ready then
    match (s.fetchWord t.vi t.core f.hm f.pc).1 with
    | .ok (w, _) => w
    | .error _ => (Config.freeWord s.free 12).setWidth 32
  else f.word

/-- R129, R450: nothing of the team issues: its core is halted or saves a team, it is being saved itself, or it has
ended. -/
def State.barred (s : State) (t : Team) : Bool :=
  (s.core t.core).dbg.halt || !t.onCore || t.dead
    || s.teams.any (fun e => e.2.core == t.core && e.2.beingSaved)

/-- R190: the selected fragment cannot issue in this clk, so it has not issued (log entry 108). -/
def State.cannotIssue (s : State) (t : Team) (f : Frag) : State :=
  { (s.modTeam t.id (fun t => t.setFrag { f with blocked := true })).unissue t.core f.way with cur := none }

/-- R255, R269: the cause of a word that does not decode: a write of a read-only trap register by a handler is refused,
by step 4, before its type is. -/
def decodeCause (w : Word) (hm : Bool) (e : Cause) : Cause :=
  let d := fld w 10 8
  if e = .typeInvalid ∧ hm ∧ fld w 3 7 = 0x7C ∧ srTrap d ∧ srWritable d = false then .reservedField else e

/-- R450, R35, R255: the selected fragment at the boundary: a stop, a fetch that fails, a word that does not
decode, or the instruction. -/
def State.front (s : State) (c : Issuer) : Front :=
  let s : State := { s with out := [] }
  let idle : State := { s with cur := none }
  match s.team? c.team with
  | none => .stop idle
  | some t =>
    match t.frag? c.frag with
    | none => .stop idle
    | some f =>
      if s.barred t || f.st != .ready then .stop idle
      else if t.lost then .stop (sealStep s (idle.endTeam t.id .uncorrectable f.pc))
      else
        let b := s.boundary t f
        if !b.isEmpty then
          let mark (g : Group) : Group := { g with notice := false, exempt := 64 }
          let s1 := b.foldl (fun s e =>
            if e.2.cause = .throttleNotice then
              (s.modGroup t.id e.1 mark).modVid t.vi (fun d => { d with notices := d.notices + 1 })
            else s) { idle with free := s.free + 1 }
          .stop (sealStep s (s1.settle t.id f (s.wordAt t f) s.free (f.lanes.map (fun e =>
            match kfind e.1 b with
            | some x => (e.1, GOut.trap x)
            | none => (e.1, GOut.hold)))))
        else
          let r := s.fetchInstr t f
          match r.1 with
          | .hold => .stop (sealStep s (s.cannotIssue t f))
          | .fault d =>
            .stop (sealStep s ({ r.2 with cur := none, free := s.free + 1 }.trapAll t.id f 0 s.free
              { cause := .fetchFault, detail := d }))
          | .ok ws =>
            match decodeList ws with
            | .error e =>
              .stop (sealStep s ((({ r.2 with cur := none, free := s.free + 1 }).issued t f t.core).trapAll t.id f
                (nth 0 ws 0) s.free { cause := decodeCause (nth 0 ws 0) f.hm e }))
            | .ok i => .run i (sealStep s r.2)

end Sys2Proof.Machine
end

