-- ==== Sys2Proof/Machine/MemInstr.lean ====
section
/-! DEFINITION. Loads, stores, prefetches, tile memory, accumulators, the tag table, atomics and fences
(R29 to R34, R55 to R60, R70, R71, R77 to R95, R125, R126, R139, R174, R335 to R345). -/

namespace Sys2Proof.Machine

/-! ### Addresses and their checks -/

/-- R336: the address of a lane: the window byte is kept, the offset wraps in 56 bits. -/
def addrPlus (base : Dword) (off : Int) : Dword :=
  setFld base 0 56 (wrapInt 56 ((fld base 0 56 : Int) + off))

/-- R335: word 3 of an addressed access: scope, order, policy, and the offset in units of the size. -/
def Ctx.scope (c : Ctx) : Nat := fld c.o.w3 0 3
def Ctx.order (c : Ctx) : Nat := fld c.o.w3 3 3
def Ctx.policy (c : Ctx) : Nat := fld c.o.w3 6 2
def Ctx.offs (c : Ctx) : Int := sval 22 (fld c.o.w3 10 22)

/-- R336: `Addr(l)`. -/
def Ctx.addr (c : Ctx) (gc : GCtx) (l : Nat) : Dword :=
  addrPlus (c.srcA gc 2 l) (c.offs * (accBytes c.o : Int))

/-- R114: the token class of a team's accesses. -/
def Team.cls (t : Team) : Nat := if t.deadline then 0 else 1

/-- R453: a watchpoint that an access to the global window overlaps. -/
def watchHit (r : Dword) (write : Bool) (addr : Dword) (size : Nat) : Bool :=
  let len := 2 ^ (fld r 2 4 + 2)
  let base := fld r 6 50 * 64 / len * len
  let a := fld addr 0 56
  bit r 0 && (write || !bit r 1) && fld addr 56 8 == 0 && decide (a < base + len) && decide (base < a + size)

/-- R450 step 6: the lowest watchpoint that some lane matches, with the lanes. -/
def State.watched (s : State) (vi : Nat) (skip : Option Nat) (write : Bool) (size : Nat)
    (lanes : List (Nat × Dword)) : Option (Nat × Word) :=
  ((List.range 4).filterMap (fun n =>
    let r := zget n (s.vi vi).wch
    let m := maskOf (fun l => lanes.any (fun e => e.1 == l && watchHit r write e.2 size))
    if m ≠ 0 ∧ skip ≠ some (4 + n) then some (n, m) else none)).head?

/-- R57, R60: of the causes that lanes met, the highest, with its lanes and the lowest lane's address and MALF bit (log
entry 98). -/
def worstTrap (l : List (Nat × Dword × XFault)) : Option Trap :=
  match leastBy (fun e => causeRank e.2.2.cause) l with
  | none => none
  | some w =>
    let same := l.filter (fun e => e.2.2.cause = w.2.2.cause)
    match same with
    | [] => none
    | f :: _ =>
      some { cause := w.2.2.cause, malf := f.2.2.malf, addr := some f.2.1,
             mask0 := maskOf (fun l => same.any (fun e => e.1 == l)) }

/-- R29 to R31, R114: an access of the instruction to a page, as its slice sees it. -/
def Ctx.ask (c : Ctx) (policy : Nat) (x : XOk) : Ask := x.ask c.team.vi c.team.cls policy

/-- R120, R123: the access finds no free entry; a store to a CACHED page enters the write buffer instead (R173). -/
def Ctx.stalled (c : Ctx) (kind : AKind) (s : State) (t : Tgt) : Bool :=
  match t with
  | .glob x => !(kind == .store && x.cached) && !(kind == .prefetch && x.uncached) && s.noEntry (c.ask 0 x) x
  | _ => false

/-- R56: the translated accesses of a core in flight to their homes: buffered stores, and those that wait for a ticket;
every other is performed in its step (log entry 25).  At most 64 groups of a core await translation, so the limit of 256
is never met. -/
def State.inFlight (s : State) (core : Nat) : Nat :=
  (s.core core).wbuf.length + (s.tickReq.filter (fun r => (s.team? r.team).any (fun t => t.core == core))).length

/-- R56: some more accesses would pass the 4,096 that a core holds in flight. -/
def Ctx.flightFull (c : Ctx) (s : State) (l : List Tgt) : Bool :=
  decide (4096 < s.inFlight c.core + (l.filter (fun t => match t with | .glob _ => true | _ => false)).length)

/-- R25: the table reads of the translations that passed, where another lane's stops the group. -/
def Ctx.walked (c : Ctx) (l : List Tgt) (s : State) : State :=
  l.foldl (fun s t =>
    match t with
    | .glob x => s.walkReads c.team.vi x.etag (x.cache.map (fun e => e.2.1))
    | _ => s) s

/-- R56, R57, R120: every lane of a group's access is translated before any is performed; while a page migrates or a
queue is full the instruction waits.  Each lane that meets a violation writes an entry of the log, in the order of the
lanes, whichever cause the group stops for (log entry 98). -/
def Ctx.locateAll (c : Ctx) (gc : GCtx) (kind : AKind) (size : Nat) (lanes : List (Nat × Dword)) (s : State) :
    GRes (List (Nat × Dword × Tgt)) × State :=
  let r := lanes.map (fun e => (e.1, e.2, s.locate c.team gc.g e.2 kind size))
  let bad := r.filterMap (fun e => match e.2.2 with | .error f => some (e.1, e.2.1, f) | .ok _ => none)
  let good := r.filterMap (fun e => match e.2.2 with | .ok t => some (e.1, e.2.1, t) | .error _ => none)
  if r.any (fun e => s.heldTgt e.2.2) then (.hold, s)
  else
    match worstTrap bad with
    | some t =>
      let s := c.walked (good.map (fun e => e.2.2)) s
      (.trap t, bad.foldl (fun s e => s.logViol c.team.vi e.2.1 (violKind kind) c.core e.2.2) s)
    | none =>
      match s.watched c.team.vi gc.g.skip (kind == .store || kind == .atomic) size lanes with
      | some (n, m) => (.trap { cause := .watchpoint, hw := true, detail := n, mask0 := m }, s)
      | none =>
        if good.any (fun e => c.stalled kind s e.2.2) || c.flightFull s (good.map (fun e => e.2.2)) then (.hold, s)
        else (.ok good c.next, s)

/-! ### One access of one lane -/

/-- R90: private bytes of a lane. -/
def Group.privRead (g : Group) (l off n : Nat) : List Byte :=
  (List.range n).map (fun i => zget (4096 * l + off + i) g.priv)
/-- R89, R100: private bytes written. -/
def Group.privWrite (g : Group) (l off : Nat) (bs : List Byte) : Group :=
  let a := 4096 * l + off
  { g with
    priv := ((List.range bs.length).zip bs).foldl (fun m e => zset (a + e.1) e.2 m) g.priv
    privW := sinsert (16 * l + off / 256) g.privW
    privPoison := g.privPoison.filter (fun w => !(decide (a ≤ 8 * w) && decide (8 * w + 8 ≤ a + bs.length))) }

/-- R31, R32: the policy of an access is counted. -/
def XOk.counted (x : XOk) (policy : Nat) : Bool := x.uncached && (policy == 1 || policy == 2)

/-- R31, R123: a load of a compressed page, served from the L1 or at the decoding slice; none: poison.  The L1 takes the
decoded line as it would take an ordinary one. -/
def State.corePack (s : State) (c : Nat) (r : Ask) (x : XOk) (addr : Dword) (l1 keep : Bool) (n : Nat) :
    Option (List Byte) × State :=
  let key := decodedAddr x.pack (x.off / 128)
  let old : Option L1Line := if l1 then (s.core c).l1Line r.vi key else none
  match old with
  | some l =>
    (if l.poisoned (key + x.off % 128) n then none else some (l.read (key + x.off % 128) n),
     if keep then s else (s.modCore c (fun k => k.l1Drop r.vi key)).markDecoded r x.pack (x.off / 128))
  | none =>
    let y := s.packAt r x addr n
    let line := if keep then s.packBytes r.vi (s.keyTag x.leaf) x.pack x.psz (leafLen x.leaf x.psz) (x.off / 128 * 128) 128 else none
    (y.1,
     match line with
     | some bs =>
       y.2.modCore c (fun k => k.l1Take
         { vi := r.vi, line := key, key := s.keyTag x.leaf, cells := ((List.range 128).zip bs).foldl (fun m e => zset (key + e.1) e.2 m) [] })
     | none => y.2.modCore c (fun k => k.l1Drop r.vi key))

/-- R31, R174: the bytes a lane loads; none: poison (R58).  `home`: an acquire at cluster scope or
wider reads at the home. -/
def Ctx.loadOne (c : Ctx) (gc : GCtx) (home : Bool) (size lane : Nat) (addr : Dword) (t : Tgt) (s : State) :
    Option (List Byte) × State :=
  match t with
  | .scr tid off =>
    match s.team? tid with
    | none => (some (List.replicate size 0), s)
    | some u => (if u.scrPoisoned off size then none else some (u.scrRead off size), s)
  | .priv off =>
    let a := 4096 * lane + off
    (if gc.g.privPoison.any (fun w => decide (8 * w < a + size) && decide (a < 8 * w + 8)) then none
     else some (gc.g.privRead lane off size), s)
  | .regw off =>
    let word (r : Nat) : List Byte := leBytes 4 (gc.g.readReg c.free r lane).toNat
    let rs := (List.range ((off + size - 1) / 4 - off / 4 + 1)).map (fun i => off / 4 + i)
    (if rs.any (fun r => smem (32 * r + lane) gc.g.regPoison) then none
     else some (((rs.flatMap word).drop (off % 4)).take size), s)
  | .glob x =>
    let s := s.touchLeaf c.team.vi .load x
    let r := c.ask c.policy x
    let l1 := x.cached && !home && c.policy != 3
    let keep := x.cached && c.policy != 3 && c.policy != 2
    if x.packed then s.corePack c.core r x addr l1 keep size
    else
      let s := if home then s.drainLine c.core x.pa else s
      s.coreRead c.core r (s.keyTag x.leaf) l1 keep (32 * gc.g.num + lane) x.pa size

/-- R30, R31, R173: a lane's store to a global page: into the write buffer where the page is CACHED, else to its
target. -/
def Ctx.storeGlob (c : Ctx) (x : XOk) (bs : List Byte) (s : State) : State :=
  let s := s.touchLeaf c.team.vi .store x
  let tag := s.keyTag x.leaf
  if x.cached then
    s.modCore c.core (fun k =>
      { k with
        wbuf := k.wbuf ++ [{ vi := c.team.vi, pa := x.pa, tag := tag, evict := c.policy == 1, cls := c.team.cls,
                             bytes := bs }]
        l1 := if c.policy = 2 then k.l1.filter (fun l => l.line != x.pa / 128 * 128) else k.l1 })
  else (s.drainLine c.core x.pa).homeWrite (some c.core) (c.ask (if c.policy = 2 then 0 else c.policy) x) tag x.pa bs

/-- R70, R71: a lane's store to its own registers, pending until the next marker: whole registers, or the bytes of one
that it writes (log entry 112). -/
def Group.storeRegw (g : Group) (lane off : Nat) (bs : List Byte) : Group :=
  let n := bs.length
  let p : Pend :=
    if n < 4 then
      { part := [(32 * (off / 4) + lane, (maskBits 32 (8 * (off % 4)) (8 * n), w32 (leNat bs * 2 ^ (8 * (off % 4)))))] }
    else { regs := ((List.range (n / 4)).zip (bytesWords bs)).map (fun e => (32 * (off / 4 + e.1) + lane, e.2)) }
  { g with pend := g.pend ++ [p] }

/-- A lane's store (R77, R89, R173). -/
def Ctx.storeOne (c : Ctx) (gc : GCtx) (lane : Nat) (t : Tgt) (bs : List Byte) (s : State) : State :=
  match t with
  | .scr tid off => s.modTeam tid (fun u => u.scrWrite off bs)
  | .priv off => s.modGroup c.team.id gc.g.num (fun g => g.privWrite lane off bs)
  | .regw off => s.modGroup c.team.id gc.g.num (fun g => g.storeRegw lane off bs)
  | .glob x => c.storeGlob x bs s

/-! ### Order among lanes (R139) -/

/-- Where an access lands, as one number, so that lanes that meet can be told. -/
def Tgt.key (gnum lane : Nat) : Tgt → Nat
  | .glob x => 8 * x.pa
  | .scr t off => 8 * (t * 2 ^ 20 + off) + 1
  | .priv off => 8 * ((32 * gnum + lane) * 4096 + off) + 2
  | .regw off => 8 * ((32 * gnum + lane) * 4096 + off) + 3

/-- Whether a list of numbers has a repeat. -/
def repeats : List Nat → Bool
  | [] => false
  | x :: xs => smem x xs || repeats xs

/-- R139: the lanes of one instruction in the order they are performed: a free order where two of them
meet. -/
def freeOrder {α : Type} (fr : Nat) (key : α → Nat) (l : List (Nat × α)) : List (Nat × α) :=
  if repeats (l.map (fun e => key e.2)) then sortBy (fun e => Config.freeRank fr e.1) l else l

/-- All lanes of the groups that passed, with their group, in one list numbered by group and lane. -/
def allLanes (l : List (GCtx × List (Nat × Dword × Tgt))) : List (Nat × (GCtx × Nat × Dword × Tgt)) :=
  l.flatMap (fun e => e.2.map (fun x => (32 * e.1.g.num + x.1, (e.1, x.1, x.2.1, x.2.2))))

/-! ### Ordering of an access (R146, R174) -/

/-- R174: what a release of a scope does first. -/
def State.release (s : State) (c vi scope : Nat) : State := if 2 ≤ scope then s.drainVi c vi else s
/-- R174: what an acquire of a scope does last. -/
def State.acquire (s : State) (c vi scope : Nat) : State := if 2 ≤ scope then s.dropL1 c vi else s
/-- R143: whether an order releases or acquires. -/
def releases (order : Nat) : Bool := order == 2 || order == 3 || order == 4
def acquires (order : Nat) : Bool := order == 1 || order == 3 || order == 4

/-- R126, R127: the home that counts the `.sc` operations on a place: a slice, or a core's store. -/
def State.tgtHome (s : State) (t : Team) (x : Tgt) : Nat :=
  match x with
  | .glob x => 1 + s.home x.pa (s.partOf t.vi)
  | .scr tid _ => 145 + (match s.team? tid with | some u => u.core | none => t.core)
  | _ => 145 + t.core

/-- R32: an access whose policy is counted, once for each home group. -/
def State.hint (s : State) (c : Ctx) (l : List (GCtx × List (Nat × Dword × Tgt))) (all : Bool) : State :=
  l.foldl (fun s e =>
    if e.2.any (fun x => match x.2.2 with
        | .glob x => if all then x.uncached else x.counted c.policy
        | _ => false) then
      (s.modGroup c.team.id e.1.g.num (fun g => g.perfAdd 5 1)).modVid c.team.vi (fun d =>
        { d with hintdeg := min (d.hintdeg + 1) 0xFFFFFFFF })
    else s) s

/-! ### Loads and stores (R338) -/

/-- R336: the words a loaded value writes at D. -/
def loadWords (t : Ty) (d : Nat) (bs : List Byte) : List (Nat × Word) :=
  let n := bs.length
  let v := leNat bs
  if n = 1 then [(d, if t = .s8 then w32 (wrapInt 32 (sval 8 v)) else w32 v)]
  else if n = 2 then [(d, if t = .s16 then w32 (wrapInt 32 (sval 16 v)) else w32 v)]
  else ((List.range (n / 4)).zip (bytesWords bs)).map (fun e => (d + e.1, e.2))

/-- R58: the results of a group's loads: all of its destinations, or, where some lane met poison, none
and the trap that the next marker raises. -/
def loadPend (l : List (Nat × Dword × Option (List Byte))) (words : List Byte → List (Nat × Word)) : Option Pend :=
  let bad := l.filter (fun e => e.2.2.isNone)
  match bad with
  | [] =>
    if l.isEmpty then none
    else some { regs := keyed (l.filterMap (fun e => e.2.2.map (fun b => (e.1, words b)))) }
  | e :: _ =>
    some { poison := some { cause := .poisonRead, addr := some e.2.1,
                            mask0 := maskOf (fun n => bad.any (fun x => x.1 == n)) } }

/-- A pending result added to a group. -/
def State.pendTo (s : State) (tid g : Nat) (p : Option Pend) : State :=
  match p with
  | none => s
  | some p => s.modGroup tid g (fun gr => { gr with pend := gr.pend ++ [p] })

/-- The loads of the groups that passed. -/
def Ctx.loadAll (c : Ctx) (home : Bool) (size : Nat) (l : List (GCtx × List (Nat × Dword × Tgt)))
    (words : GCtx → List (Nat × Dword × Option (List Byte)) → Option Pend) (s : State) : State :=
  l.foldl (fun s e =>
    let r := e.2.foldl (fun (acc : List (Nat × Dword × Option (List Byte)) × State) x =>
      let y := c.loadOne e.1 home size x.1 x.2.1 x.2.2 acc.2
      (acc.1 ++ [(x.1, x.2.1, y.1)], y.2)) ([], s)
    r.2.pendTo c.team.id e.1.g.num (words e.1 r.1)) s

/-- R338: `LD`. -/
def Ctx.ldBody (c : Ctx) (s : State) : State :=
  let size := accBytes c.o
  let acq := acquires c.order
  c.runGroups
    (fun gc s => c.locateAll gc .load size ((lanesOf gc.act).map (fun l => (l, c.addr gc l))) s)
    (fun l s =>
      let s := c.loadAll (acq && decide (2 ≤ c.scope)) size l
        (fun _ r => loadPend r (loadWords c.o.ty c.o.d.toNat)) (s.hint c l false)
      if acq then s.acquire c.core c.team.vi c.scope else s) s

/-- R338: `LDU`: one access for each home group, by its lowest active lane. -/
def Ctx.lduBody (c : Ctx) (s : State) : State :=
  let size := accBytes c.o
  let acq := acquires c.order
  c.runGroups
    (fun gc s => c.locateAll gc .load size (((lanesOf gc.act).take 1).map (fun l => (l, c.addr gc l))) s)
    (fun l s =>
      let s := c.loadAll (acq && decide (2 ≤ c.scope)) size l
        (fun gc r => loadPend (r.flatMap (fun e =>
            match e.2.2 with
            | none => [e]
            | some _ => (lanesOf gc.act).map (fun n => (n, e.2.1, e.2.2)))) (loadWords c.o.ty c.o.d.toNat))
        (s.hint c l false)
      if acq then s.acquire c.core c.team.vi c.scope else s) s

/-- R336: the bytes a lane stores: the register operand D. -/
def Ctx.storeBytes (c : Ctx) (gc : GCtx) (size l : Nat) : List Byte :=
  ((List.range (accRegs c.o)).flatMap (fun i =>
    leBytes 4 (gc.g.readReg c.free (c.o.d.toNat + i) l).toNat)).take size

/-- R139: of the lanes that store to one place, the last in the order: they make one write. -/
def onePer {α : Type} (key : α → Nat) : List α → List α
  | [] => []
  | x :: xs => if xs.any (fun y => key y == key x) then onePer key xs else x :: onePer key xs

/-- R139: the stores of the groups that passed, one after another; lanes that address the same bytes make one write. -/
def Ctx.storeAll (c : Ctx) (bytes : GCtx → Nat → List Byte) (l : List (GCtx × List (Nat × Dword × Tgt)))
    (s : State) : State :=
  let key (e : GCtx × Nat × Dword × Tgt) : Nat := e.2.2.2.key e.1.g.num e.2.1
  (onePer (fun e => key e.2) (freeOrder c.free key (allLanes l))).foldl
    (fun s e => c.storeOne e.2.1 e.2.2.1 e.2.2.2.2 (bytes e.2.1 e.2.2.1) s) s

/-- R338: `ST`. -/
def Ctx.stBody (c : Ctx) (s : State) : State :=
  let size := accBytes c.o
  c.runGroups
    (fun gc s => c.locateAll gc .store size ((lanesOf gc.act).map (fun l => (l, c.addr gc l))) s)
    (fun l s =>
      let s := if releases c.order && !(allLanes l).isEmpty then s.release c.core c.team.vi c.scope else s
      c.storeAll (fun gc n => c.storeBytes gc size n) l (s.hint c l false)) s

/-- R31, R122, R338: the prefetch of one lane: dropped where it would fault, nothing on an uncached page, else
the line comes to its slice, which decodes its block on a compressed page, and into the L1 where the policy and the
page allow it. -/
def Ctx.prefOne (c : Ctx) (gc : GCtx) (lane : Nat) (s : State) : State :=
  let a := c.addr gc lane
  match s.locate c.team gc.g a .prefetch (accBytes c.o) with
  | .error f => s.logViol c.team.vi a 7 c.core f
  | .ok (.glob x) =>
    let s := s.walkReads c.team.vi x.etag (x.cache.map (fun e => e.2.1))
    let r := c.ask c.policy x
    let keep := x.cached && c.policy != 3 && c.policy != 2
    if x.uncached then s
    else if x.packed then (s.corePack c.core r x a false keep 1).2
    else if keep then (s.coreRead c.core r (s.keyTag x.leaf) false true 0 x.pa 1).2
    else (s.homeRead r (s.keyTag x.leaf) x.pa 1).2
  | .ok _ => s

/-- R48, R120: a prefetch waits while its page migrates and while it finds no free entry. -/
def Ctx.prefCheck (c : Ctx) (gc : GCtx) (s : State) : GRes (List (Nat × Dword × Tgt)) × State :=
  let r := (lanesOf gc.act).map (fun n => (n, c.addr gc n, s.locate c.team gc.g (c.addr gc n) .prefetch (accBytes c.o)))
  let good := r.filterMap (fun e => match e.2.2 with | .ok t => some (e.1, e.2.1, t) | .error _ => none)
  if r.any (fun e => s.heldTgt e.2.2) || good.any (fun e => c.stalled .prefetch s e.2.2) then (.hold, s)
  else (.ok good c.next, s)

/-- R338: `PREF`. -/
def Ctx.prefBody (c : Ctx) (s : State) : State :=
  c.runGroups c.prefCheck
    (fun l s =>
      let s := s.hint c l true
      l.foldl (fun s e => (lanesOf e.1.act).foldl (fun s n => c.prefOne e.1 n s) s) s) s

/-! ### Tile memory (R94, R95, R339) -/

/-- R95: the offset of a tile's record; none where the coordinates are out of range. -/
def Binding.record (b : Binding) (view strip tx ty : Nat) : Option Nat :=
  if bit (w32 b.vmask) view && decide (strip < b.strips) && decide (tx < b.tx) && decide (ty < b.ty) then
    let vr := popc (w32 (b.vmask % 2 ^ view))
    some (b.base + (2 + b.natt) * 1024 * (((vr * b.strips + strip) * b.ty + ty) * b.tx + tx))
  else none

/-- R339: the scratch offset of a lane's tile access. -/
def tileOffset (b : Binding) (a s : Word) : Option Nat :=
  if fld a 28 4 ≠ 0 ∨ fld s 8 24 ≠ 0 then none
  else
    match b.record (fld a 0 4) (fld a 4 5) (fld a 9 8) (fld a 17 8) with
    | some r => if fld a 25 3 < 2 + b.natt then some (r + 0x400 * fld a 25 3 + 4 * (16 * fld s 4 4 + fld s 0 4)) else none
    | none => none

/-- R339: the checks of `LDT` and `STT`. -/
def Ctx.tileCheck (c : Ctx) (gc : GCtx) (s : State) : GRes (List (Nat × Dword × Tgt)) × State :=
  if gc.act = 0 then (.ok [] c.next, s)
  else
    match c.team.binding with
    | none => (.trap { cause := .tileNotBound }, s)
    | some b =>
      let r := (lanesOf gc.act).map (fun l =>
        (l, tileOffset b ((c.srcA gc 1 l).setWidth 32) ((c.srcB gc 1 l).setWidth 32)))
      let bad := r.filter (fun e => e.2.isNone)
      if bad.isEmpty then
        (.ok (r.map (fun e => (e.1, w64 (0xF0 * 2 ^ 56 + e.2.getD 0), Tgt.scr c.team.id (e.2.getD 0)))) c.next, s)
      else (.trap { cause := .tileRange, mask0 := maskOf (fun n => bad.any (fun e => e.1 == n)) }, s)

/-- R339: `LDT`. -/
def Ctx.ldtBody (c : Ctx) (s : State) : State :=
  c.runGroups c.tileCheck
    (fun l s => c.loadAll false 4 l (fun _ r => loadPend r (loadWords .b32 c.o.d.toNat)) s) s

/-- R339: `STT`. -/
def Ctx.sttBody (c : Ctx) (s : State) : State :=
  c.runGroups c.tileCheck
    (fun l s => c.storeAll (fun gc n => leBytes 4 (gc.g.readReg c.free c.o.d.toNat n).toNat) l s) s

/-! ### Accumulators (R91 to R93, R340) -/

/-- R92: the key of an element of a tile. -/
def accKey (tile row col : Nat) : Nat := 16384 * tile + 128 * row + col
/-- R93: an element; a row that has not been written reads +0.0. -/
def Team.accGet (t : Team) (tile row col : Nat) : Word := zget (accKey tile row col) t.acc
/-- R93, R100: an element written: its row becomes written, its poison is cleared. -/
def Team.accPut (t : Team) (tile row col : Nat) (v : Word) : Team :=
  { t with acc := zset (accKey tile row col) v t.acc, accW := sinsert (128 * tile + row) t.accW,
           accPoison := sdel (accKey tile row col) t.accPoison }

/-- R144, R161: a group may still read the old value of an element: nothing orders the command before it, and it has
neither read the command's value or a later one nor written the element. -/
def AccOld.open (o : AccOld) (g tile row col : Nat) : Bool :=
  o.row == 128 * tile + row && !o.seen.contains (.group g) && !o.past.contains (.group g, col)

/-- R12, R161: the old rows an element may be read from, the oldest first. -/
def Team.accOlds (t : Team) (g tile row col : Nat) : List AccOld := t.accOld.filter (fun o => o.open g tile row col)

/-- R12, R161: the row the element is read from, a free choice; their number stands for the present one. -/
def Team.accPick (t : Team) (fr g tile row col : Nat) : Nat :=
  let n := (t.accOlds g tile row col).length
  (List.range n).foldl (fun cur i => if Config.freePick fr (16 * (64 * accKey tile row col + i) + 5) then i else cur) n

/-- R12, R161: an element as a group reads it that nothing has ordered after the commands that write it. -/
def Team.accRead (t : Team) (fr g tile row col : Nat) : Word :=
  match (t.accOlds g tile row col)[t.accPick fr g tile row col]? with
  | some o => zget (accKey tile row col) o.cells
  | none => t.accGet tile row col

/-- R144: a group that has read or written an element does not read it from some of the old rows any more. -/
def Team.accPass (t : Team) (g col : Nat) (os : List AccOld) : Team :=
  { t with accOld := t.accOld.map (fun o =>
      if os.any (fun x => x.cmd == o.cmd && x.row == o.row) then { o with past := addOnce (.group g, col) o.past } else o) }

/-- R12, R161: a row a command is about to write is kept as it was, once for each command (log entry 55). -/
def Team.accKeep (t : Team) (cmd tile row : Nat) : Team :=
  let r := 128 * tile + row
  if t.accOld.any (fun o => o.cmd == cmd && o.row == r) then t
  else { t with accOld := t.accOld ++ [{ cmd := cmd, row := r, cells := t.acc.filter (fun e => e.1 / 128 == r) }] }

/-- R12, R149, R161: a group has waited for a phase of a barrier: it knows what the arrivals of that phase knew, and a row
that every group knows is kept no more. -/
def Team.accWaited (t : Team) (bar phase g : Nat) : Team :=
  let u := t.accShare (.phase bar phase) (.group g)
  { u with accOld := u.accOld.filter (fun o => t.groups.any (fun e => !e.2.finished && !o.seen.contains (.group e.1))) }

/-- R340: the checks of `LDACC` and `STACC`: the elements by lane. -/
def Ctx.accCheck (c : Ctx) (gc : GCtx) (s : State) : GRes (List (Nat × Nat)) × State :=
  let tile := fld c.o.w3 8 6
  let r := (lanesOf gc.act).map (fun l => (l, (c.srcA gc 1 l).toNat % 2 ^ 32))
  let bad := if c.team.accN ≤ tile then r else r.filter (fun e => decide (16384 ≤ e.2))
  if bad.isEmpty then (.ok r c.next, s)
  else (.trap { cause := .accRange, mask0 := maskOf (fun n => bad.any (fun e => e.1 == n)) }, s)

/-- R144: what a group's `LDACC` leaves open of the elements it has read as `t` held them. -/
def Team.accReads (t : Team) (fr g tile : Nat) (els : List Nat) (u : Team) : Team :=
  els.foldl (fun u x => u.accPass g (x % 128)
    ((t.accOlds g tile (x / 128) (x % 128)).take (t.accPick fr g tile (x / 128) (x % 128)))) u

/-- R340: `LDACC`.  A poisoned element is reported with the instruction's own address, for it has no other (log entry
99). -/
def Ctx.ldaccBody (c : Ctx) (s : State) : State :=
  let tile := fld c.o.w3 8 6
  c.runGroups c.accCheck
    (fun l s => l.foldl (fun s e =>
      (s.modTeam c.team.id (fun t => c.team.accReads c.free e.1.g.num tile (e.2.map (fun x => x.2)) t)).pendTo
        c.team.id e.1.g.num (loadPend (e.2.map (fun x =>
        (x.1, c.frag.pc,
          if smem (16384 * tile + x.2) c.team.accPoison then none
          else some (leBytes 4 (c.team.accRead c.free e.1.g.num tile (x.2 / 128) (x.2 % 128)).toNat))))
        (loadWords .b32 c.o.d.toNat))) s) s

/-- R144, R340: a group writes an element: it reads it from no older row any more. -/
def Team.accStore (t : Team) (g tile x : Nat) (v : Word) : Team :=
  (t.accPass g (x % 128) (t.accOlds g tile (x / 128) (x % 128))).accPut tile (x / 128) (x % 128) v

/-- R139, R340: `STACC`. -/
def Ctx.staccBody (c : Ctx) (s : State) : State :=
  let tile := fld c.o.w3 8 6
  c.runGroups c.accCheck
    (fun l s =>
      let all := l.flatMap (fun e => e.2.map (fun x => (32 * e.1.g.num + x.1, (e.1, x))))
      (freeOrder c.free (fun e => e.2.2) all).foldl (fun s e =>
        s.modTeam c.team.id (fun t => t.accStore e.2.1.g.num tile e.2.2.2 (e.2.1.g.readReg c.free c.o.d.toNat e.2.2.1))) s) s

/-! ### The tag table (R79 to R86, R341) -/

/-- R79: the tag window: base, sets, ways. -/
def Team.tagBase (t : Team) : Nat := 8 * fld t.tagwin 16 16
def Team.tagSets (t : Team) : Nat := 2 ^ fld t.tagwin 1 4
def Team.tagWays (t : Team) : Nat := fld t.tagwin 5 4 + 1

/-- R80: an entry of the table. -/
def Team.tagEntry (t : Team) (slot : Nat) : Dword := w64 (leNat (t.scrRead (t.tagBase + 8 * slot) 8))
def Team.setTag (t : Team) (slot : Nat) (e : Dword) : Team := t.scrWrite (t.tagBase + 8 * slot) (leBytes 8 e.toNat)

/-- R80: an entry from its parts. -/
def tagWord (key : Nat) (used pend : Bool) : Dword := w64 (key + b2n used * 2 ^ 48 + b2n pend * 2 ^ 49 + 2 ^ 63)

/-- R81: the victim of a set, and whether the third rule found it. -/
def tagVictim (set : List (Nat × Dword)) : Option (Nat × Bool) :=
  match set.find? (fun e => !bit e.2 63) with
  | some e => some (e.1, false)
  | none =>
    match set.find? (fun e => !bit e.2 49 && !bit e.2 48) with
    | some e => some (e.1, false)
    | none => (set.find? (fun e => !bit e.2 49)).map (fun e => (e.1, true))

/-- R81, R82, R84: a lookup, with or without a claim: the result word and the table after it.  Of several valid ways that
hold the key the lowest-numbered decides (log entry 118). -/
def Team.tagLook (t : Team) (claim : Bool) (key : Nat) : Word × Team :=
  let first := key % t.tagSets * t.tagWays
  let set := (List.range t.tagWays).map (fun w => (first + w, t.tagEntry (first + w)))
  match set.find? (fun e => bit e.2 63 && fld e.2 0 48 == key) with
  | some e =>
    if bit e.2 49 then (w32 (e.1 + 2 ^ 30), t)
    else (w32 e.1, t.setTag e.1 (tagWord key true false))
  | none =>
    match tagVictim set with
    | none => (w32 (0xFFFF + 3 * 2 ^ 30), t)
    | some (v, third) =>
      if claim then
        let t := if third then set.foldl (fun t e => t.setTag e.1 (e.2 &&& ~~~(0x7FFD000000000000 : Dword))) t else t
        (w32 (v + 2 * 2 ^ 30), t.setTag v (tagWord key false true))
      else (w32 (v + 2 * 2 ^ 30), t)

/-- R83: `TFILL`. -/
def Team.tagFill (t : Team) (slot key : Nat) : Team := t.setTag slot (tagWord key true false)
/-- R83: `TEVICT`. -/
def Team.tagEvict (t : Team) (slot key : Nat) : Word × Team :=
  let e := t.tagEntry slot
  if bit e 63 && fld e 0 48 == key then (1, t.setTag slot 0) else (0, t)
/-- R83: `TINV`. -/
def Team.tagInv (t : Team) : Team := (List.range (t.tagSets * t.tagWays)).foldl (fun t i => t.setTag i 0) t

/-- R58, R100, R337: what a tag operation of a lane reads: the entries of the key's set, or one entry; a poisoned one
gives no result and changes nothing. -/
def Team.tagReads (t : Team) (hasSlot : Bool) (key slot : Nat) : Nat × Nat :=
  if hasSlot then (t.tagBase + 8 * slot, 8) else (t.tagBase + 8 * (key % t.tagSets * t.tagWays), 8 * t.tagWays)

/-- R86: the checks of the tag operations: keys and slots by lane. -/
def Ctx.tagCheck (c : Ctx) (hasKey hasSlot : Bool) (gc : GCtx) (s : State) :
    GRes (List (Nat × Nat × Nat)) × State :=
  let r := (lanesOf gc.act).map (fun l =>
    (l, if hasKey then (c.srcA gc 2 l).toNat else 0, if hasSlot then (c.srcB gc 1 l).toNat % 2 ^ 32 else 0))
  let bad := r.filter (fun e =>
    !bit c.team.tagwin 0 || (hasKey && decide (2 ^ 48 ≤ e.2.1))
      || (hasSlot && decide (c.team.tagSets * c.team.tagWays ≤ e.2.2)))
  if bad.isEmpty then (.ok r c.next, s)
  else (.trap { cause := .tagRange, mask0 := maskOf (fun n => bad.any (fun e => e.1 == n)) }, s)

/-- R85: lanes applied one after another in a free order, each with a result word for D; `reads`: the operation reads
entries. -/
def Ctx.tagBody (c : Ctx) (hasKey hasSlot reads : Bool) (f : Team → Nat → Nat → Option Word × Team) (s : State) :
    State :=
  c.runGroups (c.tagCheck hasKey hasSlot)
    (fun l s =>
      let all := l.flatMap (fun e => e.2.map (fun x => (32 * e.1.g.num + x.1, (e.1, x))))
      let order := if all.length ≤ 1 then all else sortBy (fun e => Config.freeRank c.free e.1) all
      let r := order.foldl (fun (acc : List (Nat × Nat × Dword × Option (List Byte)) × State) e =>
        match acc.2.team? c.team.id with
        | none => acc
        | some t =>
          let at' := t.tagReads hasSlot e.2.2.2.1 e.2.2.2.2
          let a := w64 (0xF0 * 2 ^ 56 + at'.1)
          if reads && t.scrPoisoned at'.1 at'.2 then (acc.1 ++ [(e.2.1.g.num, e.2.2.1, a, none)], acc.2)
          else
            let y := f t e.2.2.2.1 e.2.2.2.2
            ((match y.1 with | some w => acc.1 ++ [(e.2.1.g.num, e.2.2.1, a, some (leBytes 4 w.toNat))] | none => acc.1),
             acc.2.setTeam y.2))
        ([], s)
      l.foldl (fun s e =>
        let mine := (sortBy (fun x => x.2.1) (r.1.filter (fun x => x.1 == e.1.g.num))).map (fun x => x.2)
        s.pendTo c.team.id e.1.g.num (loadPend mine (loadWords .b32 c.o.d.toNat))) r.2) s

/-- R341: `TINV`, once for each home group with an active lane. -/
def Ctx.tinvBody (c : Ctx) (s : State) : State :=
  c.runGroups (c.tagCheck false false)
    (fun l s => l.foldl (fun s e => if e.1.act = 0 then s else s.modTeam c.team.id Team.tagInv) s) s

/-! ### Atomics (R33, R342, R343) -/

/-- R343: `Op`. -/
def atomOp (aop : Nat) (t : Ty) (old b : Nat) : Nat :=
  let w := tyWidth t
  match aop with
  | 0 => if t = .f32 then (fF32.add fEnvEngine old b).1 else (old + b) % 2 ^ w
  | 1 => if t = .f32 then fF32.minmax false false old b else (iminVal t (w64 old) (w64 b)).toNat % 2 ^ w
  | 2 => if t = .f32 then fF32.minmax false true old b else (imaxVal t (w64 old) (w64 b)).toNat % 2 ^ w
  | 3 => (w64 old &&& w64 b).toNat
  | 4 => (w64 old ||| w64 b).toNat
  | 5 => (w64 old ^^^ w64 b).toNat
  | _ => b

/-- R343: what an atomic operation writes over an old value; none: nothing.  8 is compare-and-swap. -/
def atomWrite (aop : Nat) (t : Ty) (b c old : Nat) : Option Nat :=
  if aop = 8 then (if old = b then some c else none) else some (atomOp aop t old b)

/-- R58, R106, R145, R174, R343: one RMW at its home, one request, after the core's buffered stores to the line; no L1 copy of the core
stays behind.  The value read (none: poison, and nothing is written), and the state. -/
def State.rmwAt (s : State) (core : Nat) (p : Place) (size : Nat) (f : Nat → Option Nat) : Option (List Byte) × State :=
  match p with
  | .glob vi pa tag cls alloc =>
    let r : Ask := { vi := vi, cls := cls, alloc := alloc }
    let s := (s.drainLine core pa).modCore core (fun k => k.l1Drop vi (pa / 128 * 128))
    if s.poisoned pa size then (none, s)
    else
      let x := s.homeRead r tag pa size
      match f (leNat x.1) with
      | none => (some x.1, x.2)
      | some v => (some x.1, x.2.homeWrite (some core) { r with span := some 0 } tag pa (leBytes size v))
  | .scr tid off =>
    match s.team? tid with
    | none => (some (List.replicate size 0), s)
    | some u =>
      if u.scrPoisoned off size then (none, s)
      else
        let bs := u.scrRead off size
        match f (leNat bs) with
        | none => (some bs, s)
        | some v => (some bs, s.modTeam tid (fun u => u.scrWrite off (leBytes size v)))

/-- R33, R127: where an atomic access is performed; the other windows take none (R34). -/
def Ctx.place (c : Ctx) (s : State) (t : Tgt) : Place :=
  match t with
  | .glob x => .glob c.team.vi x.pa (s.keyTag x.leaf) c.team.cls (!x.uncached)
  | .scr tid off => .scr tid off
  | .priv off => .scr c.team.id off
  | .regw off => .scr c.team.id off

/-- R23: the bits an atomic access sets. -/
def Ctx.touchAtomic (c : Ctx) (t : Tgt) (s : State) : State :=
  match t with
  | .glob x => s.touchLeaf c.team.vi .atomic x
  | _ => s

/-- R125: the requests that the lanes of a `.sc` atomic make, in a free order (log entry 40), and the groups that wait
for them. -/
def Ctx.ticketAtoms (c : Ctx) (ret : Bool) (size : Nat) (op : GCtx → Nat → Nat × Nat × Nat)
    (l : List (GCtx × List (Nat × Dword × Tgt))) (s : State) : State :=
  let all := allLanes l
  let s := all.foldl (fun s e => c.touchAtomic e.2.2.2.2 s) s
  let order := if all.length ≤ 1 then all else sortBy (fun e => Config.freeRank c.free e.1) all
  let reqs := order.map (fun e =>
    let o := op e.2.1 e.2.2.1
    ({ die := dieOf c.core, home := s.tgtHome c.team e.2.2.2.2, team := c.team.id, core := c.core, groups := [e.2.1.g.num],
       op := some { lane := e.2.2.1, addr := e.2.2.2.1, place := c.place s e.2.2.2.2, size := size, aop := o.1, ty := c.o.ty,
                    b := o.2.1, c := o.2.2 } } : TickReq))
  let wait (n : Nat) : ScWait :=
    { left := n, dst := if ret then some (c.o.ty, c.o.d.toNat) else none, wide := decide (2 ≤ c.scope) }
  { (l.foldl (fun s e =>
      if e.2.isEmpty then s
      else s.modGroup c.team.id e.1.g.num (fun g => { g with sc := some (wait e.2.length) })) s)
    with tickReq := s.tickReq ++ reqs }

/-- R174, R343: an atomic instruction: `op` gives a lane's operation and operands.  A `.sc` one releases and asks for its
tickets, and is performed as they are granted. -/
def Ctx.atomBody (c : Ctx) (ret : Bool) (op : GCtx → Nat → Nat × Nat × Nat) (s : State) : State :=
  let size := tyBytes c.o.ty
  c.runGroups
    (fun gc s => c.locateAll gc .atomic size ((lanesOf gc.act).map (fun l => (l, c.srcA gc 2 l))) s)
    (fun l s =>
      let all := allLanes l
      let s := if releases c.order && !all.isEmpty then s.release c.core c.team.vi c.scope else s
      if c.order = 4 then c.ticketAtoms ret size op l s
      else
        let r := (freeOrder c.free (fun e => e.2.2.2.key e.1.g.num e.2.1) all).foldl
          (fun (acc : List (Nat × Nat × Dword × Option (List Byte)) × State) e =>
            let o := op e.2.1 e.2.2.1
            let s := c.touchAtomic e.2.2.2.2 acc.2
            let y := s.rmwAt c.core (c.place s e.2.2.2.2) size (atomWrite o.1 c.o.ty o.2.1 o.2.2)
            (acc.1 ++ [(e.2.1.g.num, e.2.2.1, e.2.2.2.1, y.1)], y.2)) ([], s)
        let s := l.foldl (fun s e =>
          let mine := (sortBy (fun x => x.2.1) (r.1.filter (fun x => x.1 == e.1.g.num))).map (fun x => x.2)
          if ret then s.pendTo c.team.id e.1.g.num (loadPend mine (loadWords c.o.ty c.o.d.toNat)) else s) r.2
        if acquires c.order && !all.isEmpty then s.acquire c.core c.team.vi c.scope else s) s

/-- R343: `ATOM` and `RED`. -/
def Ctx.atomNew (c : Ctx) (gc : GCtx) (l : Nat) : Nat × Nat × Nat :=
  let n := tyRegs c.o.ty
  (fld c.o.w3 8 4 % 8, (c.srcB gc n l).toNat % 2 ^ (32 * n), 0)

/-- R343: `ATOMCAS`. -/
def Ctx.casNew (c : Ctx) (gc : GCtx) (l : Nat) : Nat × Nat × Nat :=
  let n := tyRegs c.o.ty
  (8, (c.srcB gc n l).toNat % 2 ^ (32 * n), (c.srcC gc n l).toNat % 2 ^ (32 * n))

/-! ### Tickets (R125 to R127, R174) -/

/-- R58, R174: a home group whose last ticket has been performed: its results are pending as a load's are. -/
def Group.scDone (g : Group) (w : ScWait) : Group :=
  let p : Option Pend := w.dst.bind (fun d => loadPend (sortBy (fun e => e.1) w.res) (loadWords d.1 d.2))
  { g with sc := none, pend := g.pend ++ p.toList }

/-- R174: one ticket of a group performed, with the value that a lane read; after the last the group acquires. -/
def State.scStep (s : State) (core tid g : Nat) (res : List (Nat × Dword × Option (List Byte))) : State :=
  match (s.team? tid).bind (fun t => (t.group? g).map (fun g => (t, g))) with
  | none => s
  | some (t, gr) =>
    match gr.sc with
    | none => s
    | some w =>
      let w := { w with left := w.left - 1, res := w.res ++ res }
      if 0 < w.left then s.modGroup tid g (fun g => { g with sc := some w })
      else
        let s := s.modGroup tid g (fun g => g.scDone w)
        if w.wide then s.dropL1 core t.vi else s

/-- R127, R151: an operation performed with its ticket: a lane's at its home; a fence's, which has no effect there. -/
def State.performTicket (s : State) (r : TickReq) : State :=
  match r.op with
  | none => r.groups.foldl (fun s g => s.scStep r.core r.team g []) s
  | some o =>
    let y := s.rmwAt r.core o.place o.size (atomWrite o.aop o.ty o.b o.c)
    r.groups.foldl (fun s g => s.scStep r.core r.team g [(o.lane, o.addr, y.1)]) y.2

/-! ### Fences (R344, R345) -/

/-- R151: a `.sc` fence asks for one ticket, for every home group of its fragment. -/
def Ctx.ticketFence (c : Ctx) (s : State) : State :=
  let gs := c.groups.map (fun gc => gc.g.num)
  { (gs.foldl (fun s g => s.modGroup c.team.id g (fun g =>
      { g with sc := some { left := 1, wide := decide (2 ≤ c.scope) } })) s)
    with tickReq := s.tickReq ++ [{ die := dieOf c.core, home := 0, team := c.team.id, core := c.core, groups := gs }] }

/-- R146, R174, R344: `FENCE`: a release, then a ticket for `.sc`, then an acquire. -/
def Ctx.fenceBody (c : Ctx) (s : State) : State :=
  c.runGroups (fun _ s => c.okNext () s)
    (fun _ s =>
      let s := if releases c.order then s.release c.core c.team.vi c.scope else s
      if c.order = 4 then c.ticketFence s
      else if acquires c.order then s.acquire c.core c.team.vi c.scope
      else s) s

/-- R160, R345: `OPFENCE` records the point up to which a later `MMA.J` reads the group's writes. -/
def Ctx.opfenceBody (c : Ctx) (s : State) : State :=
  c.runGroups (fun _ s => c.okNext () s)
    (c.mapGroups (fun _ _ g => { g with opfRegs := [g.regs] })) s

/-- LD_SHORT (R338). -/
def execLdShort (o : SOps) (s : State) : Host.Outcome State Fault Refusal :=
  issue (.ldShort o) s (fun c => c.ldBody)

/-- LD (R338). -/
def execLd (o : XOps) (s : State) : Host.Outcome State Fault Refusal :=
  issue (.ld o) s (fun c => c.ldBody)

/-- ST_SHORT (R338). -/
def execStShort (o : SOps) (s : State) : Host.Outcome State Fault Refusal :=
  issue (.stShort o) s (fun c => c.stBody)

/-- ST (R338). -/
def execSt (o : XOps) (s : State) : Host.Outcome State Fault Refusal :=
  issue (.st o) s (fun c => c.stBody)

/-- LDU_SHORT (R338). -/
def execLduShort (o : SOps) (s : State) : Host.Outcome State Fault Refusal :=
  issue (.lduShort o) s (fun c => c.lduBody)

/-- LDU (R338). -/
def execLdu (o : XOps) (s : State) : Host.Outcome State Fault Refusal :=
  issue (.ldu o) s (fun c => c.lduBody)

/-- PREF_SHORT (R338). -/
def execPrefShort (o : SOps) (s : State) : Host.Outcome State Fault Refusal :=
  issue (.prefShort o) s (fun c => c.prefBody)

/-- PREF (R338). -/
def execPref (o : XOps) (s : State) : Host.Outcome State Fault Refusal :=
  issue (.pref o) s (fun c => c.prefBody)

/-- LDT (R339). -/
def execLdt (o : XOps) (s : State) : Host.Outcome State Fault Refusal :=
  issue (.ldt o) s (fun c => c.ldtBody)

/-- STT (R339). -/
def execStt (o : XOps) (s : State) : Host.Outcome State Fault Refusal :=
  issue (.stt o) s (fun c => c.sttBody)

/-- LDACC (R340). -/
def execLdacc (o : XOps) (s : State) : Host.Outcome State Fault Refusal :=
  issue (.ldacc o) s (fun c => c.ldaccBody)

/-- STACC (R340). -/
def execStacc (o : XOps) (s : State) : Host.Outcome State Fault Refusal :=
  issue (.stacc o) s (fun c => c.staccBody)

/-- TLOOK (R341). -/
def execTlook (o : XOps) (s : State) : Host.Outcome State Fault Refusal :=
  issue (.tlook o) s (fun c => c.tagBody true false true (fun t k _ => let r := t.tagLook false k; (some r.1, r.2)))

/-- TLOOK_CLM (R341). -/
def execTlookClm (o : XOps) (s : State) : Host.Outcome State Fault Refusal :=
  issue (.tlookClm o) s (fun c => c.tagBody true false true (fun t k _ => let r := t.tagLook true k; (some r.1, r.2)))

/-- TFILL (R341). -/
def execTfill (o : XOps) (s : State) : Host.Outcome State Fault Refusal :=
  issue (.tfill o) s (fun c => c.tagBody true true false (fun t k n => (none, t.tagFill n k)))

/-- TEVICT (R341). -/
def execTevict (o : XOps) (s : State) : Host.Outcome State Fault Refusal :=
  issue (.tevict o) s (fun c => c.tagBody true true true (fun t k n => let r := t.tagEvict n k; (some r.1, r.2)))

/-- TINV (R341). -/
def execTinv (o : XOps) (s : State) : Host.Outcome State Fault Refusal :=
  issue (.tinv o) s (fun c => c.tinvBody)

/-- ATOM (R343). -/
def execAtom (o : XOps) (s : State) : Host.Outcome State Fault Refusal :=
  issue (.atom o) s (fun c => c.atomBody true c.atomNew)

/-- ATOMCAS (R343). -/
def execAtomcas (o : XOps) (s : State) : Host.Outcome State Fault Refusal :=
  issue (.atomcas o) s (fun c => c.atomBody true c.casNew)

/-- RED (R343). -/
def execRed (o : XOps) (s : State) : Host.Outcome State Fault Refusal :=
  issue (.red o) s (fun c => c.atomBody false c.atomNew)

/-- FENCE (R344). -/
def execFence (o : XOps) (s : State) : Host.Outcome State Fault Refusal :=
  issue (.fence o) s (fun c => c.fenceBody)

/-- OPFENCE (R345). -/
def execOpfence (o : SOps) (s : State) : Host.Outcome State Fault Refusal :=
  issue (.opfence o) s (fun c => c.opfenceBody)

end Sys2Proof.Machine
end

