-- ==== Sys2Proof/Machine/Queues.lean ====
section
/-! DEFINITION. The engine queues of a core: the forming and checking of commands, entry, guards and start
barriers at the head, discards, the delivery of a command's status and arrival, and the deadlock of blocked
pushes (R155 to R158, R351 to R361, R371 to R375, R393, R458). -/

namespace Sys2Proof.Machine

/-- R352: queue 0 is `q.mx`, queue 1 is `q.cp`. -/
def Core.queue (k : Core) (q : Nat) : List Cmd := if q = 0 then k.qmx else k.qcp
def Core.setQueue (k : Core) (q : Nat) (l : List Cmd) : Core :=
  if q = 0 then { k with qmx := l } else { k with qcp := l }
/-- R352: entries of a queue. -/
def queueDepth (q : Nat) : Nat := if q = 0 then 32 else 16

/-! ### Heads (R351, R353) -/

/-- R353: the command is held until its start barrier completes the phase that was current at the push. -/
def Team.startHeld (t : Team) (c : Cmd) : Bool :=
  match c.sbar with
  | none => false
  | some (b, phase) =>
    match kfind b t.bars with
    | some bar => !barReady bar phase
    | none => true

/-- R351: what a guard holds. -/
def Team.guard (t : Team) (g : Nat) : Guard := kget .idle g t.guards

/-- R351, R353, R361: what the head of a queue may do; a command that has started before is recalled by nothing. -/
inductive Head where
  | startHeld | guardHeld | discard | go
  deriving DecidableEq, Repr

def Team.head (t : Team) (c : Cmd) : Head :=
  if c.begun then .go
  else if t.startHeld c then .startHeld
  else
    match c.guard with
    | none => .go
    | some g =>
      match t.guard g with
      | .true => .go
      | .false => .discard
      | _ => .guardHeld

/-! ### Completion of a command (R158, R360, R393, R458) -/

/-- R360: the status record of a command, an `sp:` store of the engine. -/
def Team.status (t : Team) (c : Cmd) (status cause done : Nat) : Team :=
  match c.stslot with
  | none => t
  | some n => t.scrWrite (8 * n) (leBytes 8 (status + 256 * (cause % 64) + 2 ^ 32 * (done % 2 ^ 32)))

/-- R458: a fault of an engine command is counted. -/
def State.engineFault (s : State) (vi cause : Nat) : State :=
  s.modVid vi (fun d => { d with efCount := min (d.efCount + 1) 0xFFFFFFFF, efLast := cause })

/-- R158, R360: a command delivers its status and its one arrival. -/
def State.deliver (s : State) (c : Cmd) (status cause done : Nat) : State :=
  let s := if status = 2 then s.engineFault c.vi cause else s
  let s := s.deliverAll c
  s.modTeam c.team (fun t => ((t.status c status cause done).accTell c.id c.bar).arrive c.bar)

/-- R351: head commands with a FALSE guard are discarded, each with its arrival, on fuel. -/
def State.discardHeads (core : Nat) : Nat → State → State
  | 0, s => s
  | n + 1, s =>
    let try1 (q : Nat) : Option State :=
      match (s.core core).queue q with
      | [] => none
      | c :: r =>
        match s.team? c.team with
        | none => none
        | some t =>
          if t.head c = .discard then
            some ((s.modCore core (fun k => k.setQueue q r)).inTurn core c (fun s => s.deliver c 1 0 0))
          else none
    match try1 0 with
    | some s => State.discardHeads core n s
    | none =>
      match try1 1 with
      | some s => State.discardHeads core n s
      | none => s

/-- R351: the heads of a core's queues, as they stand now. -/
def State.heads (s : State) (core : Nat) : State := State.discardHeads core 49 s

/-! ### The deadlock of blocked pushes (R356) -/

/-- R356: the arrivals that started commands of a team will still make at a barrier. -/
def State.startedAt (s : State) (t : Team) (bar : Nat) : Nat :=
  ((s.core t.core).started.filter (fun c => c.team == t.id && c.bar == bar)).length

/-- R356: the head of a queue is held by its own team beyond what started commands resolve; the detail of
the record. -/
def State.headStuck (s : State) (t : Team) (q : Nat) : Option Nat :=
  let l := (s.core t.core).queue q
  if l.length < queueDepth q then none
  else
    match l with
    | [] => none
    | c :: _ =>
      if c.team != t.id then none
      else
        match t.head c, c.sbar with
        | .startHeld, some (b, _) =>
          let need := match kfind b t.bars with | some bar => bar.count - bar.arr | none => 1
          if s.startedAt t b < need then some (q + 4 + 8 * b) else none
        | .guardHeld, _ => if t.guard (c.guard.getD 0) = .pending then some (q + 8 * c.guard.getD 0) else none
        | _, _ => none

/-- R356: a fragment is blocked at a push to a full queue. -/
def State.pushBlocked (s : State) (t : Team) (f : Frag) : Bool :=
  match f.st with
  | .qpush q _ _ _ => decide (queueDepth q ≤ ((s.core t.core).queue q).length)
  | _ => false

/-- R356: a group is blocked at a push to a full queue: one of its fragments is, and every other waits at a `JOIN` or at a
divergence instruction for its path. -/
def State.groupBlocked (s : State) (t : Team) (g : Nat) : Bool :=
  let fs := t.frags.filter (fun f => glanes f.lanes g != 0)
  fs.any (s.pushBlocked t) && fs.all (fun f =>
    s.pushBlocked t f || (match f.st with | .joined _ => true | .meeting _ _ _ _ _ => true | _ => false))

/-- R356: QUEUE_DEADLOCK for every blocked push of a team, where all its conditions hold. -/
def State.deadlock (s : State) (tid : Nat) : State :=
  match s.team? tid with
  | none => s
  | some t =>
    let live := (t.groups.filter (fun e => !e.2.finished)).map (fun e => e.1)
    if !t.onCore || live.isEmpty || !live.all (s.groupBlocked t) then s
    else
      match (s.headStuck t 0).orElse (fun _ => s.headStuck t 1) with
      | none => s
      | some d =>
        s.stopIn tid (live.map (fun g => (g, { cause := .queueDeadlock, detail := d }))) (t.frags.filter (s.pushBlocked t))
          (fun f => f.word) (fun _ _ _ => GOut.hold)

/-! ### Command formation (R353, R354, R375) -/

/-- R353: a command from the header and the bytes after it. -/
def Team.formCmd (t : Team) (g : Nat) (priv : Bool) (ws : List Word) : Cmd :=
  let h := nth 0 ws 0
  { vi := t.vi, team := t.id, group := g, kind := fld h 0 4, bar := fld h 4 4,
    guard := if bit h 12 then some (fld h 8 4) else none,
    sbar := if bit h 17 then
        some (fld h 13 4, match kfind (fld h 13 4) t.bars with | some b => b.phase | none => 0)
      else none,
    policy := fld h 18 2, stslot := if bit h 20 then some (fld h 21 7) else none, priv := priv,
    body := ws.drop 1 }

/-- R354, R358: an address in a window a tile-walk command may name, 16-aligned. -/
def goodWindow (a : Dword) : Bool := [0x00, 0xF0, 0xF1].contains (fld a 56 8) && fld a 0 4 == 0

/-- Two words of a command, the low one first. -/
def Cmd.pair (c : Cmd) (n : Nat) : Dword := nth 0 c.body (n + 1) ++ nth 0 c.body n

/-- R358: the ranks a mask names lie in the cluster. -/
def goodRanks (m size : Nat) : Bool := m != 0 && decide (m < 2 ^ size)

/-- R358, R391, R392: the layout of a `q.cp` command is broken. -/
def State.cpMalformed (s : State) (t : Team) (c : Cmd) : Bool :=
  let w0 := nth 0 c.body 0
  let w5 := nth 0 c.body 5
  let w6 := nth 0 c.body 6
  let size := match s.grid? t.grid with | some g => g.rc.clusterSize | none => 1
  match c.kind with
  | 1 => w0 == 0 || fld w0 0 4 != 0 || !goodWindow (c.pair 1) || !goodWindow (c.pair 3) || w5 != 0 || w6 != 0
  | 2 => fld w0 0 12 == 0 || fld w0 12 10 == 0 || fld w0 22 10 != 1 || !goodWindow (c.pair 1)
      || !goodWindow (c.pair 3) || w6 != 0
  | 3 => fld w0 0 12 == 0 || fld w0 12 10 == 0 || fld w0 22 10 == 0 || !goodWindow (c.pair 1)
      || !goodWindow (c.pair 3)
  | 4 => w0 == 0 || fld w0 0 4 != 0 || decide (524288 < w0.toNat) || !goodWindow (c.pair 1)
      || fld (c.pair 3) 40 24 != 0 || fld (c.pair 3) 0 4 != 0 || !goodRanks (fld w5 0 16) size
      || fld w5 16 16 != 0 || w6 != 0
  | 5 => !goodRanks (fld w0 0 16) size || fld w0 20 12 != 0 || !goodWindow (c.pair 1)
      || nth 0 c.body 3 == 0 || fld (nth 0 c.body 3) 0 4 != 0 || nth 0 c.body 4 != 0 || w5 != 0 || w6 != 0
  | 6 => fld w0 7 25 != 0 || decide (s.partOf (fld w0 0 6) ≠ s.partOf t.vi) || fld (c.pair 3) 48 16 != 0
      || w5 != 0 || w6 != 0
  | _ => true

/-- R354 step 2 for the header. -/
def Team.headerMalformed (t : Team) (mx : Bool) (h : Word) : Bool :=
  fld h 28 4 != 0 || (mx && fld h 18 2 != 0) || (bit h 20 && decide (t.scrSize < 8 * fld h 21 7 + 8))

/-- R354 steps 3 and 4. -/
def Team.badBars (t : Team) (c : Cmd) : Option Cause :=
  let bad (b : Nat) : Bool := decide (t.barsN ≤ b) || (kfind b t.bars).isNone
  if bad c.bar || (match c.sbar with | some (b, _) => bad b | none => false) then some .barrierInvalid
  else
    match c.guard with
    | some g => if t.guard g = .idle then some .guardInvalid else none
    | none => none

/-- R378: the bytes of a row. -/
def rowBytes (mode : Nat) (t : Ty) : Nat := 4 * rowRegs mode t

/-- R376, R382, R384, R385, R387: the conditions a matrix instruction checks when it runs. -/
def mxMalformed (i : Instr) (sa sb sc : Word) : Bool :=
  match i with
  | .mldw _ => fld sa 0 6 != 0
  | .mmas o =>
    let n := fld sb 0 8
    n == 0 || decide (128 < n) || decide (128 < fld o.w3 22 7 + n) || fld sb 8 8 != 0
      || decide (16 * fld sb 16 16 < rowBytes (fld o.w3 14 2) o.ty) || fld sa 0 4 != 0
  | .mhad o => bit o.w3 17 && fld sa 0 4 != 0
  | .mqnt o => fld sb 0 6 != 0 || (bit o.w3 16 && fld sc 0 4 != 0)
  | .acccvt _ => fld sa 0 4 != 0
  | _ => false

/-- R368, R371, R372: the strand that a command names by number or by role. -/
def Grid.strand (g : Grid) (ssel : BitVec 8) (role : Nat) : Nat :=
  if bit ssel 2 then g.roleValue role % 3 else fld ssel 0 2

/-- R375: the instruction that a KIND 0x1 command of `q.mx` carries, or the cause that refuses it;
an unbound role refuses it too (log entry 107). -/
def State.embedded (s : State) (t : Team) (c : Cmd) : Except Cause Instr :=
  let w1 := nth 0 c.body 0
  let w2 := nth 0 c.body 1
  let w3 := nth 0 c.body 2
  if fld w1 0 2 ≠ 2 ∨ fld w3 0 14 ≠ 0 ∨ nth 0 c.body 6 ≠ 0 then .error .commandMalformed
  else
    match decodeWords w1 w2 w3 0 with
    | .error e => .error (if e = .privileged then .privileged else .commandMalformed)
    | .ok i =>
      let fields : Option (List (SUse × BitVec 8)) :=
        match i with
        | .mldw _ => (form i).map (fun f => [(f.spec.a, f.x.a), (f.spec.b, f.x.b), (f.spec.c, f.x.c)])
        | .mswap _ => some []
        | .mmas _ => (form i).map (fun f => [(f.spec.a, f.x.a), (f.spec.b, f.x.b), (f.spec.c, f.x.c)])
        | .mhad _ => (form i).map (fun f => [(f.spec.a, f.x.a), (f.spec.b, f.x.b), (f.spec.c, f.x.c)])
        | .mqnt _ => (form i).map (fun f => [(f.spec.a, f.x.a), (f.spec.b, f.x.b), (f.spec.c, f.x.c)])
        | .accz _ => some []
        | .acccvt _ => (form i).map (fun f => [(f.spec.a, f.x.a), (f.spec.b, f.x.b), (f.spec.c, f.x.c)])
        | _ => none
      let isS (u : SUse) : Bool := match u with | .scals _ => true | _ => false
      match fields with
      | none => .error .commandMalformed
      | some l =>
        if l.any (fun e => isS e.1 && e.2 != 0) then .error .commandMalformed
        else
          let role : Option Cause :=
            match roleUse i with
            | none => none
            | some (j, k) =>
              match s.grid? t.grid with
              | none => some .roleUnbound
              | some g => if g.roleKind j = k then none else some .roleUnbound
          match role with
          | some e => .error e
          | none =>
            if mxMalformed i (nth 0 c.body 3) (nth 0 c.body 4) (nth 0 c.body 5) then .error .commandMalformed
            else .ok i

/-- R371: the strand selector and the role field of a matrix instruction. -/
def mxSel (i : Instr) : BitVec 8 × Nat :=
  match i with
  | .mldw o => (o.c, fld o.w3 16 6)
  | .mma o => (o.c, fld o.w3 16 6)
  | .mmaJ o => (o.c, 0)
  | .mmas o => (o.c, fld o.w3 16 6)
  | _ => (0, 0)

/-- R373: what a matrix command records of its team and group. -/
def State.withInstr (s : State) (t : Team) (c : Cmd) (i : Instr) (sa : Dword) (sb sc : Word) (sat : Bool) : Cmd :=
  let sel := mxSel i
  { c with instr := some i, sa := sa, sb := sb, sc := sc, sat := sat,
           strand := match s.grid? t.grid with | some g => g.strand sel.1 sel.2 | none => fld sel.1 0 2 }

/-- R354, R375: the checks of a `QPUSH` for one home group. -/
def State.checkPush (s : State) (t : Team) (f : Frag) (g : Nat) (q : Nat) (ws : List Word) : Except Cause Cmd :=
  let c := t.formCmd g f.hm ws
  if q = 1 ∧ c.kind = 6 ∧ !f.hm then .error .privileged
  else if t.headerMalformed (q == 0) (nth 0 ws 0) then .error .commandMalformed
  else
    let r : Except Cause Cmd :=
      if q = 0 then
        if c.kind = 1 then
          match s.embedded t c with
          | .error e => .error e
          | .ok i =>
            .ok (s.withInstr t c i ((nth 0 c.body 3).setWidth 64) (nth 0 c.body 4) (nth 0 c.body 5) (bit f.fmt 3))
        else .error .commandMalformed
      else if s.cpMalformed t c then .error .commandMalformed
      else .ok c
    match r with
    | .error e => .error e
    | .ok c =>
      match t.badBars c with
      | some e => .error e
      | none => .ok c

/-! ### Entering a queue (R355, R361) -/

/-- R355: some push that blocked earlier, or a restored command, waits for an entry of the queue. -/
def State.queueWaiters (s : State) (core q : Nat) : Bool :=
  s.teams.any (fun e => e.2.core == core && e.2.onCore &&
    (e.2.saved.any (fun x => x.1 == q) ||
     e.2.frags.any (fun f => match f.st with | .qpush p _ _ _ => p == q | _ => false)))

/-- A command takes its number and an entry. -/
def State.enterQueue (s : State) (core q : Nat) (c : Cmd) : State :=
  let n := s.fresh
  n.2.modCore core (fun k => k.setQueue q (k.queue q ++ [{ c with id := n.1 }]))

/-- The trap of a cause without detail. -/
def Cause.plain (c : Cause) : Trap := { cause := c }

/-- R355, R361: the next to enter a queue of a core: the blocked push or the restored command that has
waited longest. -/
inductive Waiter where
  | push (team frag : Nat)
  | restored (team : Nat) (c : Cmd)
  deriving DecidableEq, Repr

def State.nextWaiter (s : State) (core q : Nat) : Option Waiter :=
  let l : List (Nat × Waiter) := s.teams.flatMap (fun e =>
    if e.2.core == core && e.2.onCore && !e.2.dead then
      let mine := e.2.saved.filter (fun x => x.1 == q)
      (mine.take 1).map (fun x => (x.2.id, Waiter.restored e.1 x.2)) ++
      (if mine.isEmpty then
        e.2.frags.filterMap (fun f =>
          match f.st with
          | .qpush p _ seq _ => if p == q then some (seq, Waiter.push e.1 f.id) else none
          | _ => none)
       else [])
    else [])
  (leastBy (fun x => x.1) l).map (fun x => x.2)

/-- R380: the groups held at a joint instruction whose command has entered complete it. -/
def State.jointGo (s : State) (tid : Nat) (pc : Dword) (c : Cmd) : State :=
  match c.instr with
  | some (.mmaJ o) => s.jointEnd tid (.mmaJ o) pc (c.joint.map (fun e => e.1)) none
  | _ => s

/-- R355: QPUSH_ENTER: an entry is free and the next in order enters; a group whose command has entered
completes its push. -/
def State.pushEnter (s : State) (core q : Nat) : State :=
  if queueDepth q ≤ ((s.core core).queue q).length then s
  else
    match s.nextWaiter core q with
    | none => s
    | some (.restored tid c) =>
      ((s.modTeam tid (fun t => { t with saved := t.saved.filter (fun x => x.2.id != c.id) })).enterQueue core q
        c).heads core
    | some (.push tid fid) =>
      match (s.team? tid).bind (fun t => (t.frag? fid).map (fun f => (t, f))) with
      | none => s
      | some (_, f) =>
        match f.st with
        | .qpush p (x :: rest) seq next =>
          let s := s.enterQueue core q x
          let s := s.jointGo tid f.pc x
          let s := s.settle tid f f.word s.free (f.lanes.map (fun e =>
            if e.1 = x.group || !x.joint.isEmpty then (e.1, GOut.go { pc := next, fmt := f.fmt, hm := f.hm })
            else (e.1, GOut.go { st := .qpush p rest seq next, pc := f.pc, fmt := f.fmt, hm := f.hm })))
          s.heads core
        | _ => s

/-- The engine numbers a started command by its id. -/
def Core.startedCmd (k : Core) (id : Nat) : Option Cmd := k.started.find? (fun c => c.id == id)
def Core.setStarted (k : Core) (c : Cmd) : Core :=
  { k with started := k.started.map (fun x => if x.id == c.id then c else x) }

/-- R360: ENGINE_COMMAND_COMPLETE: a started command that has done its work delivers its status and
arrival. -/
def State.finishCmd (s : State) (core : Nat) (c : Cmd) : State :=
  let s := s.modCore core (fun k => { k with started := k.started.filter (fun x => x.id != c.id) })
  (s.deliver c c.status c.cause c.done).heads core

end Sys2Proof.Machine
end

