-- ==== Sys2Proof/Machine/Sync.lean ====
section
/-! DEFINITION. Barriers, guards, queue instructions and the cross-cluster exchange (R346 to R357, R362,
R363). -/

namespace Sys2Proof.Machine

/-! ### Barriers (R346 to R350) -/

/-- R347: a command that names a barrier has been pushed and has not arrived. -/
def State.barNamed (s : State) (t : Team) (b : Nat) : Bool :=
  let k := s.core t.core
  let names (c : Cmd) : Bool :=
    c.team == t.id && (c.bar == b || (match c.sbar with | some (x, _) => x == b | none => false))
  k.qmx.any names || k.qcp.any names || k.started.any names || t.saved.any (fun e => names e.2)
    || t.frags.any (fun f => match f.st with
        | .qpush _ l _ _ => l.any names
        | .publish l _ => l.any names
        | _ => false)

/-- R190, R347: some group waits on a barrier. -/
def Team.barWaited (t : Team) (b : Nat) : Bool :=
  t.frags.any (fun f => match f.st with
    | .barw x _ _ => x == b
    | .sleeping x _ _ => x == b
    | _ => false)

/-- A phase of a barrier. -/
def Knower.isOf (b : Nat) : Knower → Bool
  | .phase x _ => x == b
  | .group _ => false

/-- R347: `BARINIT` for one home group. -/
def Ctx.barinitBody (c : Ctx) (s : State) : State :=
  let b := fld c.o.w3 0 4
  let count := fld c.o.w3 16 16
  c.runGroups (fun _ s =>
    match s.team? c.team.id with
    | none => (.hold, s)
    | some t =>
      if decide (t.barsN ≤ b) || count == 0 || s.barNamed t b || t.barWaited b then
        (.trap { cause := .barrierInvalid }, s)
      else
        let t := { t with
          accOld := t.accOld.map (fun o => { o with seen := o.seen.filter (fun k => !k.isOf b)
                                                    past := o.past.filter (fun k => !k.1.isOf b) })
          bars := kset b { scope := fld c.o.w3 8 3, count := count, phase := 0, arr := 0 } t.bars
          groups := t.groups.map (fun e => (e.1, { e.2 with ep := kdel b e.2.ep, ap := kdel b e.2.ap })) }
        (.ok () c.next, s.setTeam t)) (fun _ s => s) s

/-- R347: the barrier an instruction names, or none where it is invalid. -/
def Team.bar? (t : Team) (b : Nat) : Option Bar := if t.barsN ≤ b then none else kfind b t.bars

/-- R348, R159: an arrival by a group: a release of the barrier's scope, then ARR; or BARRIER_OVERFLOW. -/
def State.groupArrives (s : State) (t : Team) (g b : Nat) : Option State :=
  match t.bar? b, t.group? g with
  | some bar, some gr =>
    if kfind b gr.ap = some bar.phase then none
    else
      let s := if 2 ≤ bar.scope then s.drainVi t.core t.vi else s
      some (s.modTeam t.id (fun t => ((t.accShare (.group g) (.phase b bar.phase)).modGroup g (fun gr => { gr with ap := kset b bar.phase gr.ap })).arrive b))
  | _, _ => none

/-- R159, R174, R348: the groups of a waiting fragment whose phase has completed consume it and go on; the
others wait on. -/
def State.barRelease (s : State) (tid fid : Nat) : State :=
  match (s.team? tid).bind (fun t => (t.frag? fid).map (fun f => (t, f))) with
  | none => s
  | some (t, f) =>
    let w : Option (Nat × Dword) :=
      match f.st with
      | .barw b _ next => some (b, next)
      | .sleeping b _ cont => some (b, cont)
      | _ => none
    match w with
    | none => s
    | some (b, next) =>
      match t.bar? b with
      | none => s
      | some bar =>
        let ready (g : Nat) : Bool :=
          match t.group? g with
          | some gr => barReady bar (kget 0 b gr.ep)
          | none => false
        if !f.lanes.any (fun e => ready e.1) then s
        else
          let s := f.lanes.foldl (fun s e =>
            if ready e.1 then
              (s.modGroup tid e.1 (fun gr => { gr with ep := kset b ((kget 0 b gr.ep + 1) % 2 ^ 32) gr.ep })).modTeam tid
                (fun u => u.accWaited b (((t.group? e.1).map (fun gr => kget 0 b gr.ep)).getD 0) e.1)
            else s) (s.dropL1 t.core t.vi)
          s.settle tid f f.word s.free (f.lanes.map (fun e =>
            if ready e.1 then (e.1, GOut.go { pc := next, fmt := f.fmt, hm := f.hm })
            else (e.1, GOut.go { st := f.st, pc := f.pc, fmt := f.fmt, hm := f.hm })))

/-- R348: `BARA`, `BARW`, `BARAW` and `WAITC`, once for each home group that is carried. -/
def Ctx.barBody (c : Ctx) (arrive : Bool) (wait : Option FState) (s : State) : State :=
  let b := fld c.o.d 0 4
  let after : Next := match wait with | some st => { c.again with st := st } | none => c.next
  let s := c.runGroups (fun gc s =>
    match (s.team? c.team.id).bind (fun t => (t.bar? b).map (fun _ => t)) with
    | none => (.trap { cause := .barrierInvalid }, s)
    | some t =>
      if arrive then
        match s.groupArrives t gc.g.num b with
        | some s => (.ok () after, s)
        | none => (.trap { cause := .barrierOverflow }, s)
      else (.ok () after, s)) (fun _ s => s) s
  (if wait.isSome then s.barRelease c.team.id c.frag.id else s).heads c.core

/-- R348: the wait of `BARW` and `BARAW`. -/
def Ctx.barwSt (c : Ctx) : FState := .barw (fld c.o.d 0 4) (c.frag.lanes.map (fun e => e.1)) c.next.pc
/-- R348: the wait of `WAITC`. -/
def Ctx.waitcSt (c : Ctx) : FState :=
  .sleeping (fld c.o.d 0 4) (c.frag.lanes.map (fun e => e.1)) (c.frag.pc + c.o.w3.signExtend 64)

/-! ### Guards (R351) -/

/-- R156, R351: `GSET` and `GCLR`, once for each home group that is carried; they release. -/
def Ctx.guardBody (c : Ctx) (set : Bool) (s : State) : State :=
  let g := fld c.o.d 0 4
  let s := s.drainVi c.core c.team.vi
  let s := c.runGroups (fun _ s =>
    match s.team? c.team.id with
    | none => (.hold, s)
    | some t =>
      if set && t.guard g == .idle then (.trap { cause := .guardInvalid }, s)
      else
        let v : Guard := if set then (if bit c.o.d 4 then .true else .false) else .pending
        (.ok () c.next, s.setTeam { t with guards := kset g v t.guards })) (fun _ s => s) s
  s.heads c.core

/-! ### Queue instructions (R352 to R357) -/

/-- The eight scalar registers of a command, as the instruction reads them. -/
def Ctx.cmdWords (c : Ctx) (gc : GCtx) : List Word :=
  (List.range 8).map (fun i => gc.g.readScal c.free (c.o.a.toNat + i))

/-- R351, R352, R357: the word of `QSTAT`; while its start barrier holds a head, its guard does not. -/
def State.qstat (s : State) (t : Team) (g : Group) (q : Nat) : Word :=
  if q = 2 then w32 (g.qix.length % 64 + 64 * (g.inflight % 64))
  else
    let l := (s.core t.core).queue q
    let hd : Nat :=
      match l with
      | [] => 0
      | x :: _ =>
        match s.team? x.team with
        | none => 0
        | some u =>
          b2n (u.head x == .guardHeld) + 2 * b2n (u.head x == .startHeld) + 4 * b2n (x.team == t.id)
    w32 (l.length % 64 + 64 * queueDepth q + 4096 * hd)

/-- R357: `QSTAT`, long-class. -/
def Ctx.qstatBody (c : Ctx) (s : State) : State :=
  c.runGroups (fun _ s => c.okNext () s) (fun l s =>
    let q := fld c.o.a 0 2
    let words := l.map (fun e => (e.1, s.qstat c.team e.1.g q))
    s.modTeam c.team.id (fun t => words.foldl (fun t e =>
      t.modGroup e.1.g.num (fun g => g.addPend (c.results e.1 1 (fun _ => e.2.setWidth 64)))) t)) s

/-- R388: `QSTAT.SAT`: a counter of the team, zeroed after the read where CLR is set. -/
def Ctx.qsatBody (c : Ctx) (s : State) : State :=
  let n := fld c.o.a 0 2
  c.runGroups (fun _ s => c.okNext () s) (fun l s =>
    l.foldl (fun s e =>
      if e.1.act = 0 then s
      else s.modTeam c.team.id (fun t =>
        let v := if n = 0 then t.qsat else if n = 1 then t.qnan else t.fsat
        let t := t.modGroup e.1.g.num (fun g => g.addPend (c.results e.1 1 (fun _ => w64 v)))
        if bit c.o.a 2 then
          (if n = 0 then { t with qsat := 0 } else if n = 1 then { t with qnan := 0 } else { t with fsat := 0 })
        else t)) s) s

/-- R162, R174, R196, R357: the oldest record of a home group goes to its scalars, a long-class result. -/
def State.popIx (s : State) (tid g dst : Nat) (rec : List Word) : State :=
  match s.team? tid with
  | none => s
  | some t =>
    (s.dropL1 t.core t.vi).modGroup tid g (fun gr =>
      { gr with
        pend := gr.pend ++ [{ scal := (List.range 8).map (fun i => (dst + i, nth 0 rec i)) }]
        qix := gr.qix.drop 1 })

/-- R357: a fragment waiting in `QPOP` goes on once every group it waits for has a record; a group that has none and no
request in flight faults. -/
def State.qpopGo (s : State) (tid fid : Nat) : State :=
  match (s.team? tid).bind (fun t => (t.frag? fid).map (fun f => (t, f))) with
  | none => s
  | some (t, f) =>
    match f.st with
    | .qpop dst gs next =>
      let recs := f.lanes.filterMap (fun e =>
        if gs.contains e.1 then some (e.1, (t.group? e.1).bind (fun gr => gr.qix.head?)) else none)
      let dry := (recs.filter (fun e => e.2.isNone && ((t.group? e.1).map (fun gr => gr.inflight)).getD 0 == 0)).map
        (fun e => e.1)
      if !dry.isEmpty then
        s.settle tid f f.word s.free (f.lanes.map (fun e =>
          if dry.contains e.1 then (e.1, GOut.trap { cause := .queueDeadlock, detail := 2 })
          else (e.1, GOut.go { st := .qpop dst (gs.filter (fun g => !dry.contains g)) next, pc := f.pc, fmt := f.fmt, hm := f.hm })))
      else if recs.any (fun e => e.2.isNone) then s
      else
        let s := recs.foldl (fun s e => s.popIx tid e.1 dst (e.2.getD [])) s
        s.settle tid f f.word s.free (f.lanes.map (fun e => (e.1, GOut.go { pc := next, fmt := f.fmt, hm := f.hm })))
    | _ => s

/-- R357: `QPOP`: a group without a record waits; without a request in flight either, it faults. -/
def Ctx.qpopBody (c : Ctx) (s : State) : State :=
  let gs := (c.groups.filter (fun gc => gc.act != 0)).map (fun gc => gc.g.num)
  let s := c.runGroups (fun gc s =>
    if gs.isEmpty then (.ok () c.next, s)
    else if gc.act = 0 then (.ok () { c.again with st := .qpop c.o.d.toNat gs c.next.pc }, s)
    else if gc.g.qix.isEmpty && gc.g.inflight == 0 then (.trap { cause := .queueDeadlock, detail := 2 }, s)
    else (.ok () { c.again with st := .qpop c.o.d.toNat gs c.next.pc }, s)) (fun _ s => s) s
  match s.team? c.team.id with
  | none => s
  | some t =>
    (t.frags.filter (fun f => match f.st with | .qpop _ _ _ => f.pc == c.frag.pc && f.way == c.frag.way | _ => false)).foldl
      (fun s f => s.qpopGo c.team.id f.id) s

/-! ### The exchange (R362, R363) -/

/-- R210: the core that a role of kind core binds for a team. -/
def State.roleCore (s : State) (t : Team) (j : Nat) : Nat :=
  match s.grid? t.grid with
  | none => 144
  | some g =>
    let v := g.roleValue j
    if bit (nth 0 g.roles j) 2 then
      let cw := max g.rc.cw 1
      let own := t.rank / max g.rc.tpc 1
      t.core + 12 * (v / cw) + v % cw - (12 * (own / cw) + own % cw)
    else v

/-- R363: the groups that a group may exchange with, as teams. -/
def State.xchCandidates (s : State) (t : Team) (g : Nat) (x : Xch) : List Team :=
  let tpc := match s.grid? t.grid with | some gr => max gr.rc.tpc 1 | none => 1
  let p := s.roleCore t x.role
  (s.teams.map (fun e => e.2)).filter (fun u =>
    u.grid == t.grid && u.st == .resident && u.core == p && u.rank % tpc == t.rank % tpc && (u.group? g).isSome)

/-- R206, R213, R363: a team of a rank could stand on a core: some origin of the region puts it there. -/
def State.couldStand (s : State) (gr : Grid) (rank core : Nat) : Bool :=
  let geom := (s.part gr.part).geom
  if gr.rc.clusterSize ≤ 1 ∨ gr.rc.graph then (geomCores geom).contains core
  else (origins geom gr.rc.cw gr.rc.ch).any (fun o =>
    nth 144 (rectCores o gr.rc.cw gr.rc.ch) (rank / max gr.rc.tpc 1) == core)

/-- R245, R363: a team of a graph grid may still start: a record waits, or a group that runs could emit one. -/
def State.recordsToCome (s : State) (gr : Grid) : Bool :=
  s.cores.any (fun e => !(kget [] gr.id e.2.deque).isEmpty) ||
  s.teams.any (fun e => e.2.grid == gr.id && !e.2.dead && e.2.groups.any (fun g => !g.2.finished && g.2.xch.isNone))

/-- R363: no candidate can arise any more: of the teams that have not retired and could stand on P with a congruent
rank, none has a group of that number left. -/
def State.xchHopeless (s : State) (t : Team) (g : Nat) (x : Xch) : Bool :=
  match s.grid? t.grid with
  | none => true
  | some gr =>
    let tpc := max gr.rc.tpc 1
    let p := s.roleCore t x.role
    let could (rank : Nat) : Bool := rank % tpc == t.rank % tpc && s.couldStand gr rank p
    let started (i : Nat) : Bool := decide (i < gr.nextIdx) || s.teams.any (fun e => e.2.grid == t.grid && e.2.index == i)
    let toCome := (gr.rc.graph && !gr.stopped && s.couldStand gr 0 p && s.recordsToCome gr) || (!gr.rc.graph && !gr.stopped && gr.retired + (s.teams.filter (fun e => e.2.grid == t.grid)).length < gr.rc.teams
      && (List.range gr.rc.teams).any (fun i =>
        (gr.rc.braid || !started i) && !s.teams.any (fun e => e.2.grid == t.grid && e.2.index == i)
          && could (i % max gr.rc.clusterSize 1)))
    !toCome && s.teams.all (fun e =>
      e.2.grid != t.grid || e.2.id == t.id || !could e.2.rank ||
        (match e.2.group? g with | some h => h.finished | none => true))

/-- R190, R363: a group's exchange is over: it stops, or its fragments go on once none of their groups has
an exchange pending; a fragment whose other groups still wait for their members waits with them. -/
def State.xchEnd (s : State) (tid g : Nat) (trap : Option Trap) : State :=
  let s := s.modGroup tid g (fun gr => { gr with xch := none })
  match s.team? tid with
  | none => s
  | some t =>
    let fs := t.frags.filter (fun f => glanes f.lanes g != 0 &&
      (match f.st with | .xch _ => true | .held (.xch _) _ _ => trap.isSome | _ => false))
    s.stopIn tid (match trap with | some tr => [(g, tr)] | none => []) fs (fun f => f.word) (fun _ f _ =>
      let waits := f.lanes.any (fun e => ((t.group? e.1).bind (fun gr => gr.xch)).isSome)
      match f.st with
      | .xch next =>
        GOut.go (if waits then { st := f.st, pc := f.pc, fmt := f.fmt, hm := f.hm } else { pc := next, fmt := f.fmt, hm := f.hm })
      | _ => GOut.go { st := f.st.only (fun n => n != g), pc := f.pc, fmt := f.fmt, hm := f.hm })

/-- R363: the lanes active in both groups take the partner's values. -/
def State.xchTake (s : State) (tid g : Nat) (mine other : Xch) : State :=
  s.modGroup tid g (fun gr => gr.addPend ((lanesOf (mine.act &&& other.act)).map (fun l =>
    (l, destWords mine.dst (if mine.wide then 2 else 1) (kget 0 l other.vals)))))

/-- R363: XCH_PAIR: the group takes a waiting candidate and the exchange is performed, or it faults. -/
def State.xchPair (s : State) (tid g : Nat) : State :=
  match (s.team? tid).bind (fun t => (t.group? g).bind (fun gr => gr.xch.map (fun x => (t, x)))) with
  | none => s
  | some (t, x) =>
    let waiting := (s.xchCandidates t g x).filterMap (fun u =>
      (u.group? g).bind (fun h => h.xch.map (fun y => (u, y))))
    match leastBy (fun e => e.1.stamp * 2 ^ 24 + e.1.index) waiting with
    | none =>
      if s.xchHopeless t g x then s.xchEnd tid g (some { cause := .exchangeMismatch }) else s
    | some (u, y) =>
      let bad := x.tag != y.tag || x.wide != y.wide || s.roleCore u y.role != t.core || u.id == t.id
      if bad then
        let s := s.xchEnd tid g (some { cause := .exchangeMismatch })
        if u.id = t.id then s else s.xchEnd u.id g (some { cause := .exchangeMismatch })
      else
        let s := (s.xchTake tid g x y).xchTake u.id g y x
        (s.xchEnd tid g none).xchEnd u.id g none

/-- R363: of the groups with a waiting candidate, or without hope of one, the one whose arrivals completed
first; in one clk, the lower placement stamp, then the lower team index. -/
def State.nextXch (s : State) : Option (Nat × Nat) :=
  let l := s.teams.flatMap (fun e => e.2.groups.filterMap (fun h =>
    match h.2.xch with
    | none => none
    | some x =>
      let t := e.2
      if t.st == .resident && ((s.xchCandidates t h.1 x).any (fun u =>
            match u.group? h.1 with | some v => v.xch.isSome | none => false) || s.xchHopeless t h.1 x) then
        some ((x.clk * 2 ^ 64 + t.stamp) * 2 ^ 24 + t.index, e.1, h.1) else none))
  (leastBy (fun e => e.1) l).map (fun e => e.2)

/-- BARINIT (R347). -/
def execBarinit (o : XOps) (s : State) : Host.Outcome State Fault Refusal :=
  issue (.barinit o) s (fun c => c.barinitBody)

/-- BARA_SHORT (R348). -/
def execBaraShort (o : SOps) (s : State) : Host.Outcome State Fault Refusal :=
  issue (.baraShort o) s (fun c => c.barBody true none)

/-- BARA (R348). -/
def execBara (o : XOps) (s : State) : Host.Outcome State Fault Refusal :=
  issue (.bara o) s (fun c => c.barBody true none)

/-- BARW_SHORT (R348). -/
def execBarwShort (o : SOps) (s : State) : Host.Outcome State Fault Refusal :=
  issue (.barwShort o) s (fun c => c.barBody false (some c.barwSt))

/-- BARW (R348). -/
def execBarw (o : XOps) (s : State) : Host.Outcome State Fault Refusal :=
  issue (.barw o) s (fun c => c.barBody false (some c.barwSt))

/-- BARAW_SHORT (R348). -/
def execBarawShort (o : SOps) (s : State) : Host.Outcome State Fault Refusal :=
  issue (.barawShort o) s (fun c => c.barBody true (some c.barwSt))

/-- BARAW (R348). -/
def execBaraw (o : XOps) (s : State) : Host.Outcome State Fault Refusal :=
  issue (.baraw o) s (fun c => c.barBody true (some c.barwSt))

/-- WAITC (R348). -/
def execWaitc (o : XOps) (s : State) : Host.Outcome State Fault Refusal :=
  issue (.waitc o) s (fun c => c.barBody false (some c.waitcSt))

/-- GSET_SHORT (R351). -/
def execGsetShort (o : SOps) (s : State) : Host.Outcome State Fault Refusal :=
  issue (.gsetShort o) s (fun c => c.guardBody true)

/-- GSET (R351). -/
def execGset (o : XOps) (s : State) : Host.Outcome State Fault Refusal :=
  issue (.gset o) s (fun c => c.guardBody true)

/-- GCLR_SHORT (R351). -/
def execGclrShort (o : SOps) (s : State) : Host.Outcome State Fault Refusal :=
  issue (.gclrShort o) s (fun c => c.guardBody false)

/-- GCLR (R351). -/
def execGclr (o : XOps) (s : State) : Host.Outcome State Fault Refusal :=
  issue (.gclr o) s (fun c => c.guardBody false)

/-- XCH (R362, R363). -/
def execXch (o : XOps) (s : State) : Host.Outcome State Fault Refusal :=
  issue (.xch o) s (fun c => c.memberBody (fun gc l => c.srcA gc (tyRegs c.o.ty) l) (fun _ _ => 0))

/-- QPOP_SHORT (R357). -/
def execQpopShort (o : SOps) (s : State) : Host.Outcome State Fault Refusal :=
  issue (.qpopShort o) s (fun c => c.qpopBody)

/-- QPOP (R357). -/
def execQpop (o : XOps) (s : State) : Host.Outcome State Fault Refusal :=
  issue (.qpop o) s (fun c => c.qpopBody)

/-- QSTAT_SHORT (R357). -/
def execQstatShort (o : SOps) (s : State) : Host.Outcome State Fault Refusal :=
  issue (.qstatShort o) s (fun c => c.qstatBody)

/-- QSTAT (R357). -/
def execQstat (o : XOps) (s : State) : Host.Outcome State Fault Refusal :=
  issue (.qstat o) s (fun c => c.qstatBody)

/-- QSTAT_SAT_SHORT (R388). -/
def execQstatSatShort (o : SOps) (s : State) : Host.Outcome State Fault Refusal :=
  issue (.qstatSatShort o) s (fun c => c.qsatBody)

/-- QSTAT_SAT (R388). -/
def execQstatSat (o : XOps) (s : State) : Host.Outcome State Fault Refusal :=
  issue (.qstatSat o) s (fun c => c.qsatBody)

/-- XCH_PAIR (R363). -/
def execXchPair (team group : Nat) (s : State) : Host.Outcome State Fault Refusal :=
  event s (fun s => if s.nextXch = some (team, group) then s.xchPair team group else s)

/-- QPUSH_ENTER (R355). -/
def execQpushEnter (core queue : Nat) (s : State) : Host.Outcome State Fault Refusal :=
  event s (fun s => s.pushEnter core queue)

/-- QPOP_UNBLOCK (R357). -/
def execQpopUnblock (team frag : Nat) (s : State) : Host.Outcome State Fault Refusal :=
  event s (fun s => s.qpopGo team frag)

/-- BARRIER_WAIT_RELEASE (R348). -/
def execBarrierWaitRelease (team frag : Nat) (s : State) : Host.Outcome State Fault Refusal :=
  event s (fun s =>
    match (s.team? team).bind (fun t => t.frag? frag) with
    | some f => (match f.st with | .barw _ _ _ => s.barRelease team frag | _ => s)
    | none => s)

/-- WAITC_REACTIVATE (R348). -/
def execWaitcReactivate (team frag : Nat) (s : State) : Host.Outcome State Fault Refusal :=
  event s (fun s =>
    match (s.team? team).bind (fun t => t.frag? frag) with
    | some f => (match f.st with | .sleeping _ _ _ => s.barRelease team frag | _ => s)
    | none => s)

end Sys2Proof.Machine
end

