-- ==== Sys2Proof/Machine/Engine.lean ====
section
/-! DEFINITION. Accesses of engines and hub agents, and the tile-walk commands: copies, multicast,
publications and migration (R47 to R50, R55, R59, R358 to R361, R391 to R393). -/

namespace Sys2Proof.Machine

/-! ### Accesses that no instruction makes (R55, R59) -/

/-- What an access of an engine or a hub agent comes to: done, a cause, or held, by a migration (R48) or because it finds
no free entry (R120, R123). -/
inductive Eng (α : Type) where
  | ok (a : α)
  | fault (cause : Nat)
  | hold

/-- R55: KIND 5, and the number of the hub die. -/
def engKind : Nat := 5
def hubCore : Nat := 255

/-- Who accesses memory beside the groups: the VI, the core of the violation log, the token class, the privilege and the
cache policy, and how many bytes the request of a burst asks for (R55, R114, R117). -/
structure Agent where
  vi : Nat
  core : Nat := hubCore
  cls : Nat
  priv : Bool := false
  policy : Nat := 0
  span : Option Nat := none
  kind : Nat := engKind
  /-- it waits for a free entry; a step that reads more than one burst waits before its first only -/
  pause : Bool := true

/-- Its access to a page as the slice sees it. -/
def Agent.ask (g : Agent) (x : XOk) : Ask := { x.ask g.vi g.cls g.policy with span := g.span }

/-- R120: the access makes a request that finds no free entry. -/
def State.agentWaits (s : State) (g : Agent) (x : XOk) : Bool := g.pause && g.span != some 0 && s.noEntry (g.ask x) x

/-- A read of the global window by an engine or a hub agent, at its home. -/
def State.agentRead (s : State) (g : Agent) (addr : Dword) (n : Nat) : Eng (List Byte) × State :=
  let r := s.translate g.vi addr .load n g.priv
  if s.heldAt r then (.hold, s)
  else
    match r with
    | .error f => (.fault f.cause.code, s.logViol g.vi addr g.kind g.core f)
    | .ok x =>
      if s.agentWaits g x then (.hold, s)
      else
        let s := s.touchLeaf g.vi .load x
        if x.packed then
          let r := s.packAt (g.ask x) x addr n
          match r.1 with
          | some b => (.ok b, r.2)
          | none => (.fault Cause.poisonRead.code, r.2)
        else
          let r := s.homeRead (g.ask x) (s.keyTag x.leaf) x.pa n
          if s.poisoned x.pa n then (.fault Cause.poisonRead.code, r.2) else (.ok r.1, r.2)

/-- A write of the global window by an engine or a hub agent, at its home. -/
def State.agentWrite (s : State) (g : Agent) (addr : Dword) (bs : List Byte) : Eng Unit × State :=
  let r := s.translate g.vi addr .store bs.length g.priv
  if s.heldAt r then (.hold, s)
  else
    match r with
    | .error f => (.fault f.cause.code, s.logViol g.vi addr g.kind g.core f)
    | .ok x =>
      if s.agentWaits g x then (.hold, s)
      else
        let s := s.touchLeaf g.vi .store x
        (.ok (), s.homeWrite none (g.ask x) (s.keyTag x.leaf) x.pa bs)

/-- A run of bytes read as aligned units of at most 64 bytes; the first fault ends it. -/
def State.agentReads (s : State) (g : Agent) (unit : Nat) : Nat → Dword → List Byte → Eng (List Byte) × State
  | 0, _, acc => (.ok acc, s)
  | n + 1, a, acc =>
    let r := s.agentRead g a unit
    match r.1 with
    | .ok b => State.agentReads r.2 { g with pause := false } unit n (a + w64 unit) (acc ++ b)
    | .fault c => (.fault c, r.2)
    | .hold => (.hold, r.2)

/-- R114: the class of a team's engine commands. -/
def Team.engCls (t : Team) : Nat := if t.deadline then 0 else 2

/-- R13, R359: an offset within a window's address, wrapping in 56 bits. -/
def addrAt (base : Dword) (off : Nat) : Dword := setFld base 0 56 (fld base 0 56 + off)

/-- R114, R117, R353: a tile-walk command as an agent: of a burst, which ends with its line, the first unit asks for all. -/
def Cmd.agent (c : Cmd) (t : Team) (span : Nat) (pause : Bool) : Agent :=
  { vi := t.vi, core := t.core, cls := t.engCls, priv := c.priv, policy := c.policy, span := some span, pause := pause }

/-- R117: the bytes of the request that the unit at an address makes, where `left` units of its run are still to come:
all those in its line where it is the run's first or its line's first, else none. -/
def burst (addr : Dword) (first : Bool) (left : Nat) : Nat :=
  if first || fld addr 0 7 == 0 then min (128 - fld addr 0 7) (16 * left) else 0

/-- A place no group has: what an engine command looks addresses up with. -/
def noGroup : Group := { num := 0, way := 0, exec := 0, launched := 0, win := 0 }

/-- R358: an engine command reads a unit of the global, `sp:` or `cl:` window. -/
def State.engRead (s : State) (t : Team) (c : Cmd) (span : Nat) (addr : Dword) (n : Nat) (pause : Bool := true) :
    Eng (List Byte) × State :=
  if fld addr 56 8 = 0 then s.agentRead (c.agent t span pause) addr n
  else
    match s.locate t noGroup addr .load n with
    | .error f => (.fault f.cause.code, s)
    | .ok (.scr tid off) =>
      match s.team? tid with
      | none => (.fault Cause.scratchRange.code, s)
      | some u => if u.scrPoisoned off n then (.fault Cause.poisonRead.code, s) else (.ok (u.scrRead off n), s)
    | .ok _ => (.fault Cause.spaceInvalid.code, s)

/-- R358: an engine command writes a unit. -/
def State.engWrite (s : State) (t : Team) (c : Cmd) (span : Nat) (addr : Dword) (bs : List Byte) : Eng Unit × State :=
  if fld addr 56 8 = 0 then s.agentWrite (c.agent t span true) addr bs
  else
    match s.locate t noGroup addr .store bs.length with
    | .error f => (.fault f.cause.code, s)
    | .ok (.scr tid off) => (.ok (), s.modTeam tid (fun u => u.scrWrite off bs))
    | .ok _ => (.fault Cause.spaceInvalid.code, s)

/-! ### Starting and finishing (R352, R361) -/

/-- R452, R459: a team whose copies stop at a unit boundary. -/
def Team.stopsCopies (t : Team) : Bool := t.dead || !t.onCore

/-- R130, R351, R361: the head of `q.cp`, where it may start: no other tile-walk command is at work, and its team is not
being saved. -/
def State.cpHead (s : State) (core : Nat) : Option Cmd :=
  let k := s.core core
  match k.qcp with
  | [] => none
  | c :: _ =>
    match s.team? c.team with
    | none => none
    | some t =>
      if k.dbg.halt || !t.onCore || t.head c != .go || k.started.any (fun x => x.instr.isNone && !x.fin) then none
      else some c

/-- The command a tile-walk row of a kind works on: the one at work, or the head, which then starts. -/
def State.cpAtWork (s : State) (core kind : Nat) : Option (Cmd × State) :=
  match (s.core core).started.find? (fun x => x.instr.isNone && !x.fin && x.kind == kind && x.mig.isNone) with
  | some c => some (c, s)
  | none =>
    match s.cpHead core with
    | none => none
    | some c =>
      if c.kind = kind then
        let c := { c with begun := true }
        some (c, (s.modCore core (fun k => { k with qcp := k.qcp.drop 1, started := k.started ++ [c] })).heads core)
      else none

/-- A started command as it stands after some of its work. -/
def State.putStarted (s : State) (core : Nat) (c : Cmd) : State := s.modCore core (fun k => k.setStarted c)

/-- A command's work is over. -/
def Cmd.finish (c : Cmd) (status cause done : Nat) : Cmd :=
  { c with fin := true, status := status, cause := cause, done := done }

/-- How many of the remaining units a row performs: all that remain where there is one, else a free number
of them (R361, R120). -/
def State.runLength (s : State) (n : Nat) : Nat := if n ≤ 1 then n else Config.freeRank s.free n % n + 1

/-! ### COPY, COPY2D, COPY3D (R359) -/

/-- R359: rows, row length and planes of a copy. -/
def Cmd.shape (c : Cmd) : Nat × Nat × Nat :=
  let w := nth 0 c.body 0
  if c.kind = 1 then (1, w.toNat / 16, 1) else (fld w 12 10, fld w 0 12, fld w 22 10)

/-- R359: the offsets of unit `k` from SRC and DST. -/
def Cmd.unitAt (c : Cmd) (k : Nat) : Nat × Nat :=
  let sh := c.shape
  let u := k % sh.2.1
  let r := k / sh.2.1 % sh.1
  let p := k / sh.2.1 / sh.1
  let w5 := nth 0 c.body 5
  let w6 := if c.kind = 3 then nth 0 c.body 6 else 0
  (16 * ((p * fld w6 0 16 + r) * fld w5 0 16 + u), 16 * ((p * fld w6 16 16 + r) * fld w5 16 16 + u))

/-- R117: the bytes that the requests for unit `k` at two addresses ask for. -/
def Cmd.bursts (c : Cmd) (k : Nat) (src dst : Dword) : Nat × Nat :=
  let u := k % c.shape.2.1
  (burst src (u == 0) (c.shape.2.1 - u), burst dst (u == 0) (c.shape.2.1 - u))

/-- R359: units of a copy in linear order, on fuel; it pauses between two of them where the second one's read or write
is held (R48, R120). -/
def State.copyUnits (t : Team) (total : Nat) : Nat → Cmd → State → Cmd × State
  | 0, c, s => (c, s)
  | n + 1, c, s =>
    if total ≤ c.resume then (c.finish 0 0 total, s)
    else
      let src := addrAt (c.pair 1) (c.unitAt c.resume).1
      let dst := addrAt (c.pair 3) (c.unitAt c.resume).2
      let len := c.bursts c.resume src dst
      let r := s.engRead t c len.1 src 16
      match r.1 with
      | .hold => (c, s)
      | .fault x => (c.finish 2 x c.resume, r.2)
      | .ok b =>
        let w := r.2.engWrite t c len.2 dst b
        match w.1 with
        | .hold => (c, s)
        | .fault x => (c.finish 2 x c.resume, w.2)
        | .ok _ =>
          let c := { c with resume := c.resume + 1 }
          if total ≤ c.resume then (c.finish 0 0 total, w.2) else State.copyUnits t total n c w.2

/-- R359, R361: a copy row: some of the command's units, from where it stands. -/
def State.copyStep (s : State) (core kind : Nat) : State :=
  match s.cpAtWork core kind with
  | none => s
  | some (c, s) =>
    match s.team? c.team with
    | none => s
    | some t =>
      if t.dead then s.putStarted core (c.finish 1 0 0)
      else if t.stopsCopies then s
      else
        let sh := c.shape
        let total := sh.1 * sh.2.1 * sh.2.2
        let r := State.copyUnits t total (s.runLength (total - c.resume)) c s
        r.2.putStarted core r.1

/-! ### MCAST (R359) -/

/-- The ranks of a mask, ascending. -/
def ranksOf (m : Nat) : List Nat := (List.range 16).filter (fun r => (m / 2 ^ r) % 2 == 1)

/-- R359: units of a multicast: one read, a `cl:` write to each target. -/
def State.mcastUnits (t : Team) (targets : List Nat) (doff total : Nat) : Nat → Cmd → State → Cmd × State
  | 0, c, s => (c, s)
  | n + 1, c, s =>
    if total ≤ c.resume then (c.finish 0 0 total, s)
    else
      let src := addrAt (c.pair 1) (16 * c.resume)
      let r := s.engRead t c (burst src (c.resume == 0) (total - c.resume)) src 16
      match r.1 with
      | .hold => (c, s)
      | .fault x => (c.finish 2 x c.resume, r.2)
      | .ok b =>
        let s := targets.foldl (fun s u => s.modTeam u (fun u => u.scrWrite (doff + 16 * c.resume) b)) r.2
        let c := { c with resume := c.resume + 1 }
        if total ≤ c.resume then (c.finish 0 0 total, s) else State.mcastUnits t targets doff total n c s

/-- R359: MCAST: the bound of every target is checked once, before anything is written. -/
def State.mcastStep (s : State) (core : Nat) : State :=
  match s.cpAtWork core 4 with
  | none => s
  | some (c, s) =>
    match s.team? c.team with
    | none => s
    | some t =>
      if t.dead then s.putStarted core (c.finish 1 0 0)
      else if t.stopsCopies then s
      else
        let len := (nth 0 c.body 0).toNat
        let doff := fld (c.pair 3) 0 40
        let us := (ranksOf (fld (nth 0 c.body 5) 0 16)).map (fun r => s.rankTeam t r)
        let ok := us.all (fun u => match u with | some u => decide (doff + len ≤ u.scrSize) | none => false)
        if !ok && !c.checked then s.putStarted core (c.finish 2 Cause.scratchRange.code 0)
        else
          let targets := us.filterMap (fun u => u.map (fun u => u.id))
          let total := len / 16
          let r := State.mcastUnits t targets doff total (s.runLength (total - c.resume)) { c with checked := true } s
          r.2.putStarted core r.1

/-! ### Publications (R391 to R393) -/

/-- R391: why a publication is invalid now, and whether every subscriber is ready for it. -/
def State.pubState (s : State) (t : Team) (c : Cmd) : Option Cause × Bool :=
  let len := (nth 0 c.body 3).toNat
  let l := (ranksOf (fld (nth 0 c.body 0) 0 16)).map (fun r => s.rankTeam t r)
  let bad := l.any (fun u =>
    match u with
    | none => true
    | some u => (match kfind c.sid u.subs with | some b => !b.isOpen || decide (b.slot < len) | none => false))
  let ready := l.all (fun u =>
    match u with
    | none => false
    | some u => u.onCore &&
        (match kfind c.sid u.subs with | some b => b.isOpen && decide (b.out < b.w) | none => false))
  (if bad then some .streamInvalid else none, ready)

/-- R391: one slot is reserved in each named subscription. -/
def State.pubReserve (s : State) (t : Team) (c : Cmd) : Cmd × State :=
  (ranksOf (fld (nth 0 c.body 0) 0 16)).foldl (fun acc r =>
    match (acc.2.rankTeam t r).bind (fun u => (kfind c.sid u.subs).map (fun b => (u, b))) with
    | none => acc
    | some (u, b) =>
      ({ acc.1 with slots := acc.1.slots ++ [(r, b.next)] },
       acc.2.setTeam { u with subs := kset c.sid { b with out := b.out + 1, next := b.next + 1, reserved := b.reserved + 1 } u.subs }))
    (c, s)

/-- R391: PUBLISH_RESERVE: a group whose subscribers are ready reserves its slots and pushes its command; a
group whose stream has become invalid faults. -/
def State.publishGo (s : State) (tid fid : Nat) : State :=
  match (s.team? tid).bind (fun t => (t.frag? fid).map (fun f => (t, f))) with
  | none => s
  | some (t, f) =>
    match f.st with
    | .publish (c :: rest) next =>
      let wait : Next := { st := .publish rest next, pc := f.pc, fmt := f.fmt, hm := f.hm }
      let others (g : Nat) (x : GOut) : List (Nat × GOut) :=
        f.lanes.map (fun e => if e.1 = g then (e.1, x) else (e.1, GOut.go wait))
      let p := s.pubState t c
      match p.1 with
      | some cause => s.settle tid f f.word s.free (others c.group (.trap cause.plain))
      | none =>
        if !p.2 then s
        else
          let r := s.pubReserve t c
          let full := r.2.queueWaiters t.core 1 || decide (queueDepth 1 ≤ ((r.2.core t.core).queue 1).length)
          if full then
            let n := r.2.fresh
            ((n.2.settle tid f f.word s.free (others c.group
              (.go { st := .qpush 1 [r.1] n.1 next, pc := f.pc, fmt := f.fmt, hm := f.hm }))).heads t.core).deadlock tid
          else
            ((r.2.enterQueue t.core 1 r.1).settle tid f f.word s.free (others c.group
              (.go { pc := next, fmt := f.fmt, hm := f.hm }))).heads t.core
    | _ => s

/-- R392: a command that is a publication. -/
def Cmd.isPub (c : Cmd) (q : Nat) : Bool := q == 1 && c.kind == 5

/-- R354, R355, R373, R391, R392: each home group's command is checked; those that pass enter while entries
are free, and the groups left over are blocked; publications wait for their subscribers first. -/
def Ctx.pushBody (c : Ctx) (q : Nat) (mk : GCtx → Except Trap Cmd) (s : State) : State :=
  let vs := c.groups.map (fun gc =>
    (gc.g.num,
      if gc.act = 0 then (Except.ok none : Except Trap (Option Cmd))
      else
        match mk gc with
        | .error t => .error t
        | .ok x =>
          match (if x.isPub q then (s.pubState c.team x).1 else none) with
          | some e => .error e.plain
          | none => if c.poisonedOperand gc then .error uncTrap else .ok (some x)))
  let all := vs.filterMap (fun e => match e.2 with | .ok (some x) => some x | _ => none)
  let pubs := all.filter (fun x => x.isPub q)
  let cmds := all.filter (fun x => !x.isPub q)
  let s := if q = 1 && !all.isEmpty then s.drainVi c.core c.team.vi else s
  let free := if s.queueWaiters c.core q then 0 else queueDepth q - ((s.core c.core).queue q).length
  let late := cmds.drop free
  let s := (cmds.take free).foldl (fun s x => s.enterQueue c.core q x) s
  let n := s.fresh
  let s := if late.isEmpty then s else n.2
  let outs := vs.map (fun e =>
    match e.2 with
    | .error t => (e.1, GOut.trap t)
    | .ok none => (e.1, GOut.go c.next)
    | .ok (some x) =>
      if x.isPub q then (e.1, GOut.go { c.again with st := .publish pubs c.next.pc })
      else if late.any (fun y => y.group == x.group) then
        (e.1, GOut.go { c.again with st := .qpush q late n.1 c.next.pc })
      else (e.1, GOut.go c.next))
  let s := ((c.settle outs s).heads c.core).deadlock c.team.id
  pubs.foldl (fun s x =>
    match (s.team? c.team.id).bind (fun t => t.frags.find? (fun f =>
        match f.st with | .publish (y :: _) _ => y == x && f.lanes.any (fun e => e.1 == x.group) | _ => false)) with
    | some f => s.publishGo c.team.id f.id
    | none => s) s

/-- R393: the chunk of a publication, in units of 16 bytes. -/
def State.readChunk (s : State) (t : Team) (c : Cmd) : Nat → Nat → List Byte → Eng (List Byte) × State
  | 0, _, acc => (.ok acc, s)
  | n + 1, k, acc =>
    let src := addrAt (c.pair 1) (16 * k)
    let r := s.engRead t c (burst src (k == 0) (n + 1)) src 16 (k == 0)
    match r.1 with
    | .ok b => State.readChunk r.2 t c n (k + 1) (acc ++ b)
    | .fault x => (.fault x, r.2)
    | .hold => (.hold, r.2)

/-- R393: PUBLISH_COMMAND: the chunk is read once and written to every subscriber. -/
def State.publishStep (s : State) (core : Nat) : State :=
  match s.cpAtWork core 5 with
  | none => s
  | some (c, s) =>
    match s.team? c.team with
    | none => s
    | some t =>
      if !s.pubTurn t c then s
      else
        let len := (nth 0 c.body 3).toNat
        let r := s.readChunk t c (len / 16) 0 []
        match r.1 with
        | .hold => s
        | .fault x => r.2.putStarted core (c.finish 2 x 0)
        | .ok bs =>
          let s := c.slots.foldl (fun s e =>
            match (s.rankTeam t e.1).bind (fun u => (kfind c.sid u.subs).map (fun b => (u, b))) with
            | none => s
            | some (u, b) => s.modTeam u.id (fun u => u.scrWrite (b.base + b.slot * (e.2 % b.w)) bs)) r.2
          s.putStarted core (c.finish 0 0 (len / 16))

/-! ### Migration (R47 to R50) -/

/-- R47: a migration completes with an error and changes nothing. -/
def migFail (core : Nat) (c : Cmd) (status : Nat) (s : State) : State := s.putStarted core (c.finish status 0 0)

/-- R28, R48: every cached copy of an entry of a table is invalidated, whatever VI's walk brought it. -/
def State.purgeEntry (s : State) (ea : Nat) : State :=
  { s with vids := s.vids.map (fun e => (e.1, { e.2 with tlb := e.2.tlb.filter (fun x => x.2.1 != ea) })) }

/-- R47 to R49: MIGRATE: the conditions are checked; the leaf enters its migrating state and every cached
copy of it is invalidated.  A migration of a leaf that is migrating waits. -/
def State.migrateStep (s : State) (core : Nat) : State :=
  match s.cpAtWork core 6 with
  | none => s
  | some (c, s) =>
    let vi := fld (nth 0 c.body 0) 0 6
    let a := fld (c.pair 1) 0 56
    let dest := fld (c.pair 3) 0 48
    let v := s.vi vi
    let root := fld v.troot 13 35 * 8192
    if !bit v.troot 0 || !(isNear root || isFar root) || fld (c.pair 1) 56 8 != 0
        || decide (a / 2 ^ fld v.cfg 0 6 ≠ 0) then migFail core c 3 s
    else
      match s.walk vi a .prefetch (bit v.troot 1) (fld v.troot 52 12) [0, 1, 2, 3] root [] with
      | .error f =>
        let s := s.logViol vi (c.pair 1) 6 core f
        match f.viol with
        | some _ => migFail core c 6 s
        | none => if f.cause = .pageNotPresent then migFail core c 3 s else s.putStarted core (c.finish 2 f.cause.code 0)
      | .ok (e, lvl, ea, seen) =>
        if s.migrating ea then s
        else
          let psz := pageSize lvl
          let frame := fld e 16 32
          let s := s.walkReads vi (s.tableTag vi) (seen.map (fun e => e.2.1))
          if lvl = 1 then migFail core c 4 s
          else if dest % psz ≠ 0 then migFail core c 5 s
          else
            let last := dest / 65536 + leafLen e psz / 65536 - (if leafLen e psz < 65536 then 0 else 1)
            match (if isPopulated dest then s.rangeRefuses vi (dest / 65536) last else some false) with
            | some res =>
              migFail core c 6 (s.logViol vi (c.pair 1) 6 core { cause := .viViolation, viol := some (dest, false, res) })
            | none =>
              if dest = frame * 65536 then s.putStarted core (c.finish 0 0 0)
              else (s.purgeEntry ea).putStarted core { c with mig := some (ea, e, a / psz * psz, psz, dest) }

/-- R48 step 3: every store buffered for the frames is performed at its home. -/
def State.drainRange (s : State) (lo hi : Nat) : State :=
  (s.cores.map (fun e => e.1)).foldl (fun s c => s.drainIf c (fun w => decide (lo ≤ w.pa) && decide (w.pa < hi))) s

/-- R48 step 3: an operation that waits for its ticket (R127) was translated before step 1. -/
def State.ticketsIn (s : State) (lo hi : Nat) : Bool :=
  s.tickReq.any (fun r =>
    match r.op with
    | some o => (match o.place with | .glob _ pa _ _ _ => decide (lo ≤ pa) && decide (pa < hi) | .scr .. => false)
    | none => false)

/-- R48 step 4: every line of the old frame leaves every slice and L1, and the decoded lines of the page are gone. -/
def State.flushFrame (s : State) (lo hi : Nat) : State :=
  let inside (a : Nat) : Bool := decide (lo ≤ a) && decide (a < hi)
  let s := (s.flushLines (fun l => l.dec.isNone && inside l.line)).dropDecoded (fun _ pack => pack == lo)
  { s with cores := s.cores.map (fun e => (e.1, { e.2 with l1 := e.2.l1.filter (fun l => !inside l.line) })) }

/-- R114, R117: what the data of a migration asks for in the copy class: at the homes a request for each line, at the
ports one for each 512 bytes. -/
def State.copyMeter (s : State) (vi lo len : Nat) : State :=
  if isHost lo then s
  else
    let s := (List.range (len / 128)).foldl (fun s i => s.meter (s.home (lo + 128 * i) (s.partOf vi)) 2 (lo + 128 * i) 128) s
    (List.range (len / 512)).foldl (fun s i => s.meterPort (s.portOf (lo + 512 * i)) 2 512) s

/-- R48 step 5: the page or its pack copied to its new frame, decrypted and encrypted anew under the
same key pair, with its poison. -/
def State.copyFrame (s : State) (tag : KTag) (old new len : Nat) : State :=
  let poison := (s.memPoison.filter (fun e => decide (old ≤ 128 * e.1) && decide (128 * e.1 < old + len))).map
    (fun e => (e.1 - old / 128 + new / 128, e.2))
  let s := (List.range (len / 64)).foldl (fun s i =>
    let bs := s.bytesAs tag (old + 64 * i) 64
    (s.clearPoison (new + 64 * i) 64).putBytes tag (new + 64 * i) bs) s
  { s with
    memPoison := poison.foldl (fun l e => kset e.1 e.2 l) s.memPoison
    cores := s.cores.map (fun e => (e.1, { e.2 with l1 := e.2.l1.filter (fun l =>
      !(decide (new ≤ l.line) && decide (l.line < new + len))) })) }

/-- R48 step 6: the hotness counters of the old frames move to the new ones. -/
def State.moveHot (s : State) (old new len : Nat) : State :=
  (List.range (max (len / 65536) 1)).foldl (fun s i =>
    let o := hotAddr (old + 65536 * i)
    let n := hotAddr (new + 65536 * i)
    if isHost old then s
    else if isHost new then s.put o 0
    else (s.put n (s.raw o)).put o 0) s

/-- R48 steps 3 to 7: MIGRATE_COPY: the page moves, the leaf takes the new frame and the held accesses are
released. -/
def State.migrateCopy (s : State) (core cmd : Nat) : State :=
  match (s.core core).startedCmd cmd with
  | none => s
  | some c =>
    match c.mig with
    | none => s
    | some (ea, _, _, psz, dest) =>
      let vi := fld (nth 0 c.body 0) 0 6
      let etag := s.tableTag vi
      let e : Dword := w64 (leNat (s.bytesAs etag ea 8))
      let old := fld e 16 32 * 65536
      let len := leafLen e psz
      if s.ticketsIn old (old + len) then s
      else
        let s := (s.drainRange old (old + len)).flushFrame old (old + len)
        let s := ((s.copyMeter vi old len).copyMeter vi dest len).copyFrame (s.keyTag e) old dest len
        let s := s.homeWrite none { vi := vi, cls := 3 } etag ea (leBytes 8 (setFld e 16 32 (dest / 65536)).toNat)
        let s := if bit (nth 0 c.body 0) 6 then s.moveHot old dest len else s
        s.putStarted core { (c.finish 0 0 (len / 16)) with mig := none }

/-- R360: ENGINE_COMMAND_COMPLETE: a started command that has done its work completes; publications in the
order of their slots. -/
def State.cmdComplete (s : State) (core cmd : Nat) : State :=
  match (s.core core).startedCmd cmd with
  | none => s
  | some c =>
    match s.team? c.team with
    | none => if c.fin then s.modCore core (fun k => { k with started := k.started.filter (fun x => x.id != c.id) }) else s
    | some t => if c.fin && s.pubTurn t c then s.finishCmd core c else s

/-! ### The rows -/

/-- R354, R375, R392: `QPUSH`. -/
def Ctx.qpushBody (c : Ctx) (s : State) : State :=
  let q := fld c.o.d 0 2
  let mk (gc : GCtx) : Except Trap Cmd :=
    match s.checkPush c.team c.frag gc.g.num q (c.cmdWords gc) with
    | .error e => .error e.plain
    | .ok x => .ok x
  c.pushBody q mk s

/-- QPUSH_SHORT (R354). -/
def execQpushShort (o : SOps) (s : State) : Host.Outcome State Fault Refusal :=
  issue (.qpushShort o) s (fun c => c.qpushBody)

/-- QPUSH (R354). -/
def execQpush (o : XOps) (s : State) : Host.Outcome State Fault Refusal :=
  issue (.qpush o) s (fun c => c.qpushBody)

/-- COPY (R359). -/
def execCopy (core : Nat) (s : State) : Host.Outcome State Fault Refusal :=
  event s (fun s => s.copyStep core 1)

/-- COPY2D (R359). -/
def execCopy2d (core : Nat) (s : State) : Host.Outcome State Fault Refusal :=
  event s (fun s => s.copyStep core 2)

/-- COPY3D (R359). -/
def execCopy3d (core : Nat) (s : State) : Host.Outcome State Fault Refusal :=
  event s (fun s => s.copyStep core 3)

/-- MCAST (R359). -/
def execMcast (core : Nat) (s : State) : Host.Outcome State Fault Refusal :=
  event s (fun s => s.mcastStep core)

/-- PUBLISH_COMMAND (R393). -/
def execPublishCommand (core : Nat) (s : State) : Host.Outcome State Fault Refusal :=
  event s (fun s => s.publishStep core)

/-- MIGRATE (R48). -/
def execMigrate (core : Nat) (s : State) : Host.Outcome State Fault Refusal :=
  event s (fun s => s.migrateStep core)

/-- MIGRATE_COPY (R48). -/
def execMigrateCopy (core cmd : Nat) (s : State) : Host.Outcome State Fault Refusal :=
  event s (fun s => s.migrateCopy core cmd)

/-- ENGINE_COMMAND_COMPLETE (R360). -/
def execEngineCommandComplete (core cmd : Nat) (s : State) : Host.Outcome State Fault Refusal :=
  event s (fun s => s.cmdComplete core cmd)

/-- PUBLISH_RESERVE (R391). -/
def execPublishReserve (team frag : Nat) (s : State) : Host.Outcome State Fault Refusal :=
  event s (fun s => s.publishGo team frag)

end Sys2Proof.Machine
end

