-- ==== Sys2Proof/Machine/Exact.lean ====
section
/-! DEFINITION. Exact rational arithmetic for the warp, the raster and the intersection test (R282, R437 to
R444): fractions with a positive denominator, never reduced, and their one rounding to FP32. -/

namespace Sys2Proof.Machine

/-- A fraction `n / d`; `d` is positive wherever one is formed. -/
structure Q where
  n : Int
  d : Nat
  deriving DecidableEq, Repr

def Q.ofNat (n : Nat) : Q := { n := n, d := 1 }
def Q.frac (n d : Nat) : Q := { n := n, d := d }
def Q.add (a b : Q) : Q := if a.d = b.d then { n := a.n + b.n, d := a.d } else { n := a.n * b.d + b.n * a.d, d := a.d * b.d }
def Q.neg (a : Q) : Q := { a with n := -a.n }
def Q.sub (a b : Q) : Q := a.add b.neg
def Q.mul (a b : Q) : Q := { n := a.n * b.n, d := a.d * b.d }
/-- The quotient by a fraction that is not zero. -/
def Q.div (a b : Q) : Q := { n := a.n * b.d * (if b.n < 0 then -1 else 1), d := a.d * b.n.natAbs }
def Q.lt (a b : Q) : Bool := decide (a.n * b.d < b.n * a.d)
def Q.le (a b : Q) : Bool := decide (a.n * b.d ≤ b.n * a.d)
def Q.eq (a b : Q) : Bool := decide (a.n * b.d = b.n * a.d)
def Q.isZero (a : Q) : Bool := a.n == 0
def Q.isNeg (a : Q) : Bool := decide (a.n < 0)
def Q.isPos (a : Q) : Bool := decide (0 < a.n)
def Q.min (a b : Q) : Q := if a.le b then a else b
def Q.max (a b : Q) : Q := if a.le b then b else a
/-- R7: `Sat`. -/
def Q.sat (a lo hi : Q) : Q := (a.max lo).min hi
/-- `⌊a⌋`. -/
def Q.floor (a : Q) : Int := a.n.fdiv a.d

/-- The nearest integer, ties to even. -/
def Q.nearest (a : Q) : Int :=
  let f := a.floor
  let r := (a.n - f * a.d) * 2
  if r < a.d then f else if (a.d : Int) < r then f + 1 else if f % 2 = 0 then f else f + 1

/-- The exact value of a finite number. -/
def Q.fin (neg : Bool) (m : Nat) (e : Int) : Q :=
  let v : Int := if neg then -(m : Int) else m
  if 0 ≤ e then { n := v * 2 ^ e.toNat, d := 1 } else { n := v, d := 2 ^ (-e).toNat }

/-- The exact value of a finite FP32 word; none for an infinity or a NaN. -/
def Q.ofF32 (w : Word) : Option Q :=
  match fF32.dec w.toNat with
  | .fin s m e => some (Q.fin s m e)
  | _ => none

/-- R286: a fraction rounded to FP32 by RNE; an exact zero is +0.0. -/
def Q.f32 (a : Q) : Word :=
  let k := 72 + bitLen a.d
  let m := a.n.natAbs * 2 ^ k
  w32 (fF32.round .rne false false
    (.fin a.isNeg (2 * (m / a.d) + (if m % a.d = 0 then 0 else 1)) (-(k : Int) - 1))).1

/-- A fraction after its rounding to FP32, where that is finite. -/
def Q.rne (a : Q) : Q := (Q.ofF32 a.f32).getD a

/-- One FP32 operation rounded by RNE (R282). -/
def addW (a b : Word) : Word := w32 (fF32.add fEnvEngine a.toNat b.toNat).1
def mulW (a b : Word) : Word := w32 (fF32.mul fEnvEngine a.toNat b.toNat).1

/-- An FP32 word is a NaN. -/
def isNaN (w : Word) : Bool := fF32.dec w.toNat == .nan
/-- An FP32 word is neither NaN nor an infinity. -/
def isFinite (w : Word) : Bool := (Q.ofF32 w).isSome

/-- A bound: a fraction or an infinity (R443, R444). -/
inductive Bnd where
  | ninf
  | fin (q : Q)
  | pinf
  deriving DecidableEq, Repr

/-- The bound an FP32 word gives; a NaN gives none. -/
def Bnd.ofF32 (w : Word) : Option Bnd :=
  match fF32.dec w.toNat with
  | .nan => none
  | .inf s => some (if s then .ninf else .pinf)
  | .fin s m e => some (.fin (Q.fin s m e))

def Bnd.le : Bnd → Bnd → Bool
  | .ninf, _ => true
  | _, .pinf => true
  | .fin a, .fin b => a.le b
  | _, _ => false
def Bnd.max (a b : Bnd) : Bnd := if a.le b then b else a
def Bnd.min (a b : Bnd) : Bnd := if a.le b then a else b

end Sys2Proof.Machine
end

