-- ==== Sys2Proof/Machine/View.lean ====
section
/-! DEFINITION. The warped view pipeline: frame sets, warps as latched, clipping and rasterisation of a
meshlet into tile memory (R94, R95, R433, R435, R437 to R441). -/

namespace Sys2Proof.Machine

/-! ### Views and outputs (R429, R433) -/

def Disp.en (d : Disp) : Bool := bit d.cfg 0
def Disp.wt (d : Disp) : Nat := fld d.cfg 4 8
def Disp.ht (d : Disp) : Nat := fld d.cfg 12 8
def Disp.nstrip (d : Disp) : Nat := fld d.cfg 20 6
def Disp.lead (d : Disp) : Nat := fld d.cfg 26 5
def Disp.owner (d : Disp) : Nat := fld d.cfg 32 6
def Disp.ring (d : Disp) : Nat := fld d.cfg 38 2
def View.en (v : View) : Bool := bit v.cfg 0
def View.output (v : View) : Nat := fld v.cfg 1 3
def View.txv (v : View) : Nat := fld v.cfg 8 8
def View.tyv (v : View) : Nat := fld v.cfg 16 8

/-- R433: a view is in the frame set of a VI. -/
def State.inFrameSet (s : State) (vi v : Nat) : Bool :=
  let x := s.view v
  let d := s.disp x.output
  decide (v < 16) && x.en && d.en && d.owner == vi

/-! ### The warp (R437, R438) -/

/-- One segment of an axis: its screen interval and its raster interval. -/
structure Seg where
  u0 : Q
  u1 : Q
  r0 : Q
  r1 : Q
  deriving DecidableEq, Repr

/-- R437: the nine knots of an axis from its gaze and its band widths. -/
def warpKnots (g : Word) (bw : Dword) : List Q :=
  let c : Q :=
    match Bnd.ofF32 g with
    | none => Q.frac 1 2
    | some .ninf => Q.ofNat 0
    | some .pinf => Q.ofNat 1
    | some (.fin q) => q.sat (Q.ofNat 0) (Q.ofNat 1)
  let b (k : Nat) : Q := Q.frac (fld bw (16 * k) 16) 65536
  let e1 := ((Q.ofNat 0).add (b 0)).rne
  let e2 := (e1.add (b 1)).rne
  let e3 := (e2.add (b 2)).rne
  let e4 := (e3.add (b 3)).rne
  let lo (e : Q) : Q := (c.sub e).rne.sat (Q.ofNat 0) (Q.ofNat 1)
  let hi (e : Q) : Q := (c.add e).rne.sat (Q.ofNat 0) (Q.ofNat 1)
  [lo e4, lo e3, lo e2, lo e1, c, hi e1, hi e2, hi e3, hi e4]

/-- R437: the stretches of constant density of an axis; `sh` is where its densities begin in the register. -/
def warpBands (knots : List Q) (den : Dword) (sh : Nat) : List (Q × Q × Q) :=
  let d (k : Nat) : Q := Q.frac (fld den (sh + 8 * (k - 1)) 8 + 1) 256
  let one := Q.ofNat 1
  ((Q.ofNat 0 :: knots).zip (knots ++ [one])).zip [d 4, d 3, d 2, d 1, one, one, d 1, d 2, d 3, d 4]
    |>.map (fun e => (e.1.1, e.1.2, e.2))

/-- R437: `r(x)`. -/
def warpIntegral (bands : List (Q × Q × Q)) (x : Q) : Q :=
  bands.foldl (fun a b => a.add (b.2.2.mul ((x.sat b.1 b.2.1).sub b.1))) (Q.ofNat 0)

/-- The segments through a list of points. -/
def segsOf (pts : List (Q × Q)) : List Seg :=
  (pts.zip (pts.drop 1)).map (fun e => { u0 := e.1.1, u1 := e.2.1, r0 := e.1.2, r1 := e.2.2 })

/-- R437: the x axis. -/
def warpX (v : View) : List Seg :=
  let ks := warpKnots (w32 (fld v.gaze 0 32)) v.bwx
  let r := warpIntegral (warpBands ks v.den 0)
  let rw := Q.ofNat (16 * v.txv)
  segsOf ((Q.ofNat 0, Q.ofNat 0) :: ks.map (fun u => (u, ((rw.mul (r u)).div (r (Q.ofNat 1))).rne)) ++ [(Q.ofNat 1, rw)])

/-- R437: the y axis of a strip. -/
def warpY (v : View) (strip n : Nat) : List Seg :=
  let ks := warpKnots (w32 (fld v.gaze 32 32)) v.bwy
  let r := warpIntegral (warpBands ks v.den 32)
  let rh := Q.ofNat (16 * v.tyv)
  let a := Q.frac strip n
  let b := Q.frac (strip + 1) n
  let inside := ks.filter (fun u => a.lt u && u.lt b)
  segsOf ((a, Q.ofNat 0) :: inside.map (fun u => (u, ((rh.mul ((r u).sub (r a))).div ((r b).sub (r a))).rne)) ++ [(b, rh)])

/-- R437, R438: the segment whose half-open raster interval holds the centre of a sample. -/
def segAt (l : List Seg) (k : Nat) : Option Seg :=
  let p := Q.frac (2 * k + 1) 2
  l.find? (fun s => s.r0.le p && p.lt s.r1)

/-- R438: the screen position of a sample on one axis. -/
def Seg.pos (s : Seg) (k : Nat) : Word :=
  let p := Q.frac (2 * k + 1) 2
  (s.u0.add (((p.sub s.r0).mul (s.u1.sub s.u0)).div (s.r1.sub s.r0))).f32

/-- R440: a screen coordinate mapped by the segment's line, in 1/256 sample, ties to an even multiple. -/
def Seg.snap (s : Seg) (u : Q) : Int :=
  let x := s.r0.add (((u.sub s.u0).mul (s.r1.sub s.r0)).div (s.u1.sub s.u0))
  (x.mul (Q.ofNat 256)).nearest

/-- R435: the view as the strip's warp has it: its latest snapshot, or its registers as they stand. -/
def State.warpView (s : State) (v strip : Nat) : View :=
  match kfind (32 * v + strip) (s.dispd (s.view v).output).snap with
  | some x => x
  | none => s.view v

/-- R437: the two axes of a strip of a view. -/
def State.warp (s : State) (v strip : Nat) : List Seg × List Seg :=
  let x := s.warpView v strip
  (warpX x, warpY x strip (s.disp (s.view v).output).nstrip)

/-! ### Clipping (R439) -/

/-- A point of clip space. -/
structure V4 where
  x : Q
  y : Q
  z : Q
  w : Q
  deriving DecidableEq, Repr

/-- R439: `c[i]`. -/
def clipCoord (m : List Word) (p : List Word) (i : Nat) : Word :=
  let t (j : Nat) : Word := mulW (nth 0 m (4 * i + j)) (nth 0 p j)
  addW (addW (addW (t 0) (t 1)) (t 2)) (t 3)

/-- R439: a vertex in clip space; none where a coordinate is not finite. -/
def clipVertex (m : List Word) (p : List Word) : Option V4 :=
  match Q.ofF32 (clipCoord m p 0), Q.ofF32 (clipCoord m p 1), Q.ofF32 (clipCoord m p 2), Q.ofF32 (clipCoord m p 3) with
  | some x, some y, some z, some w => some { x := x, y := y, z := z, w := w }
  | _, _, _, _ => none

/-- The point of an edge where a linear function that is positive at one end and negative at the other
vanishes. -/
def V4.cut (a b : V4) (fa fb : Q) : V4 :=
  let t := fa.div (fa.sub fb)
  let mix (p q : Q) : Q := p.add (t.mul (q.sub p))
  { x := mix a.x b.x, y := mix a.y b.y, z := mix a.z b.z, w := mix a.w b.w }

/-- R439: a polygon clipped to the points where a linear function is not negative. -/
def clipBy (f : V4 → Q) (l : List V4) : List V4 :=
  (l.zip (l.drop 1 ++ l.take 1)).flatMap (fun e =>
    let fa := f e.1
    let fb := f e.2
    (if fa.isNeg then [] else [e.1]) ++
    (if (fa.isPos && fb.isNeg) || (fa.isNeg && fb.isPos) then [e.1.cut e.2 fa fb] else []))

/-- A clipped triangle on the screen: corners with their depths, or one for which the manual gives no
coverage: a coordinate that is not finite, or a corner at `w = 0`. -/
inductive Piece where
  | poly (l : List (Q × Q × Q))
  | open_
  deriving DecidableEq, Repr

/-- R439: a triangle clipped and projected. -/
def piece (vs : List (Option V4)) : Piece :=
  match vs with
  | [some a, some b, some c] =>
    let l := clipBy (fun v => v.w.sub v.z) (clipBy (fun v => v.z) [a, b, c])
    if l.all (fun v => v.w.isZero) then .poly []
    else if l.any (fun v => v.w.isZero) then .open_
    else .poly (l.map (fun v =>
      (((v.x.div v.w).add (Q.ofNat 1)).div (Q.ofNat 2), ((Q.ofNat 1).sub (v.y.div v.w)).div (Q.ofNat 2), v.z.div v.w)))
  | _ => .open_

/-! ### Coverage and depth (R440, R441) -/

/-- Twice the signed area of a polygon of integer points. -/
def area2 (l : List (Int × Int)) : Int :=
  (l.zip (l.drop 1 ++ l.take 1)).foldl (fun a e => a + (e.1.1 * e.2.2 - e.2.1 * e.1.2)) 0

/-- R440: a point lies inside a polygon, or on an edge that takes its points. -/
def insidePoly (l : List (Int × Int)) (p : Int × Int) : Bool :=
  let a := area2 l
  if a = 0 then false
  else
    let o : Int := if 0 < a then 1 else -1
    (l.zip (l.drop 1 ++ l.take 1)).all (fun e =>
      let dx := e.2.1 - e.1.1
      let dy := e.2.2 - e.1.2
      if dx = 0 ∧ dy = 0 then true
      else
        let f := o * (dx * (p.2 - e.1.2) - dy * (p.1 - e.1.1))
        let nx := -(o * dy)
        let ny := o * dx
        decide (0 < f) || (decide (f = 0) && (decide (0 < nx) || (decide (nx = 0) && decide (0 < ny)))))

/-- R440: a piece covers a sample of the cell of two segments. -/
def covers (l : List (Q × Q × Q)) (sx sy : Seg) (x y : Nat) : Bool :=
  insidePoly (l.map (fun v => (sx.snap v.1, sy.snap v.2.1))) (256 * x + 128, 256 * y + 128)

/-- R441: the depth at a screen position on the plane through three corners; none where they are in line. -/
def planeDepth (a b c : Q × Q × Q) (u v : Q) : Option Q :=
  let ux := b.1.sub a.1
  let uy := b.2.1.sub a.2.1
  let vx := c.1.sub a.1
  let vy := c.2.1.sub a.2.1
  let det := (ux.mul vy).sub (uy.mul vx)
  if det.isZero then none
  else
    let px := u.sub a.1
    let py := v.sub a.2.1
    let s := ((px.mul vy).sub (py.mul vx)).div det
    let t := ((ux.mul py).sub (uy.mul px)).div det
    some (a.2.2.add ((s.mul (b.2.2.sub a.2.2)).add (t.mul (c.2.2.sub a.2.2))))

/-- R441: the depth of a sample, from the first three corners that are not in line. -/
def pieceDepth (l : List (Q × Q × Q)) (u v : Q) : Option Q :=
  match l with
  | [] => none
  | a :: r => (r.zip (r.drop 1)).findSome? (fun e => planeDepth a e.1 e.2 u v)

/-- R441: an FP32 depth is less than another, or equal to it; a NaN is neither. -/
def depthLt (a b : Word) : Bool :=
  !isNaN a && !isNaN b && (fF32.dec a.toNat).cmp (fF32.dec b.toNat) == .lt
def depthEq (a b : Word) : Bool :=
  !isNaN a && !isNaN b && (fF32.dec a.toNat).cmp (fF32.dec b.toNat) == .eq

/-- A word of a team's scratch. -/
def Team.scrWord (t : Team) (off : Nat) : Word := w32 (leNat (t.scrRead off 4))

/-- R441: one sample of tile memory meets a depth and an id word; the offset where poison stops it. -/
def Team.depthWrite (t : Team) (rec x y : Nat) (d i : Word) : Except Nat Team :=
  let o0 := rec + 4 * (16 * (y % 16) + x % 16)
  let o1 := o0 + 0x400
  if t.scrPoisoned o0 4 then .error o0
  else if t.scrPoisoned o1 4 then .error o1
  else if depthLt d (t.scrWord o1) || (depthEq d (t.scrWord o1) && decide (i.toNat < (t.scrWord o0).toNat)) then
    .ok ((t.scrWrite o0 (leBytes 4 i.toNat)).scrWrite o1 (leBytes 4 d.toNat))
  else .ok t

/-- R440: the samples of a strip of a view that a binding and the view both hold. -/
def rasterSamples (b : Binding) (v : View) : List (Nat × Nat) :=
  (List.range (16 * min b.ty v.tyv)).flatMap (fun y => (List.range (16 * min b.tx v.txv)).map (fun x => (x, y)))

/-- R440, R441: what a piece gives a sample: nothing, or a depth. -/
def State.sampleDepth (s : State) (salt : Nat) (w : List Seg × List Seg) (p : Piece) (x y : Nat) : Option Word :=
  let key := (salt * 4096 + y) * 4096 + x
  match p with
  | .open_ => if s.pick 13 key then some ((Config.freeWord s.free key).setWidth 32) else none
  | .poly l =>
    match segAt w.1 x, segAt w.2 y with
    | some sx, some sy =>
      if covers l sx sy x y then
        match Q.ofF32 (sx.pos x), Q.ofF32 (sy.pos y) with
        | some u, some v =>
          some (match pieceDepth l u v with
            | some d => d.f32
            | none => (Config.freeWord s.free key).setWidth 32)
        | _, _ => none
      else none
    | _, _ => none

/-- R439 to R441: one piece rasterised into one strip of one view. -/
def State.rasterPiece (s : State) (b : Binding) (view strip salt : Nat) (w : List Seg × List Seg) (p : Piece)
    (id : Word) (t : Except Nat Team) : Except Nat Team :=
  (rasterSamples b (s.view view)).foldl (fun t c =>
    match t with
    | .error e => .error e
    | .ok t =>
      match s.sampleDepth salt w p c.1 c.2, b.record view strip (c.1 / 16) (c.2 / 16) with
      | some d, some r => t.depthWrite r c.1 c.2 d id
      | _, _ => .ok t) t

/-- R399: the offsets of a meshlet's words. -/
def meshVertex (buf v k n : Nat) : Nat := buf + 4 * (v * n + k)
def meshPrim (buf v vmax p : Nat) : Nat := buf + 4 * v * vmax + 8 * p

/-- R439: a primitive rasterised into every strip and view it goes to; `salt` numbers the primitive. -/
def State.rasterPrim (s : State) (b : Binding) (vmask salt : Nat) (pos : List (List Word)) (id : Word)
    (t : Except Nat Team) : Except Nat Team :=
  ((List.range 16).filter (fun v => vmask / 2 ^ v % 2 == 1 && b.vmask / 2 ^ v % 2 == 1)).foldl (fun t v =>
    (List.range (min b.strips (s.disp (s.view v).output).nstrip)).foldl (fun t st =>
      let m := (s.warpView v st).mat
      s.rasterPiece b v st ((salt * 16 + v) * 32 + st) (s.warp v st) (piece (pos.map (clipVertex m))) id t) t) t

/-- R404: the words of a record of `q.ix`. -/
def ixRecord (kind : Nat) (fault : Option (Nat × Nat)) (tag : Word) (done aux : Nat) (flags : Word) : List Word :=
  let c := match fault with | some f => f.1 | none => 0
  let a := match fault with | some f => f.2 % 2 ^ 56 | none => 0
  [w32 (kind + (if fault.isSome then 2 * 16 else 0) + c * 2 ^ 12), tag, w32 done, w32 aux, flags, w32 a, w32 (a / 2 ^ 32), 0]

/-- R404, R439: a meshlet's vertices and primitives are read, and it is rasterised; the team and the record. -/
def State.rasterMesh (s : State) (t : Team) (buf vmask vmax v : Nat) (prims : List Nat) (tag : Word)
    (culled : Nat) (flags : Word) : Team × List Word :=
  let done := prims.length
  let vert (i : Nat) : List Word := (List.range 4).map (fun k => t.scrWord (meshVertex buf v k i))
  let reads := prims.flatMap (fun p =>
    let o := meshPrim buf v vmax p
    let i := t.scrWord o
    (o, 8) :: [fld i 0 8, fld i 8 8, fld i 16 8].map (fun n => (meshVertex buf v 0 n, 16)))
  match t.binding, reads.find? (fun r => t.scrPoisoned r.1 r.2) with
  | _, some r => (t, ixRecord 1 (some (Cause.uncorrectable.code, r.1)) tag done culled flags)
  | none, _ => (t, ixRecord 1 none tag done culled flags)
  | some b, none =>
    let r := prims.foldl (fun u p =>
      let i := t.scrWord (meshPrim buf v vmax p)
      s.rasterPrim b vmask p ([fld i 0 8, fld i 8 8, fld i 16 8].map vert) (t.scrWord (meshPrim buf v vmax p + 4)) u)
      (Except.ok t)
    match r with
    | .ok u => (u, ixRecord 1 none tag done culled flags)
    | .error o => (t, ixRecord 1 (some (Cause.uncorrectable.code, o)) tag done culled flags)

end Sys2Proof.Machine
end

