-- ==== Sys2Proof/Machine/Rays.lean ====
section
/-! DEFINITION. Ray traversal: the formats of a bounding volume hierarchy, the exact box and triangle tests,
`Trace`, and a ray request (R410 to R414, R443, R444). -/

namespace Sys2Proof.Machine

/-! ### Exact tests (R443, R444) -/

/-- R443: a ray's interval on one axis of a box; none where the ray misses the slab. -/
def slab (o d : Q) (lo hi : Bnd) : Option (Bnd × Bnd) :=
  let at' (b : Bnd) : Bnd :=
    match b with
    | .fin q => .fin ((q.sub o).div d)
    | .ninf => if d.isNeg then .pinf else .ninf
    | .pinf => if d.isNeg then .ninf else .pinf
  if d.isZero then (if lo.le (.fin o) && (Bnd.fin o).le hi then some (.ninf, .pinf) else none)
  else if d.isNeg then some (at' hi, at' lo)
  else some (at' lo, at' hi)

/-- A ray with finite origin and direction, and its bounds. -/
structure Ray where
  o : List Q
  d : List Q
  tmin : Bnd
  tmax : Bnd
  deriving DecidableEq, Repr

/-- R443: a ray meets a box of six FP32 words. -/
def meetsBox (r : Ray) (box : List Word) : Bool :=
  let axis (i : Nat) : Option (Bnd × Bnd) :=
    match Bnd.ofF32 (nth 0 box i), Bnd.ofF32 (nth 0 box (i + 3)) with
    | some lo, some hi =>
      if lo.le hi then slab (nth (Q.ofNat 0) r.o i) (nth (Q.ofNat 0) r.d i) lo hi else none
    | _, _ => none
  match axis 0, axis 1, axis 2 with
  | some a, some b, some c =>
    let lo := r.tmin.max (a.1.max (b.1.max c.1))
    let hi := r.tmax.min (a.2.min (b.2.min c.2))
    lo.le hi && lo != .pinf && hi != .ninf
  | _, _, _ => false

/-- The cross and dot products of triples. -/
def cross (a b : List Q) : List Q :=
  let g := nth (Q.ofNat 0)
  [((g a 1).mul (g b 2)).sub ((g a 2).mul (g b 1)), ((g a 2).mul (g b 0)).sub ((g a 0).mul (g b 2)),
   ((g a 0).mul (g b 1)).sub ((g a 1).mul (g b 0))]
def dot (a b : List Q) : Q :=
  let g := nth (Q.ofNat 0)
  (((g a 0).mul (g b 0)).add ((g a 1).mul (g b 1))).add ((g a 2).mul (g b 2))
def vsub (a b : List Q) : List Q := (a.zip b).map (fun e => e.1.sub e.2)

/-- R413: a hit that the test accepts: its exact `t` and the four words. -/
structure Hit where
  t : Q
  words : List Word
  deriving DecidableEq, Repr

/-- R444: the intersection test of a leaf of twelve words.  A vertex that is not finite has no exact
arithmetic: whether it is accepted, and what it returns, is free then. -/
def leafHit (fr salt : Nat) (r : Ray) (cull : Bool) (leaf : List Word) : Option Hit :=
  let vis := nth 0 leaf 9
  let flags := nth 0 leaf 10
  let ws := leaf.take 9
  if ws.any isNaN || fld flags 1 31 != 0 || nth 0 leaf 11 != 0 then none
  else if ws.any (fun w => !isFinite w) then
    let f (k : Nat) : Word := (Config.freeWord fr (4 * salt + k)).setWidth 32
    if Config.freePick fr (16 * salt + 14) then
      some { t := (Q.ofF32 (f 0 &&& 0xBFFFFFFF)).getD (Q.ofNat 0), words := [f 1, f 2, f 3, vis] }
    else none
  else
    let q := ws.map (fun w => (Q.ofF32 w).getD (Q.ofNat 0))
    let a := q.take 3
    let e1 := vsub ((q.drop 3).take 3) a
    let e2 := vsub (q.drop 6) a
    let p := cross r.d e2
    let det := dot e1 p
    if det.isZero then none
    else
      let s := vsub r.o a
      let u := (dot s p).div det
      let w := cross s e1
      let v := (dot r.d w).div det
      let t := (dot e2 w).div det
      let ok := !u.isNeg && !v.isNeg && (u.add v).le (Q.ofNat 1) && r.tmin.le (.fin t) && (Bnd.fin t).le r.tmax
      let back := (dot r.d (cross e1 e2)).isPos
      if ok && !(back && cull && !bit flags 0) then some { t := t, words := [t.f32, u.f32, v.f32, vis] } else none

/-- R410: a miss. -/
def missWords : List Word := [0x7F800000, 0, 0, 0xFFFFFFFF]

/-- R413: the member with the smallest t, then the lower vis; where both are equal, either. -/
def closer (fr salt : Nat) (a b : Hit) : Hit :=
  if a.t.lt b.t then a
  else if b.t.lt a.t then b
  else if nth 0 a.words 3 < nth 0 b.words 3 then a
  else if nth 0 b.words 3 < nth 0 a.words 3 then b
  else if a = b then a
  else if Config.freePick fr (16 * salt + 15) then a else b

/-- R413: the hit returned from the accepted triangles; none: a miss. -/
def chooseHit (fr salt : Nat) (anyhit : Bool) (hs : List Hit) : Option (List Word) :=
  match hs with
  | [] => none
  | h :: r =>
    if anyhit then some (nth h hs (Config.freeRank fr salt % hs.length)).words
    else some (((List.range r.length).zip r).foldl (fun a e => closer fr (1024 * salt + e.1) a e.2) h).words

/-- R410: the words of a hit, or of a miss. -/
def hitWords (h : Option (List Word)) : List Word := h.getD missWords

/-! ### Traversal (R413, R443) -/

/-- What reads of the intersection unit come to: a value, a cause with its address, or held (R48). -/
inductive Rd (α : Type) where
  | ok (a : α)
  | fault (cause : Cause) (addr : Dword)
  | hold

/-- A read of 16 bytes at an aligned address of the global window. -/
abbrev Reader := Dword → State → Rd (List Byte) × State

/-- R114, R413: the class of the BVH's reads: compute. -/
def bvhCls : Nat := 1

/-- R114, R131: a request of the intersection unit as an agent, in a class; it waits for a free entry before it starts. -/
def unitAgent (t : Team) (priv : Bool) (cls : Nat) : Agent :=
  { vi := t.vi, core := t.core, cls := cls, priv := priv, pause := false }

/-- R55, R412: the reads of a request: those of an engine. -/
def unitReader (t : Team) (priv : Bool) (cls : Nat) : Reader := fun a s =>
  let r := s.agentRead (unitAgent t priv cls) a 16
  match r.1 with
  | .ok b => (.ok b, r.2)
  | .fault c => (.fault (Cause.ofCode c) a, r.2)
  | .hold => (.hold, r.2)

/-- R413, R414, R453: the reads of a `RAYQ`: relaxed loads of its group; with a watchpoint, those that match it end the
trace. -/
def groupReader (t : Team) (g : Group) (lane : Nat) (watch : Option Nat) : Reader := fun a s =>
  let r := s.translate t.vi a .load 16 g.hm
  if s.heldAt r then (.hold, s)
  else
    match r with
    | .error f => (.fault f.cause a, s)
    | .ok x =>
      if watch.any (fun n => watchHit (zget n (s.vi t.vi).wch) false a 16) then (.fault .watchpoint a, s)
      else
        let s := s.touchLeaf t.vi .load x
        let k := x.ask t.vi bvhCls 0
        let r :=
          if x.packed then s.corePack t.core k x a x.cached x.cached 16
          else s.coreRead t.core k (s.keyTag x.leaf) x.cached x.cached (32 * g.num + lane) x.pa 16
        match r.1 with
        | some b => (.ok b, r.2)
        | none => (.fault .poisonRead a, r.2)

/-- Aligned reads of 16 bytes each. -/
def unitReads (rd : Reader) : Nat → Dword → List Byte → State → Rd (List Byte) × State
  | 0, _, acc, s => (.ok acc, s)
  | n + 1, a, acc, s =>
    let r := rd a s
    match r.1 with
    | .ok b => unitReads rd n (a + 16) (acc ++ b) r.2
    | .fault c a => (.fault c a, r.2)
    | .hold => (.hold, r.2)

/-- R443: a child pointer: nothing, a node, or a run of leaves. -/
inductive Child where
  | empty
  | node (addr : Dword)
  | leaves (addr : Dword) (n : Nat)
  deriving DecidableEq, Repr

def childOf (p : Dword) : Child :=
  let a : Dword := w64 (fld p 4 52 * 16)
  if fld p 2 2 ≠ 0 ∨ fld p 60 4 ≠ 0 then .empty
  else match fld p 0 2 with
    | 1 => if fld p 4 3 ≠ 0 ∨ fld p 56 4 ≠ 0 then .empty else .node a
    | 2 => .leaves a (fld p 56 4 + 1)
    | _ => .empty

/-- R443: the children of a node of 32 words that a ray meets. -/
def metChildren (r : Ray) (ws : List Word) : List Child :=
  (List.range 4).filterMap (fun k =>
    match childOf (nth 0 ws (25 + 2 * k) ++ nth 0 ws (24 + 2 * k)) with
    | .empty => none
    | c => if meetsBox r ((ws.drop (6 * k)).take 6) then some c else none)

/-- R444: the leaves of a run. -/
def runHits (rd : Reader) (salt : Nat) (cull : Bool) (r : Ray) : Nat → Dword → List Hit → State → Rd (List Hit) × State
  | 0, _, acc, s => (.ok acc, s)
  | n + 1, a, acc, s =>
    let x := unitReads rd 3 a [] s
    match x.1 with
    | .ok b =>
      let h := leafHit s.free (2 ^ 20 * salt + 32 * a.toNat + n) r cull (bytesWords b)
      runHits rd salt cull r n (a + 48) (acc ++ h.toList) x.2
    | .fault c e => (.fault c e, x.2)
    | .hold => (.hold, x.2)

/-- R413: the triangles reached through met boxes that the test accepts; a node is visited once, so the
fuel of all nodes there can be suffices. -/
def traverse (rd : Reader) (salt : Nat) (cull : Bool) (r : Ray) :
    Nat → List Child → List Dword → List Hit → State → Rd (List Hit) × State
  | 0, _, _, acc, s => (.ok acc, s)
  | n + 1, work, seen, acc, s =>
    match work with
    | [] => (.ok acc, s)
    | .empty :: rest => traverse rd salt cull r n rest seen acc s
    | .leaves a k :: rest =>
      let x := runHits rd salt cull r k a acc s
      match x.1 with
      | .ok hs => traverse rd salt cull r n rest seen hs x.2
      | .fault c e => (.fault c e, x.2)
      | .hold => (.hold, x.2)
    | .node a :: rest =>
      if seen.contains a then traverse rd salt cull r n rest seen acc s
      else
        let x := unitReads rd 8 a [] s
        match x.1 with
        | .ok b => traverse rd salt cull r n (metChildren r (bytesWords b) ++ rest) (a :: seen) acc x.2
        | .fault c e => (.fault c e, x.2)
        | .hold => (.hold, x.2)

/-- R413: `Trace`; none: a miss.  A ray whose origin or direction is not finite has no exact arithmetic: whether it
hits, and what, is free. -/
def State.trace (s : State) (rd : Reader) (salt : Nat) (root : Dword) (ray : List Word) (any cull : Bool) :
    Rd (Option (List Word)) × State :=
  let w := nth 0 ray
  let od := [w 0, w 1, w 2, w 4, w 5, w 6]
  match Bnd.ofF32 (w 3), Bnd.ofF32 (w 7) with
  | some lo, some hi =>
    if od.any isNaN || !lo.le hi || [w 4, w 5, w 6].all (fun x => fld x 0 31 == 0) then (.ok none, s)
    else if od.any (fun x => !isFinite x) then
      (.ok (if s.pick 12 salt then none
            else some ((List.range 4).map (fun k => (Config.freeWord s.free (4 * salt + k)).setWidth 32))), s)
    else
      let q (x : Word) : Q := (Q.ofF32 x).getD (Q.ofNat 0)
      let r : Ray := { o := [q (w 0), q (w 1), q (w 2)], d := [q (w 4), q (w 5), q (w 6)], tmin := lo, tmax := hi }
      let x := traverse rd salt cull r (2 ^ 53) [.node (w64 (fld root 0 56))] [] [] s
      match x.1 with
      | .ok hs => (.ok (chooseHit s.free salt any hs), x.2)
      | .fault c e => (.fault c e, x.2)
      | .hold => (.hold, x.2)
  | _, _ => (.ok none, s)

/-! ### Ray requests (R410, R412) -/

/-- Two words of a record, the low one first. -/
def pairAt (ws : List Word) (n : Nat) : Dword := nth 0 ws (n + 1) ++ nth 0 ws n

/-- R411: the fields of a record break R410. -/
def rayMalformed (ws : List Word) : Bool :=
  let m := nth 0 ws 2
  let view := bit m 0
  let root := pairAt ws 0
  let zeros (a b : Nat) : Bool := ((ws.drop a).take (b - a)).all (fun w => w == 0)
  let badWin (x : Dword) (al : Nat) : Bool := !([0x00, 0xF0].contains (fld x 56 8)) || fld x 0 al != 0
  fld root 56 8 != 0 || fld root 0 7 != 0 || bit m 3 || fld m 13 19 != 0 || !zeros 22 32
  || (if view then
        !zeros 3 8 ||
        (match Bnd.ofF32 (nth 0 ws 8), Bnd.ofF32 (nth 0 ws 9) with
         | some a, some b => !a.le b
         | _, _ => true)
      else
        fld m 4 9 != 0 || !zeros 8 22 || nth 0 ws 3 == 0 || decide (2 ^ 20 < (nth 0 ws 3).toNat)
        || badWin (pairAt ws 4) 5 || badWin (pairAt ws 6) 4)

/-- R412: the unit reads 16 bytes of the global window or of the team's scratch. -/
def State.rayRead (s : State) (t : Team) (priv : Bool) (a : Dword) : Rd (List Byte) × State :=
  if fld a 56 8 = 0 then unitReader t priv t.cls a s
  else
    let o := fld a 0 56
    match s.team? t.id with
    | none => (.hold, s)
    | some u =>
      if u.scrSize < o + 16 then (.fault .scratchRange a, s)
      else if u.scrPoisoned o 16 then (.fault .poisonRead a, s)
      else (.ok (u.scrRead o 16), s)

/-- R412: the unit writes a hit. -/
def State.rayWrite (s : State) (t : Team) (priv : Bool) (a : Dword) (ws : List Word) : Rd Unit × State :=
  let bs := ws.flatMap (fun w => leBytes 4 w.toNat)
  if fld a 56 8 = 0 then
    let r := s.agentWrite (unitAgent t priv t.cls) a bs
    match r.1 with
    | .ok _ => (.ok (), r.2)
    | .fault c => (.fault (Cause.ofCode c) a, r.2)
    | .hold => (.hold, r.2)
  else
    let o := fld a 0 56
    match s.team? t.id with
    | none => (.hold, s)
    | some u => if u.scrSize < o + 16 then (.fault .scratchRange a, s) else (.ok (), s.modTeam t.id (fun u => u.scrWrite o bs))

/-- What a ray request came to: the rays written and those that hit, and the fault that ended it. -/
structure RayEnd where
  done : Nat
  hits : Nat
  fault : Option (Nat × Nat) := none
  deriving DecidableEq, Repr

/-- R412: ray `i` traced and written, on fuel; none where a migration holds an access. -/
def State.rayLoop (one : Nat → State → Rd Bool × State) : Nat → Nat → Nat → State → Option (RayEnd × State)
  | 0, i, h, s => some ({ done := i, hits := h }, s)
  | n + 1, i, h, s =>
    let r := one i s
    match r.1 with
    | .ok hit => State.rayLoop one n (i + 1) (h + b2n hit) r.2
    | .fault c a => some ({ done := i, hits := h, fault := some (c.code, a.toNat) }, r.2)
    | .hold => none

/-- R412, array mode: ray `i`. -/
def rayArray (t : Team) (priv : Bool) (ws : List Word) (i : Nat) (s : State) : Rd Bool × State :=
  let m := nth 0 ws 2
  let ra := addrAt (pairAt ws 4) (32 * i)
  let a := s.rayRead t priv ra
  match a.1 with
  | .fault c e => (.fault c e, a.2)
  | .hold => (.hold, a.2)
  | .ok b0 =>
    let b := a.2.rayRead t priv (ra + 16)
    match b.1 with
    | .fault c e => (.fault c e, b.2)
    | .hold => (.hold, b.2)
    | .ok b1 =>
      let x := b.2.trace (unitReader t priv bvhCls) i (pairAt ws 0) (bytesWords (b0 ++ b1)) (bit m 1) (bit m 2)
      match x.1 with
      | .fault c e => (.fault c e, x.2)
      | .hold => (.hold, x.2)
      | .ok hit =>
        let w := x.2.rayWrite t priv (addrAt (pairAt ws 6) (16 * i)) (hitWords hit)
        match w.1 with
        | .ok _ => (.ok hit.isSome, w.2)
        | .fault c e => (.fault c e, w.2)
        | .hold => (.hold, w.2)

/-- R412: the direction of a sample's ray. -/
def rayDir (ws : List Word) (sx sy : Word) : List Word :=
  (List.range 3).map (fun i =>
    addW (addW (mulW (nth 0 ws (13 + 3 * i)) sx) (mulW (nth 0 ws (14 + 3 * i)) sy)) (nth 0 ws (15 + 3 * i)))

/-- R412, view mode: sample `i`, in the order of R95 and then of the samples of a tile.  A sample outside
the view's raster has no warped position: it is free. -/
def rayView (t : Team) (priv : Bool) (ws : List Word) (b : Binding) (warp : List Seg × List Seg) (i : Nat) (s : State) :
    Rd Bool × State :=
  let m := nth 0 ws 2
  let tile := i / 256
  let tx := tile % b.tx
  let ty := tile / b.tx
  let y := i % 256 / 16
  let x := i % 16
  let pos (l : List Seg) (k salt : Nat) : Word :=
    match segAt l k with
    | some g => g.pos k
    | none => (Config.freeWord s.free (2 ^ 24 + 2 * i + salt)).setWidth 32
  let dir := rayDir ws (pos warp.1 (16 * tx + x) 0) (pos warp.2 (16 * ty + y) 1)
  let ray := (ws.drop 10).take 3 ++ [nth 0 ws 8] ++ dir ++ [nth 0 ws 9]
  let r := s.trace (unitReader t priv bvhCls) i (pairAt ws 0) ray (bit m 1) (bit m 2)
  match r.1 with
  | .fault c e => (.fault c e, r.2)
  | .hold => (.hold, r.2)
  | .ok hit =>
    match b.record (fld m 4 4) (fld m 8 5) tx ty with
    | none => (.ok false, r.2)
    | some rec =>
      let o := rec + 4 * (16 * y + x)
      (.ok hit.isSome, r.2.modTeam t.id (fun u =>
        (u.scrWrite o (leBytes 4 (nth 0 (hitWords hit) 3).toNat)).scrWrite (o + 0x400) (leBytes 4 (nth 0 (hitWords hit) 0).toNat)))

/-- R120: the first access of a trace from a root finds no free entry. -/
def State.rootWaits (s : State) (t : Team) (root : Dword) (priv : Bool) : Bool :=
  match s.translate t.vi (w64 (fld root 0 56)) .load 16 priv with
  | .ok x => s.noEntry (x.ask t.vi bvhCls 0) x
  | .error _ => false

/-- R412: a ray request carried out; its record. -/
def State.rayRequest (s : State) (t : Team) (ws : List Word) (tag : Word) (priv : Bool) : Option (List Word × State) :=
  let m := nth 0 ws 2
  let r : Option (RayEnd × State) :=
    if s.rootWaits t (pairAt ws 0) priv then none
    else if bit m 0 then
      match t.binding with
      | none => some ({ done := 0, hits := 0 }, s)
      | some b =>
        State.rayLoop (rayView t priv ws b (s.warp (fld m 4 4) (fld m 8 5))) (256 * b.tx * b.ty) 0 0 s
    else State.rayLoop (rayArray t priv ws) (nth 0 ws 3).toNat 0 0 s
  r.map (fun e => (ixRecord 2 e.1.fault tag e.1.done e.1.hits 0, e.2))

end Sys2Proof.Machine
end

