-- ==== Sys2Proof/Machine/Sample.lean ====
section
/-! DEFINITION. Sampling: descriptors, texels, filtering, `SAMPLE` and `SAMPLEV` (R415 to R417). -/

namespace Sys2Proof.Machine

/-! ### Descriptors and texels (R415) -/

/-- R415: the bytes of a texel. -/
def texelSize (f : Nat) : Nat := match f with | 1 => 8 | 3 => 16 | _ => 4

/-- R415: a descriptor of eight words. -/
structure Desc where
  base : Dword
  w : Nat
  h : Nat
  d : Nat
  format : Nat
  three : Bool
  linear : Bool
  au : Nat
  av : Nat
  aw : Nat
  row : Nat
  slice : Nat
  deriving DecidableEq, Repr

/-- R415: the descriptor, or none where it breaks the table or does not suit the instruction. -/
def descOf (vol : Bool) (ws : List Word) : Option Desc :=
  let w2 := nth 0 ws 2
  let w3 := nth 0 ws 3
  let x : Desc :=
    { base := nth 0 ws 1 ++ nth 0 ws 0, w := fld w2 0 14 + 1, h := fld w2 16 14 + 1, d := fld w3 0 14 + 1,
      format := fld w3 16 4, three := bit w3 20, linear := bit w3 21, au := fld w3 24 2, av := fld w3 26 2,
      aw := fld w3 28 2, row := (nth 0 ws 4).toNat, slice := (nth 0 ws 5).toNat }
  let sz := texelSize x.format
  let bad :=
    fld x.base 56 8 != 0 || decide (x.base.toNat % sz ≠ 0) || fld w2 14 2 != 0 || fld w2 30 2 != 0
    || fld w3 14 2 != 0 || decide (3 < x.format) || fld w3 22 2 != 0 || fld w3 30 2 != 0
    || x.au == 3 || x.av == 3 || x.aw == 3 || (!x.three && (x.aw != 0 || x.d != 1 || x.slice != 0))
    || decide (x.row % sz ≠ 0) || decide (x.row < x.w * sz)
    || (x.three && (decide (x.slice % x.row ≠ 0) || decide (x.slice < x.h * x.row)))
    || nth 0 ws 6 != 0 || nth 0 ws 7 != 0
    || x.three != vol || (vol && x.format != 2)
  if bad then none else some x

/-- R415: the address of a texel. -/
def Desc.texel (x : Desc) (i j k : Nat) : Dword :=
  addrPlus x.base ((k * x.slice + j * x.row + i * texelSize x.format : Nat) : Int)

/-- R415: the four channels of a texel. -/
def decodeTexel (format : Nat) (bs : List Byte) : List Word :=
  let ws := bytesWords bs
  match format with
  | 0 => bs.map (fun b => (Q.frac b.toNat 255).f32)
  | 1 => (List.range 4).map (fun k =>
      w32 (fF32.round .rne false false (fF16.dec (fld (nth 0 ws (k / 2)) (16 * (k % 2)) 16))).1)
  | 2 => [nth 0 ws 0, 0, 0, 0x3F800000]
  | _ => ws

/-! ### Filtering (R416) -/

/-- R416: `Index`: none is OUTSIDE. -/
def texIndex (mode n : Nat) (j : Int) : Option Nat :=
  match mode with
  | 0 => some (min j.toNat (n - 1))
  | 1 => some (j.emod n).toNat
  | _ => if 0 ≤ j ∧ j < n then some j.toNat else none

/-- R416: an axis: the index to start from and the fraction; none where a rounding overflows. -/
def axisPos (linear : Bool) (c : Q) (n : Nat) : Option (Int × Q) :=
  let p := c.mul (Q.ofNat n)
  let w := (if linear then p.sub (Q.frac 1 2) else p).f32
  (Q.ofF32 w).map (fun x => (x.floor, if linear then x.sub { n := x.floor, d := 1 } else Q.ofNat 0))

/-- R416: a corner of the filter: its weight and its texel, none where that is OUTSIDE. -/
abbrev Corner := Q × Option (Nat × Nat × Nat)

/-- R416: the corners that are read, with their weights. -/
def corners (x : Desc) (u v w : Int × Q) : List Corner :=
  let at' (cx cy cz : Nat) : Option (Nat × Nat × Nat) :=
    match texIndex x.au x.w (u.1 + cx), texIndex x.av x.h (v.1 + cy), texIndex x.aw x.d (w.1 + cz) with
    | some i, some j, some k => some (i, j, k)
    | _, _, _ => none
  if !x.linear then [(Q.ofNat 1, at' 0 0 0)]
  else
    let f (p : Int × Q) (c : Nat) : Q := if c = 1 then p.2 else (Q.ofNat 1).sub p.2
    let all := [(0, 0, 0), (1, 0, 0), (0, 1, 0), (1, 1, 0)] ++
      (if x.three then [(0, 0, 1), (1, 0, 1), (0, 1, 1), (1, 1, 1)] else [])
    all.filterMap (fun c =>
      let wt := ((f u c.1).mul (f v c.2.1)).mul (if x.three then f w c.2.2 else Q.ofNat 1)
      if wt.isZero then none else some (wt, at' c.1 c.2.1 c.2.2))

/-- R416: a weight times a texel's channel, rounded once. -/
def weigh (wt : Q) (t : Word) : Word :=
  match fF32.dec t.toNat with
  | .nan => w32 fF32.canon
  | .inf _ => t
  | .fin s m e => if m = 0 then t else (wt.mul (Q.fin s m e)).f32

/-- R416: a channel from its corners' texels. -/
def filterChannel (linear : Bool) (l : List (Q × Word)) : Word :=
  if !linear then nth 0 (l.map (fun e => e.2)) 0
  else
    match l.map (fun e => weigh e.1 e.2) with
    | [] => 0
    | t :: r => r.foldl addW t

/-! ### The instructions -/

/-- What a lane's sampling comes to before its texels are read: a cause, poison in the descriptor, a result
without reading, or corners of a descriptor. -/
inductive SampleLane where
  | bad (addr : Dword) (f : XFault)
  | poison (addr : Dword)
  | done (ws : List Word)
  | read (x : Desc) (l : List Corner)
  deriving DecidableEq, Repr

/-- An address of a team's own scratch. -/
def spAddr (off : Nat) : Dword := w64 (0xF0 * 2 ^ 56 + off)

/-- R415, R416: a lane up to its texels. -/
def Ctx.sampleLane (c : Ctx) (vol : Bool) (t : Team) (gc : GCtx) (l : Nat) : SampleLane :=
  let off := (c.srcB gc 1 l).toNat % 2 ^ 32
  let a := spAddr off
  if off % 32 ≠ 0 then .bad a { cause := .misaligned }
  else if t.scrSize < off + 32 then .bad a { cause := .scratchRange }
  else if t.scrPoisoned off 32 then .poison a
  else
    match descOf vol (bytesWords (t.scrRead off 32)) with
    | none => .bad a { cause := .samplerInvalid }
    | some x =>
      let q (k : Nat) : Option Q := Q.ofF32 (gc.g.readReg c.free (c.o.a.toNat + k) l)
      let z : Option Q := if vol then q 2 else some (Q.ofNat 0)
      match q 0, q 1, z with
      | some u, some v, some w =>
        let aw : Option (Int × Q) := if vol then axisPos x.linear w x.d else some (0, Q.ofNat 0)
        match axisPos x.linear u x.w, axisPos x.linear v x.h, aw with
        | some pu, some pv, some pw => .read x (corners x pu pv pw)
        | _, _, _ => .done ((List.range 4).map (fun k =>
            (Config.freeWord c.free (2 ^ 20 + (gc.g.num * 32 + l) * 4 + k)).setWidth 32))
      | _, _, _ => .done (List.replicate 4 (w32 fF32.canon))

/-- R417: the texel reads of a lane: descriptor, corner weight, address where the texel is inside. -/
def SampleLane.reads (s : SampleLane) : List (Dword × Nat) :=
  match s with
  | .read x l => l.filterMap (fun e => e.2.map (fun p => (x.texel p.1 p.2.1 p.2.2, texelSize x.format)))
  | _ => []

/-- R57, R417: every read of every lane is translated before any is performed. -/
def Ctx.sampleCheck (c : Ctx) (vol : Bool) (gc : GCtx) (s : State) : GRes (List (Nat × SampleLane)) × State :=
  let ls := (lanesOf gc.act).map (fun l => (l, c.sampleLane vol c.team gc l))
  let bad0 := ls.filterMap (fun e => match e.2 with | .bad a f => some (e.1, a, f) | _ => none)
  match worstTrap bad0 with
  | some t => (.trap t, s)
  | none =>
    let rs := ls.flatMap (fun e => e.2.reads.map (fun r => (e.1, r)))
    let r := rs.map (fun e => (e.1, e.2.1, s.locate c.team gc.g e.2.1 .load e.2.2))
    let bad := r.filterMap (fun e => match e.2.2 with | .error f => some (e.1, e.2.1, f) | .ok _ => none)
    let good := r.filterMap (fun e => match e.2.2 with | .ok t => some t | .error _ => none)
    if r.any (fun e => s.heldTgt e.2.2) then (.hold, s)
    else
      match worstTrap bad with
      | some t =>
        (.trap t, bad.foldl (fun s e => s.logViol c.team.vi e.2.1 0 c.core e.2.2) (c.walked good s))
      | none =>
        let hit (n : Nat) : Word := maskOf (fun l =>
          rs.any (fun e => e.1 == l && watchHit (zget n (s.vi c.team.vi).wch) false e.2.1 e.2.2))
        match (List.range 4).find? (fun n => hit n != 0 && gc.g.skip != some (4 + n)) with
        | some n => (.trap { cause := .watchpoint, hw := true, detail := n, mask0 := hit n }, s)
        | none => if good.any (c.stalled .load s) then (.hold, s) else (.ok ls c.next, s)

/-- R417: the texels of a lane are loaded: the corners with their channels, or the address of poison. -/
def Ctx.loadTexels (c : Ctx) (gc : GCtx) (lane : Nat) (x : Desc) (l : List Corner) (s : State) :
    Except Dword (List (Q × List Word)) × State :=
  l.foldl (fun acc e =>
    match acc.1 with
    | .error a => (.error a, acc.2)
    | .ok done =>
      match e.2 with
      | none => (.ok (done ++ [(e.1, [0, 0, 0, 0])]), acc.2)
      | some p =>
        let a := x.texel p.1 p.2.1 p.2.2
        match acc.2.locate c.team gc.g a .load (texelSize x.format) with
        | .error _ => (.ok (done ++ [(e.1, [0, 0, 0, 0])]), acc.2)
        | .ok t =>
          let r := c.loadOne gc false (texelSize x.format) lane a t acc.2
          match r.1 with
          | some b => (.ok (done ++ [(e.1, decodeTexel x.format b)]), r.2)
          | none => (.error a, r.2)) (.ok [], s)

/-- R416: a lane's four channels, or the address of poison. -/
def Ctx.sampleRun (c : Ctx) (gc : GCtx) (lane : Nat) (x : SampleLane) (s : State) : Except Dword (List Word) × State :=
  match x with
  | .bad a _ => (.error a, s)
  | .poison a => (.error a, s)
  | .done ws => (.ok ws, s)
  | .read d l =>
    let r := c.loadTexels gc lane d l s
    match r.1 with
    | .error a => (.error a, r.2)
    | .ok cs => (.ok ((List.range 4).map (fun k => filterChannel d.linear (cs.map (fun e => (e.1, nth 0 e.2 k))))), r.2)

/-- R58, R415 to R417: `SAMPLE` and `SAMPLEV`; `n` channels are written. -/
def Ctx.sampleBody (c : Ctx) (vol : Bool) (n : Nat) (s : State) : State :=
  c.runGroups (c.sampleCheck vol) (fun l s =>
    l.foldl (fun s e =>
      let r := e.2.foldl (fun (acc : List (Nat × Dword × Option (List Byte)) × State) x =>
        let y := c.sampleRun e.1 x.1 x.2 acc.2
        match y.1 with
        | .ok ws => (acc.1 ++ [(x.1, 0, some ((ws.take n).flatMap (fun w => leBytes 4 w.toNat)))], y.2)
        | .error a => (acc.1 ++ [(x.1, a, none)], y.2)) ([], s)
      r.2.pendTo c.team.id e.1.g.num (loadPend r.1 (loadWords .b32 c.o.d.toNat))) s) s

/-- SAMPLE (R416). -/
def execSample (o : XOps) (s : State) : Host.Outcome State Fault Refusal :=
  issue (.sample o) s (fun c => c.sampleBody false 4)

/-- SAMPLEV (R416). -/
def execSamplev (o : XOps) (s : State) : Host.Outcome State Fault Refusal :=
  issue (.samplev o) s (fun c => c.sampleBody true 1)

end Sys2Proof.Machine
end

