-- ==== Sys2Proof/Machine/Graphics.lean ====
section
/-! DEFINITION. Meshlets, intersection requests and their completion, tile binding and hand-over (R397 to
R414, R426). -/

namespace Sys2Proof.Machine

/-! ### Group-wide instructions (R398) -/

/-- R398: an operand of a group-wide instruction, of `n` registers. -/
def Ctx.groupA (c : Ctx) (gc : GCtx) (n : Nat) : Dword := c.srcA gc n (lowBit 0 gc.act)
def Ctx.groupB (c : Ctx) (gc : GCtx) (n : Nat) : Dword := c.srcB gc n (lowBit 0 gc.act)
def Ctx.groupC (c : Ctx) (gc : GCtx) (n : Nat) : Dword := c.srcC gc n (lowBit 0 gc.act)

/-- The trap of a group-wide memory cause: the lane whose operand was read, and its scratch address. -/
def scratchTrap (gc : GCtx) (cause : Cause) (off : Nat) : Trap :=
  { cause := cause, addr := some (spAddr off), mask0 := laneBit (lowBit 0 gc.act) }

/-- R398: a group-wide instruction: one action for each home group that has an active lane, in ascending
order; the action sees what the groups before did.  A group without an active lane moves past.  Poison of an operand
counts once the checks have passed (R450). -/
def Ctx.perGroup (c : Ctx) (f : GCtx → Team → State → GRes Unit × State) (s : State) : State :=
  c.runGroups (fun gc s =>
    if gc.act = 0 then (.ok () c.next, s)
    else
      match s.team? c.team.id with
      | none => (.hold, s)
      | some t =>
        let r := f gc t s
        match r.1 with
        | .ok _ _ => if c.poisonedOperand gc then (.trap uncTrap, s) else r
        | _ => r) (fun _ s => s) s

/-- R398: a result written in every active lane of a group. -/
def State.groupResult (s : State) (c : Ctx) (gc : GCtx) (n : Nat) (v : Dword) : State :=
  s.modGroup c.team.id gc.g.num (fun g => g.writeLanes c.free (c.results gc n (fun _ => v)))

/-- The meshlet state of a group changed. -/
def State.modMesh (s : State) (tid g : Nat) (f : Mesh → Mesh) : State :=
  s.modGroup tid g (fun gr => { gr with mesh := f gr.mesh })

/-! ### Meshlets (R399 to R403) -/

/-- R399: words per vertex. -/
def Mesh.v (m : Mesh) : Nat := 4 + m.nattr

/-- R400: `VAMP`. -/
def Ctx.vampBody (c : Ctx) (s : State) : State :=
  let w := c.o.w3
  let vmax := fld w 0 9
  let pmax := fld w 9 9
  let nattr := fld w 18 5
  c.perGroup (fun gc t s =>
    let off := (c.groupA gc 1).toNat
    let mask := (c.groupB gc 1).toNat
    if off % 64 ≠ 0 then (.trap (scratchTrap gc .misaligned off), s)
    else if t.scrSize < off + 4 * (4 + nattr) * vmax + 8 * pmax then (.trap (scratchTrap gc .scratchRange off), s)
    else
      match t.binding with
      | none => (.trap { cause := .tileNotBound }, s)
      | some b =>
        if mask % 65536 = 0 ∨ mask / 65536 ≠ 0 ∨ (mask &&& b.vmask) ≠ mask then (.trap { cause := .viewInvalid }, s)
        else
          (.ok () c.next, s.modMesh t.id gc.g.num (fun m =>
            { m with isOpen := true, buf := off, vmask := mask, vmax := vmax, pmax := pmax, nattr := nattr,
                     strict := bit w 23, vovf := false, povf := false, covf := false, disc := 0, cull := 0 }))) s

/-- R401: the lanes of a group that name a place outside the meshlet. -/
def meshOut (gc : GCtx) (inside : Nat → Bool) : Word := maskOf (fun l => bit gc.act l && !inside l)

/-- R401: the checks of `VOUT` and `POUT`. -/
def meshCheck (c : Ctx) (gc : GCtx) (inside : Nat → Bool) (s : State) : GRes Word × State :=
  let m := meshOut gc inside
  if gc.act = 0 then (.ok 0 c.next, s)
  else if !gc.g.mesh.isOpen then (.trap { cause := .viewInvalid }, s)
  else if gc.g.mesh.strict && m != 0 then (.trap { cause := .meshOverflow, mask0 := m }, s)
  else (.ok m c.next, s)

/-- R139, R401: the stores of the lanes that are inside, in a free order where two meet. -/
def Ctx.meshStore (c : Ctx) (gc : GCtx) (out : Word) (place : Nat → Nat) (bytes : Nat → List Byte) (s : State) : State :=
  let l := (lanesOf (gc.act &&& ~~~out)).map (fun l => (l, place l))
  (freeOrder c.free (fun e => e) l).foldl (fun s e => s.modTeam c.team.id (fun t => t.scrWrite e.2 (bytes e.1))) s

/-- R401: `VOUT`. -/
def Ctx.voutBody (c : Ctx) (s : State) : State :=
  let k := fld c.o.w3 0 5
  let vtx (gc : GCtx) (l : Nat) : Nat := (c.srcB gc 1 l).toNat
  c.runGroups (fun gc s => meshCheck c gc (fun l => decide (vtx gc l < gc.g.mesh.vmax) && decide (k < gc.g.mesh.v)) s)
    (fun l s => l.foldl (fun s e =>
      let m := e.1.g.mesh
      let s := c.meshStore e.1 e.2 (fun n => meshVertex m.buf m.v k (vtx e.1 n)) (fun n => leBytes 4 (c.srcA e.1 1 n).toNat) s
      if e.2 = 0 then s
      else s.modMesh c.team.id e.1.g.num (fun m => { m with vovf := true, disc := min (m.disc + popc e.2) 255 })) s) s

/-- R401: `POUT`. -/
def Ctx.poutBody (c : Ctx) (s : State) : State :=
  let prim (gc : GCtx) (l : Nat) : Nat := (c.srcB gc 1 l).toNat
  c.runGroups (fun gc s => meshCheck c gc (fun l => decide (prim gc l < gc.g.mesh.pmax)) s)
    (fun l s => l.foldl (fun s e =>
      let m := e.1.g.mesh
      let s := c.meshStore e.1 e.2 (fun n => meshPrim m.buf m.v m.vmax (prim e.1 n))
        (fun n => leBytes 4 (c.srcA e.1 1 n).toNat ++ leBytes 4 (c.srcC e.1 1 n).toNat) s
      if e.2 = 0 then s
      else s.modMesh c.team.id e.1.g.num (fun m => { m with povf := true, disc := min (m.disc + popc e.2) 255 })) s) s

/-- R403: the flag word. -/
def Mesh.flags (m : Mesh) : Word :=
  w32 (b2n m.vovf + 2 * b2n m.povf + 4 * b2n m.covf + 8 * b2n m.isOpen + 2 ^ 8 * m.disc + 2 ^ 16 * m.cull)

/-- R403: `MFLAG`. -/
def Ctx.mflagBody (c : Ctx) (s : State) : State :=
  c.perGroup (fun gc t s =>
    match t.group? gc.g.num with
    | none => (.hold, s)
    | some g =>
      let s := s.groupResult c gc 1 (g.mesh.flags.setWidth 64)
      (.ok () c.next,
        if bit c.o.a 0 then
          s.modMesh t.id gc.g.num (fun m =>
            { m with vovf := false, povf := false, covf := false, disc := 0, cull := 0 })
        else s)) s

/-- R404: the requests of a group that are outstanding. -/
def Group.outstanding (g : Group) : Nat := g.inflight + g.qix.length

/-- R404, R456: a ninth request. -/
def ninthTrap : Trap := { cause := .queueDeadlock, detail := 2 }

/-- R404: a request is issued. -/
def State.addRequest (s : State) (t : Team) (g : Nat) (r : Nat → Req) : State :=
  let n := s.fresh
  n.2.modTeam t.id (fun t =>
    { (t.modGroup g (fun gr => { gr with inflight := gr.inflight + 1 })) with reqs := t.reqs ++ [r n.1] })

/-- R402: a primitive has an index at or beyond the vertices emitted. -/
def primCulled (t : Team) (m : Mesh) (nv p : Nat) : Bool :=
  let i := t.scrWord (meshPrim m.buf m.v m.vmax p)
  [fld i 0 8, fld i 8 8, fld i 16 8].any (fun n => decide (nv ≤ n))

/-- R402: `MSETCNT`. -/
def Ctx.msetcntBody (c : Ctx) (s : State) : State :=
  c.perGroup (fun gc t s =>
    match t.group? gc.g.num with
    | none => (.hold, s)
    | some g =>
      let m := g.mesh
      let w := (c.groupA gc 1).setWidth 32
      let nv := fld w 0 9
      let np := fld w 9 9
      let excess := decide (m.vmax < nv) || decide (m.pmax < np)
      if !m.isOpen then (.trap { cause := .viewInvalid }, s)
      else if excess && m.strict then (.trap { cause := .meshOverflow }, s)
      else
        let nv := min nv m.vmax
        let np := min np m.pmax
        let all := List.range np
        match (if m.strict then all.find? (primCulled t m nv) else none) with
        | some p => (.trap { cause := .meshIndex, detail := p }, s)
        | none =>
          if 8 ≤ g.outstanding then (.trap ninthTrap, s)
          else
            let keep := all.filter (fun p =>
              !primCulled t m nv p && t.scrWord (meshPrim m.buf m.v m.vmax p + 4) != 0xFFFFFFFF)
            let culled := np - keep.length
            let m2 := { m with isOpen := false, covf := m.covf || excess, cull := culled }
            let s := s.modMesh t.id g.num (fun _ => m2)
            (.ok () c.next, s.addRequest t g.num (fun id =>
              .mesh id g.num m.buf m.vmask m.vmax m.v keep (w32 (fld w 18 14)) culled m2.flags))) s

/-! ### Tile binding (R405, R406) -/

/-- R405: the binding that three words name, or the cause that refuses them. -/
def State.bindingOf (s : State) (t : Team) (a b c : Word) : Except Cause Binding :=
  let x : Binding := { base := a.toNat, vmask := fld b 0 16, strips := fld b 16 6, tx := fld c 0 8,
                       ty := fld c 8 8, natt := fld c 16 3 }
  if x.base % 1024 ≠ 0 ∨ x.vmask = 0 ∨ x.strips < 1 ∨ 32 < x.strips ∨ fld b 22 10 ≠ 0 ∨ x.tx < 1 ∨ x.ty < 1
      ∨ 6 < x.natt ∨ fld c 19 13 ≠ 0 then .error .tileRange
  else if (List.range 16).any (fun v => x.vmask / 2 ^ v % 2 == 1 && !s.inFrameSet t.vi v) then .error .viewInvalid
  else if t.scrSize < x.base + (2 + x.natt) * 1024 * (popc (w32 x.vmask) * x.strips * x.ty * x.tx) then .error .tileRange
  else .ok x

/-- R405: no intersection request of the team is in flight. -/
def Team.quiet (t : Team) : Bool := t.reqs.isEmpty && t.reqDone.isEmpty

/-- The binding of three words that have been checked. -/
def boundTo (w : Option (Word × Word × Word)) : Option Binding :=
  w.map (fun w => { base := w.1.toNat, vmask := fld w.2.1 0 16, strips := fld w.2.1 16 6, tx := fld w.2.2 0 8,
                    ty := fld w.2.2 8 8, natt := fld w.2.2 16 3 })

/-- R405, R406: TILEBIND_PROCEED: no request is in flight any more, and the binding is replaced or removed. -/
def State.tilebindGo (s : State) (tid fid : Nat) : State :=
  match (s.team? tid).bind (fun t => (t.frag? fid).map (fun f => (t, f))) with
  | none => s
  | some (t, f) =>
    match f.st with
    | .tilebind w next =>
      if !t.quiet then s
      else
        (s.modTeam tid (fun t => { t with binding := boundTo w })).settle tid f f.word s.free
          (f.lanes.map (fun e => (e.1, GOut.go { pc := next, fmt := f.fmt, hm := f.hm })))
    | _ => s

/-- R405, R406: `TILEBIND` and `TILEREL`: at once where no request is in flight, else when none is. -/
def Ctx.bindBody (c : Ctx) (rel : Bool) (s : State) : State :=
  c.perGroup (fun gc t s =>
    let a := (c.groupA gc 1).setWidth 32
    let b := (c.groupB gc 1).setWidth 32
    let d := (c.groupC gc 1).setWidth 32
    let w : Option (Word × Word × Word) := if rel then none else some (a, b, d)
    match (if rel then none else (match s.bindingOf t a b d with | .error e => some e | .ok _ => none)) with
    | some e => (.trap { cause := e, mask0 := if e = .tileRange then laneBit (lowBit 0 gc.act) else 0 }, s)
    | none =>
      if t.quiet then (.ok () c.next, s.setTeam { t with binding := boundTo w })
      else (.ok () { c.again with st := .tilebind w c.next.pc }, s)) s

/-! ### Hand-over (R407, R408) -/

/-- R408, R431, R447: the output takes tiles of a VI. -/
def State.takesTiles (s : State) (o vi : Nat) : Bool :=
  (s.disp o).en && (s.disp o).owner == vi && (s.dispd o).t0.isSome

/-- R434: the display tile rows of a strip. -/
def Disp.rows (d : Disp) (strip : Nat) : Nat × Nat := (strip * d.ht / d.nstrip, (strip + 1) * d.ht / d.nstrip)

/-- R408: the status of a hand-over, and the output after it. -/
def State.handOver (s : State) (t : Team) (off : Nat) (w : Word) : Nat × State :=
  let o := fld w 0 3
  let strip := fld w 3 5
  let pos := 256 * fld w 16 8 + fld w 8 8
  if !s.takesTiles o t.vi then (4, s)
  else
    let d := s.dispd o
    let f := kget 0 strip d.frame
    if fld w 24 8 = f % 256 then
      if d.acc.any (fun e => e.strip == strip && e.pos == pos) then (2, s)
      else
        (0, (s.modDispd o (fun d =>
          { d with nextRead := d.nextRead + 1,
                   acc := d.acc ++ [{ strip := strip, pos := pos, team := t.id, offset := off, read := d.nextRead }] })).modTeam
          t.id (fun t => { t with reads := t.reads ++ [(o, d.nextRead)] }))
    else
      let late := (f + 256 - fld w 24 8) % 256
      (if 1 ≤ late ∧ late ≤ 128 then 1 else 3, s)

/-- R407: `TILEDONE`. -/
def Ctx.tiledoneBody (c : Ctx) (s : State) : State :=
  c.perGroup (fun gc t s =>
    let off := (c.groupA gc 1).toNat
    let w := (c.groupB gc 1).setWidth 32
    let d := s.disp (fld w 0 3)
    let strip := fld w 3 5
    let dty := fld w 16 8
    if off % 64 ≠ 0 then (.trap (scratchTrap gc .misaligned off), s)
    else if t.scrSize < off + 4096 then (.trap (scratchTrap gc .scratchRange off), s)
    else if s.takesTiles (fld w 0 3) t.vi && (decide (d.nstrip ≤ strip) || decide (d.wt ≤ fld w 8 8)
        || decide (d.ht ≤ dty) || decide (dty < (d.rows strip).1) || decide ((d.rows strip).2 ≤ dty)) then
      (.trap { cause := .tileRange, mask0 := laneBit (lowBit 0 gc.act) }, s)
    else
      let r := s.handOver t off w
      (.ok () c.next, r.2.groupResult c gc 1 (w64 r.1))) s

/-! ### Rays (R411, R414) -/

/-- R411: `RAYL`. -/
def Ctx.raylBody (c : Ctx) (s : State) : State :=
  c.perGroup (fun gc t s =>
    let off := (c.groupA gc 1).toNat
    let tag := (c.groupB gc 1).setWidth 32
    if off % 16 ≠ 0 then (.trap (scratchTrap gc .misaligned off), s)
    else if t.scrSize < off + 128 then (.trap (scratchTrap gc .scratchRange off), s)
    else if t.scrPoisoned off 128 then (.trap (scratchTrap gc .poisonRead off), s)
    else
      let ws := bytesWords (t.scrRead off 128)
      let m := nth 0 ws 2
      if rayMalformed ws then (.trap { cause := .rayRecordInvalid }, s)
      else
        let bad : Option Cause :=
          if bit m 0 then
            match t.binding with
            | none => some .tileNotBound
            | some b => if b.vmask / 2 ^ fld m 4 4 % 2 = 0 ∨ b.strips ≤ fld m 8 5 then some .viewInvalid else none
          else none
        match bad with
        | some e => (.trap { cause := e }, s)
        | none =>
          match t.group? gc.g.num with
          | none => (.hold, s)
          | some g =>
            if 8 ≤ g.outstanding then (.trap ninthTrap, s)
            else (.ok () c.next, s.addRequest t g.num (fun id => .rays id g.num ws tag c.frag.hm))) s

/-- R197, R414: what the active lanes of a group read for their traces. -/
def Ctx.rays (c : Ctx) (gc : GCtx) : List RayLane :=
  (lanesOf gc.act).map (fun l =>
    { lane := 32 * gc.g.num + l, root := c.srcB gc 2 l
      ray := (List.range 8).map (fun k => gc.g.readReg c.free (c.o.a.toNat + k) l) })

/-- R414: `RAYQ`: a bad root stops the group before any traversal; else its traces begin, with what the lanes read now. -/
def Ctx.rayqBody (c : Ctx) (s : State) : State :=
  c.runGroups (fun gc s =>
    let bad := maskOf (fun l => bit gc.act l && (let r := c.srcB gc 2 l; fld r 56 8 != 0 || fld r 0 7 != 0))
    if gc.act = 0 then (.ok () c.next, s)
    else if bad != 0 then (.trap { cause := .rayRecordInvalid, mask0 := bad }, s)
    else (.ok () { c.again with st := .rayq c.i (c.groups.flatMap c.rays) c.next.pc }, s)) (fun _ s => s) s

/-- R414: the traces of lanes of a group, with what each comes to; none where one is held. -/
def rayqLanes (t : Team) (g : Group) (o : XOps) (watch : Option Nat) :
    List RayLane → State → Option (List (Nat × Rd (Option (List Word))) × State)
  | [], s => some ([], s)
  | x :: rest, s =>
    let r := s.trace (groupReader t g (x.lane % 32) watch) x.lane x.root x.ray (bit o.w3 0) (bit o.w3 1)
    match r.1 with
    | .hold => none
    | e => (rayqLanes t g o watch rest r.2).map (fun y => ((x.lane % 32, e) :: y.1, y.2))

/-- The lanes whose traces met a cause that passes a test, with the address. -/
def rayqBad (p : Cause → Bool) (l : List (Nat × Rd (Option (List Word)))) : List (Nat × Dword × Cause) :=
  l.filterMap (fun e => match e.2 with | .fault c a => if p c then some (e.1, a, c) else none | _ => none)

/-- R450 step 6, R453: the lowest watchpoint that a read of some lane matches, with the lanes. -/
def State.rayqWatched (s : State) (t : Team) (g : Group) (o : XOps) (lanes : List RayLane) : Option (Nat × Word) :=
  (List.range 4).findSome? (fun n =>
    if bit (zget n (s.vi t.vi).wch) 0 && g.skip != some (4 + n) then
      match rayqLanes t g o (some n) lanes s with
      | none => none
      | some (l, _) =>
        let bad := rayqBad (fun c => c == .watchpoint) l
        if bad.isEmpty then none else some (n, maskOf (fun l => bad.any (fun e => e.1 == l)))
    else none)

/-- R57, R58, R414, R456: a group's traces are over: the state after them and, where the group stops, why: of several
causes the highest, with the lanes that met it.  A translation fault leaves nothing but its log; poison leaves no result
and is reported at the next marker. -/
def State.rayqEnd (s : State) (t : Team) (g : Group) (o : XOps) (lanes : List RayLane) : Option (Option Trap × State) :=
  match rayqLanes t g o none lanes s with
  | none => none
  | some (l, s') =>
    let bad := (rayqBad (fun c => c != .poisonRead) l).map (fun e =>
      (e.1, e.2.1, match s.translate t.vi e.2.1 .load 16 g.hm with | .error f => f | .ok _ => ({ cause := e.2.2 } : XFault)))
    match worstTrap bad with
    | some w => some (some w, bad.foldl (fun s e => s.logViol t.vi e.2.1 0 t.core e.2.2) s)
    | none =>
      match s.rayqWatched t g o lanes with
      | some (n, m) => some (some { cause := .watchpoint, hw := true, detail := n, mask0 := m }, s)
      | none =>
        let res := l.filterMap (fun e =>
          match e.2 with
          | .ok h => some (e.1, (0 : Dword), some ((hitWords h).flatMap (fun w => leBytes 4 w.toNat)))
          | .fault _ a => some (e.1, a, none)
          | .hold => none)
        some (none, s'.pendTo t.id g.num (loadPend res (loadWords .b32 o.d.toNat)))

/-- R414: RAYQ_TRACE_DONE: every trace of a group has finished, and the group goes on or stops. -/
def State.rayqDone (s : State) (tid gid : Nat) : State :=
  match s.team? tid with
  | none => s
  | some t =>
    match t.frags.find? (fun f => (match f.st with | .rayq _ _ _ => true | _ => false) && f.lanes.any (fun e => e.1 == gid)),
        t.group? gid with
    | some f, some g =>
      match f.st with
      | .rayq (.rayq o) rays next =>
        let mine := rays.filter (fun r => r.lane / 32 == gid)
        if mine.any (fun r => s.rootWaits t r.root g.hm) then s
        else
          match s.rayqEnd t g o mine with
          | none => s
          | some (trap, s) =>
            s.settle tid f f.word s.free (f.lanes.map (fun e =>
              if e.1 = gid then
                (e.1, match trap with | some w => GOut.trap w | none => GOut.go { pc := next, fmt := f.fmt, hm := f.hm })
              else (e.1, GOut.go { st := f.st, pc := f.pc, fmt := f.fmt, hm := f.hm })))
      | _ => s
    | _, _ => s

/-! ### Requests carried out and completed (R404, R412, R439) -/

/-- R130, R404: the team on a core that issued a request; on a halted core none is started, but for those that a save
already begun has to complete (R462). -/
def State.reqTeam (s : State) (core req : Nat) : Option (Team × Req) :=
  s.teams.findSome? (fun e =>
    if e.2.core == core && (!(s.core core).dbg.halt || e.2.beingSaved) then (e.2.reqs.find? (fun r => r.id == req)).map (fun r => (e.2, r)) else none)

/-- A request that has been carried out, with its record. -/
def Team.reqEnd (t : Team) (id g : Nat) (rec : List Word) : Team :=
  { t with reqs := t.reqs.filter (fun r => r.id != id), reqDone := t.reqDone ++ [(id, g, rec)] }

/-- R439: MESHLET_RASTER. -/
def State.meshletRaster (s : State) (core req : Nat) : State :=
  match s.reqTeam core req with
  | some (t, .mesh id g buf vmask vmax v prims tag culled flags) =>
    let r := s.rasterMesh t buf vmask vmax v prims tag culled flags
    s.setTeam (r.1.reqEnd id g r.2)
  | _ => s

/-- R412: RAY_REQUEST_TRACE. -/
def State.rayTrace (s : State) (core req : Nat) : State :=
  match s.reqTeam core req with
  | some (t, .rays id g ws tag priv) =>
    match s.rayRequest t ws tag priv with
    | none => s
    | some (rec, s) => s.modTeam t.id (fun t => t.reqEnd id g rec)
  | _ => s

/-- R404, R458: INTERSECTION_REQUEST_COMPLETE: the record joins `q.ix` of its group; a FAULT is counted. -/
def State.reqComplete (s : State) (core req : Nat) : State :=
  match s.teams.find? (fun e => e.2.core == core && e.2.reqDone.any (fun r => r.1 == req)) with
  | none => s
  | some (tid, t) =>
    match t.reqDone.find? (fun r => r.1 == req) with
    | none => s
    | some (_, g, rec) =>
      let w := nth 0 rec 0
      (if fld w 4 8 = 2 then s.engineFault t.vi (fld w 12 6) else s).modTeam tid (fun t =>
        { (t.modGroup g (fun gr => { gr with inflight := gr.inflight - 1, qix := gr.qix ++ [rec] })) with
          reqDone := t.reqDone.filter (fun r => r.1 != req) })

/-! ### The rows -/

/-- VOUT (R401). -/
def execVout (o : XOps) (s : State) : Host.Outcome State Fault Refusal :=
  issue (.vout o) s (fun c => c.voutBody)

/-- POUT (R401). -/
def execPout (o : XOps) (s : State) : Host.Outcome State Fault Refusal :=
  issue (.pout o) s (fun c => c.poutBody)

/-- MSETCNT (R402). -/
def execMsetcnt (o : XOps) (s : State) : Host.Outcome State Fault Refusal :=
  issue (.msetcnt o) s (fun c => c.msetcntBody)

/-- VAMP (R400). -/
def execVamp (o : XOps) (s : State) : Host.Outcome State Fault Refusal :=
  issue (.vamp o) s (fun c => c.vampBody)

/-- RAYL (R411). -/
def execRayl (o : XOps) (s : State) : Host.Outcome State Fault Refusal :=
  issue (.rayl o) s (fun c => c.raylBody)

/-- RAYQ (R414). -/
def execRayq (o : XOps) (s : State) : Host.Outcome State Fault Refusal :=
  issue (.rayq o) s (fun c => c.rayqBody)

/-- TILEBIND (R405). -/
def execTilebind (o : XOps) (s : State) : Host.Outcome State Fault Refusal :=
  issue (.tilebind o) s (fun c => c.bindBody false)

/-- TILEDONE (R407, R408). -/
def execTiledone (o : XOps) (s : State) : Host.Outcome State Fault Refusal :=
  issue (.tiledone o) s (fun c => c.tiledoneBody)

/-- TILEREL (R406). -/
def execTilerel (o : XOps) (s : State) : Host.Outcome State Fault Refusal :=
  issue (.tilerel o) s (fun c => c.bindBody true)

/-- MFLAG_SHORT (R403). -/
def execMflagShort (o : SOps) (s : State) : Host.Outcome State Fault Refusal :=
  issue (.mflagShort o) s (fun c => c.mflagBody)

/-- MFLAG (R403). -/
def execMflag (o : XOps) (s : State) : Host.Outcome State Fault Refusal :=
  issue (.mflag o) s (fun c => c.mflagBody)

/-- TILEBIND_PROCEED (R405). -/
def execTilebindProceed (team frag : Nat) (s : State) : Host.Outcome State Fault Refusal :=
  event s (fun s => s.tilebindGo team frag)

/-- MESHLET_RASTER (R439). -/
def execMeshletRaster (core req : Nat) (s : State) : Host.Outcome State Fault Refusal :=
  event s (fun s => s.meshletRaster core req)

/-- RAY_REQUEST_TRACE (R412). -/
def execRayRequestTrace (core req : Nat) (s : State) : Host.Outcome State Fault Refusal :=
  event s (fun s => s.rayTrace core req)

/-- INTERSECTION_REQUEST_COMPLETE (R404). -/
def execIntersectionRequestComplete (core req : Nat) (s : State) : Host.Outcome State Fault Refusal :=
  event s (fun s => s.reqComplete core req)

/-- RAYQ_TRACE_DONE (R414). -/
def execRayqTraceDone (team group : Nat) (s : State) : Host.Outcome State Fault Refusal :=
  event s (fun s => s.rayqDone team group)

end Sys2Proof.Machine
end

