-- ==== Sys2Proof/Machine/Matrix.lean ====
section
/-! DEFINITION. Matrix instructions and commands: formation, the start at the head of `q.mx`, rows fed slot by
slot, planes, transforms, quantisation, accumulator upkeep, subscriptions and the cadence (R160, R289 to
R294, R366 to R395). -/

namespace Sys2Proof.Machine

/-! ### Arithmetic of the strands (R289 to R294, R369) -/

/-- R290: the FP16 bits of the codebook. -/
def qn4Bits : List Nat :=
  [0x0000, 0x2C81, 0x308F, 0x32FB, 0x34CF, 0x364D, 0x380D, 0x3943,
   0x3C00, 0xBC00, 0xB9C5, 0xB84E, 0xB662, 0xB47F, 0xB1AA, 0xAD60]
/-- R290: `Qn4Val`. -/
def qn4Val (c : Nat) : FVal := fF16.dec (nth 0 qn4Bits c)

/-- RNE to FP32. -/
def rne32 (x : FVal) : Nat := (fF32.round .rne false false x).1
/-- RNE of a sum of two FP32 numbers. -/
def add32 (a b : Nat) : Nat := (fF32.add fEnvEngine a b).1
/-- R292: `Prod`. -/
def prod32 (a w : FVal) : Nat := rne32 (a.mul w).1
/-- R293: `DotFP32`. -/
def dot32 : List Nat → Nat
  | [] => 0
  | p :: ps => ps.foldl add32 p

/-- A value times a power of two. -/
def FVal.scale (x : FVal) (k : Int) : FVal :=
  match x with
  | .fin s m e => .fin s m (e + k)
  | _ => x

/-- R289: the scale of a block, an exact value. -/
def blockScale (superBits s : Nat) : FVal :=
  if s = 0 then .fin false 0 0
  else (fF32.dec (rne32 ((fF32.dec superBits).mul (.fin false s 0)).1)).scale (-8)

/-- R281: element `k` of a row of a type. -/
def rowElem (ty : Ty) (ws : List Word) (k : Nat) : FVal :=
  match fFmtOf ty with
  | none => .nan
  | some f =>
    if f.width = 8 then f.dec (fld (nth 0 ws (k / 4)) (8 * (k % 4)) 8)
    else f.dec (fld (nth 0 ws (k / 2)) (16 * (k % 2)) 16)

/-- A byte of a plane's image. -/
def Plane.byte (p : Plane) (a : Nat) : Nat := (zget a p.bytes).toNat
/-- R367: `W[r][n]` of a plane that is not QN4. -/
def Plane.cell (p : Plane) (r n : Nat) : FVal :=
  match fFmtOf p.fmt with
  | none => .nan
  | some f =>
    if f.width = 8 then f.dec (p.byte (128 * r + n))
    else f.dec (p.byte (2 * (128 * r + n)) + 256 * p.byte (2 * (128 * r + n) + 1))
/-- R367: the code of `W[k][n]` of a QN4 plane. -/
def Plane.code (p : Plane) (k n : Nat) : Nat :=
  let b := p.byte ((128 * k + n) / 2)
  if n % 2 = 0 then b % 16 else b / 16
/-- R289, R367: the exact scale of block `b` in column `n`. -/
def Plane.scale (p : Plane) (b n : Nat) : FVal :=
  let a := 16896 + 4 * n
  blockScale (p.byte a + 256 * p.byte (a + 1) + 65536 * p.byte (a + 2) + 16777216 * p.byte (a + 3))
    (p.byte (16384 + 128 * b + n))

/-- The dot product of 128 elements of a row, from element `k0`, with a column. -/
def colDot (ty : Ty) (ws : List Word) (k0 : Nat) (p : Plane) (n : Nat) : Nat :=
  dot32 ((List.range 128).map (fun r => prod32 (rowElem ty ws (k0 + r)) (p.cell r n)))

/-- R369: the new value of an element in column `n`; `ps` are the planes of the strands that the element
uses. -/
def macElem (mode : Nat) (ty : Ty) (ws : List Word) (ps : List Plane) (n acc : Nat) : Nat :=
  match mode, ps with
  | 2, [p0, p1, p2] =>
    add32 (add32 (add32 (colDot ty ws 0 p0 n) (colDot ty ws 128 p1 n)) (colDot ty ws 256 p2 n)) acc
  | 3, p :: _ =>
    let q (b : Nat) : Nat :=
      rne32 ((fF32.dec (dot32 ((List.range 64).map (fun k =>
        prod32 (rowElem ty ws (64 * b + k)) (qn4Val (p.code (64 * b + k) n)))))).mul (p.scale b n)).1
    add32 (add32 (add32 (add32 (q 0) (q 1)) (q 2)) (q 3)) acc
  | _, p :: _ => add32 (colDot ty ws 0 p n) acc
  | _, [] => acc

/-- R294: one stage of the transform. -/
def hadStage (h : Nat) (x : List Nat) : List Nat :=
  (List.range x.length).map (fun i =>
    if i / h % 2 = 0 then add32 (nth 0 x i) (nth 0 x (i + h))
    else (fF32.sub fEnvEngine (nth 0 x (i - h)) (nth 0 x i)).1)

/-- R294: the transform of a block of 16, 32 or 64 points. -/
def hadamard (npts : Nat) (x : List Nat) : List Nat :=
  let stages := if npts = 0 then [1, 2, 4, 8] else if npts = 1 then [1, 2, 4, 8, 16] else [1, 2, 4, 8, 16, 32]
  let k := if npts = 0 then 0x3E800000 else if npts = 1 then 0x3E3504F3 else 0x3E000000
  (stages.foldl (fun x h => hadStage h x) x).map (fun v => (fF32.mul fEnvEngine v k).1)

/-- The magnitude of a value, NaN apart. -/
def FVal.mag : FVal → FVal
  | .nan => .nan
  | .inf _ => .inf false
  | .fin _ m e => .fin false m e

/-- The larger of two magnitudes. -/
def magMax (a b : FVal) : FVal :=
  match a, b with
  | .inf _, _ => .inf false
  | _, .inf _ => .inf false
  | .fin _ m e, .fin _ n f => if ltScaled m e n f then .fin false n f else .fin false m e
  | x, .nan => x
  | .nan, y => y

/-- R291: the largest magnitude of the elements that are not NaN. -/
def absmax (l : List FVal) : FVal :=
  l.foldl (fun a x => match x with | .nan => a | _ => magMax a x.mag) (.fin false 0 0)

/-- R291: `Qn4Super`. -/
def qn4Super (m : FVal) : Nat :=
  match m with
  | .fin _ n e => if n = 0 then 0 else rne32 ((FVal.fin false (256 * n) e).div (.fin false 255 0)).1
  | _ => fF32.infBits false

/-- R291: `Qn4Scale`. -/
def qn4Scale (superBits : Nat) (m : FVal) : Nat :=
  match fF32.dec superBits, m with
  | .fin false ms es, .inf _ => if ms = 0 then 0 else (fun _ => 255) es
  | .fin false ms es, .fin _ mm em =>
    if ms = 0 ∨ mm = 0 then 0
    else
      let up := 256 * mm * 2 ^ (em - min em es).toNat
      let dn := ms * 2 ^ (es - min em es).toNat
      min 255 (ceilDiv up dn)
  | _, _ => 0

/-- R291: the code nearest to `x / scale`, for a positive finite scale that bounds `x`. -/
def qn4Nearest (neg : Bool) (mx : Nat) (ex : Int) (ms : Nat) (es : Int) : Nat :=
  let e0 := min ex (es - 24)
  let x : Int := ((mx * 2 ^ (ex - e0).toNat : Nat) : Int)
  let x := if neg then -x else x
  let dist (c : Nat) : Nat :=
    match qn4Val c with
    | .fin s m e =>
      let v : Int := ((m * 2 ^ (e + 24).toNat * ms * 2 ^ (es - 24 - e0).toNat : Nat) : Int)
      ((if s then -v else v) - x).natAbs
    | _ => 0
  let size (c : Nat) : Nat := nth 0 qn4Bits c % 2 ^ 15
  ((List.range 16).foldl (fun best c =>
    if dist c < dist best ∨ (dist c = dist best ∧ size c < size best) then c else best) 0)

/-- R291: `Qn4Code`: the code, and what it counts (0 nothing, 1 SAT, 2 NAN).  Where both the element and
the scale are infinite the manual gives no quotient, and the code is free. -/
def qn4Code (free : Nat) (x : FVal) (superBits s : Nat) : Nat × Nat :=
  match x, blockScale superBits s with
  | .nan, _ => (0, 2)
  | .inf neg, .fin _ m _ => if m = 0 then (0, 1) else (if neg then 9 else 8, 1)
  | .inf _, _ => (free % 16, 0)
  | .fin _ m _, .fin _ 0 _ => (0, if m = 0 then 0 else 1)
  | .fin neg m e, .fin _ ms es =>
    if ltScaled ms es m e then (if neg then 9 else 8, 1) else (qn4Nearest neg m e ms es, 0)
  | .fin _ _ _, _ => (0, 0)

/-! ### Strands and tiles (R366 to R368, R374) -/

/-- R368: MODE of a command that feeds rows. -/
def mxMode (i : Instr) : Nat :=
  match i with
  | .mma o => fld o.w3 14 2
  | .mmaJ o => fld o.b 4 2
  | .mmas o => fld o.w3 14 2
  | _ => 0

/-- The type of a matrix instruction's rows or elements. -/
def mxTy (i : Instr) : Ty := match form i with | some f => f.x.ty | none => .b32

/-- Whether an instruction feeds rows. -/
def mxFeeds (i : Instr) : Bool :=
  match i with
  | .mma _ => true
  | .mmaJ _ => true
  | .mmas _ => true
  | _ => false

/-- R368, R374: the strands whose active planes a command reads or swaps. -/
def Cmd.strands (c : Cmd) : List Nat :=
  match c.instr with
  | some (.mswap o) => (List.range 3).filter (fun j => bit o.d j)
  | some (.mswapShort o) => (List.range 3).filter (fun j => bit o.d j)
  | some i =>
    if mxFeeds i then (if mxMode i = 1 ∨ mxMode i = 2 then [0, 1, 2] else [c.strand]) else []
  | none => []

/-- R366: a plane that counts as valid for a team. -/
def Core.plane? (k : Core) (team strand : Nat) (shadow : Bool) : Option Plane :=
  match kfind (2 * strand + b2n shadow) k.planes with
  | some p => if p.owner = team then some p else none
  | none => none

/-- R368: a row type goes with a plane format. -/
def pairs (row plane : Ty) : Bool :=
  let fp8 (t : Ty) : Bool := t == .e4m3 || t == .e5m2
  (fp8 row && fp8 plane) || (row == .f16 && plane == .f16) || (row == .bf16 && plane == .bf16)

/-- R368: the planes of a command suit its rows and mode. -/
def goodPlanes (mode : Nat) (ty : Ty) (ps : List Plane) : Bool :=
  if mode = 3 then ps.all (fun p => p.fmt == .qn4) && (ty == .e4m3 || ty == .e5m2)
  else ps.all (fun p => pairs ty p.fmt) && (mode != 2 || ps.all (fun p => some p.fmt == (ps.head?.map (fun q => q.fmt))))

/-- R378, R380, R381: the rows of a command: number, and the words of the row where they were read. -/
def Cmd.rowNums (c : Cmd) : List Nat :=
  match c.instr with
  | some (.mma _) => c.rows.map (fun r => r.1)
  | some (.mmaJ _) => c.joint.flatMap (fun e => (lanesOf e.2).map (fun l => 32 * e.1 + l))
  | some (.mmas o) => (List.range (fld c.sb 0 8)).map (fun q => fld o.w3 22 7 + q)
  | _ => []

/-- R368, R381: the tile and row of strand `j`'s output for row `m`. -/
def Cmd.outRow (c : Cmd) (j m : Nat) : Nat × Nat :=
  match c.instr with
  | some (.mmaJ o) =>
    let t := fld o.d 0 6
    if mxMode (.mmaJ o) = 1 then (t + 3 * (m / 128) + j, m % 128) else (t + m / 128, m % 128)
  | some (.mma o) => (if mxMode (.mma o) = 1 then fld o.d 0 6 + j else fld o.d 0 6, m)
  | some (.mmas o) => (if mxMode (.mmas o) = 1 then fld o.d 0 6 + j else fld o.d 0 6, m)
  | _ => (0, 0)

/-- The strands that give outputs: in K3 the first stands for all three. -/
def Cmd.outStrands (c : Cmd) : List Nat :=
  match c.instr with
  | some i => if mxMode i = 1 then [0, 1, 2] else if mxMode i = 2 then [0] else [c.strand]
  | none => []

/-- R374: the tiles that a command names. -/
def Cmd.tiles (c : Cmd) : List Nat :=
  match c.instr with
  | some (.mhad o) => if bit o.w3 17 then [fld o.d 0 6] else [fld o.d 0 6, fld o.a 0 6]
  | some (.mqnt o) => [fld o.a 0 6, fld o.a 0 6 + 1]
  | some (.accz o) => [fld o.d 0 6]
  | some (.acccvt o) => [fld o.d 0 6]
  | some (.mmaJ o) =>
    (Cmd.rowNums c).flatMap (fun m => (Cmd.outStrands { c with instr := some (.mmaJ o) }).map (fun j => (c.outRow j m).1))
  | some i =>
    if mxFeeds i then c.outStrands.map (fun j => (c.outRow j 0).1) else []
  | none => []

/-- Bytes of an element of a type in scratch. -/
def elemBytes (t : Ty) : Nat := match fFmtOf t with | some f => f.width / 8 | none => 4

/-- R367: the bytes of a plane's image. -/
def planeBytes (t : Ty) : Nat := if t = .qn4 then 17408 else 16384 * elemBytes t

/-- R374: the scratch ranges a command names: offset, length. -/
def Cmd.ranges (c : Cmd) : List (Nat × Nat) :=
  let a := c.sa.toNat % 2 ^ 32
  match c.instr with
  | some (.mldw o) => [(a, planeBytes o.ty)]
  | some (.mmas o) => [(a, 16 * fld c.sb 16 16 * (fld c.sb 0 8 - 1) + rowBytes (mxMode (.mmas o)) o.ty)]
  | some (.mhad o) => if bit o.w3 17 then [(a, 16384 * elemBytes o.ty)] else []
  | some (.mqnt o) => (c.sb.toNat, 17408) :: (if bit o.w3 16 then [(c.sc.toNat, 512)] else [])
  | some (.acccvt o) => [(a, 128 * fld o.w3 23 8 * elemBytes o.ty)]
  | _ => []

/-! ### Rows (R369 to R371, R381) -/

/-- R160, R381: element by element, a register of a joint row as it stood at the group's `OPFENCE` or as it
stands now. -/
def jointWord (fr key : Nat) (wide : Bool) (old new : Word) : Word :=
  if old = new then new
  else
    let n := if wide then 2 else 4
    let w := 32 / n
    (List.range n).foldl (fun x i =>
      setFld x (w * i) w (fld (if Config.freePick fr (16 * (4 * key + i) + 13) then new else old) (w * i) w)) 0

/-- R160: a row of a joint command as its group's `OPFENCE` left it, as each joint issue since has found it, and as this
issue finds it. -/
def Group.opfRow (g : Group) (o : XOps) (l : Nat) : List Word :=
  (g.opfRegs ++ [g.regs]).flatMap (fun old =>
    (List.range (rowRegs (fld o.b 4 2) o.ty)).map (fun k => zget (32 * (o.a.toNat + k) + l) old))

/-- R160, R161, R381: the rows of a joint command, read when it starts: of a register that was written after the group's
`OPFENCE`, or after its start where there was none, or after its issue, the old value or the new one, element by element
(log entry 95). -/
def Team.jointRows (t : Team) (fr : Nat) (c : Cmd) (o : XOps) : List (Nat × List Word) :=
  let wide := o.ty == .f16 || o.ty == .bf16
  let n := rowRegs (fld o.b 4 2) o.ty
  c.rows.map (fun r =>
    let times := r.2.length / n
    (r.1, (List.range n).map (fun k =>
      let was (j : Nat) : Word := nth 0 r.2 (n * j + k)
      let now :=
        match t.group? (r.1 / 32) with
        | none => was (times - 1)
        | some g => g.reg (o.a.toNat + k) (r.1 % 32)
      (List.range times).foldl (fun w j =>
        jointWord fr (64 * (256 * r.1 + k) + j) wide w (if j + 1 = times then now else was (j + 1))) (was 0))))

/-- R382: a row in scratch. -/
def Cmd.scrRow (c : Cmd) (k : Nat) : Nat := c.sa.toNat % 2 ^ 32 + 16 * fld c.sb 16 16 * k

/-- R369, R374: one row fed: every output element is updated; poison met in the row or in an accumulator ends
the command before the row. -/
def State.feedRow (s : State) (core : Nat) (c : Cmd) : State :=
  match s.team? c.team, c.instr with
  | some t, some i =>
    let k := c.injDone
    let m := nth 0 c.rowNums k
    let mode := mxMode i
    let ty := mxTy i
    let n := rowBytes mode ty
    let inScr := match i with | .mmas _ => true | _ => false
    let ws : List Word :=
      if inScr then bytesWords (t.scrRead (c.scrRow k) n) else nth [] (c.rows.map (fun r => r.2)) k
    let outs := c.outStrands.map (fun j => (j, c.outRow j m))
    let bad := (inScr && t.scrPoisoned (c.scrRow k) n) || outs.any (fun o =>
      t.accPoison.any (fun p => p / 128 == 128 * o.2.1 + o.2.2))
    if bad then
      s.putStarted core { (c.finish 2 Cause.uncorrectable.code k) with inj := [] }
    else
      let plane (j : Nat) : List Plane := (kfind j c.planes).toList
      let t := outs.foldl (fun t o =>
        let ps := if mode = 2 then [0, 1, 2].flatMap plane else plane o.1
        (List.range 128).foldl (fun t n =>
          t.accPut o.2.1 o.2.2 n (w32 (macElem mode ty ws ps n (t.accGet o.2.1 o.2.2 n).toNat)))
          (t.accKeep c.id o.2.1 o.2.2)) t
      let left := c.inj.drop 1
      let c := { c with inj := left, injDone := k + 1 }
      (s.setTeam t).putStarted core (if left.isEmpty then c.finish 0 0 (k + 1) else c)
  | _, _ => s

/-! ### Commands that feed no rows (R376, R377, R383 to R387) -/

/-- R93, R386: rows of a tile cleared. -/
def Team.accClear (t : Team) (tile row count : Nat) : Team :=
  let lo := accKey tile row 0
  let hi := accKey tile (row + count) 0
  { t with acc := zclear lo hi t.acc
           accW := t.accW.filter (fun k => decide (k < 128 * tile + row) || decide (128 * tile + row + count ≤ k))
           accPoison := t.accPoison.filter (fun k => decide (k < lo) || decide (hi ≤ k)) }

/-- R161: rows of a tile that a command is about to write are kept as they were. -/
def Team.accKeeps (t : Team) (cmd tile row count : Nat) : Team :=
  (List.range count).foldl (fun t k => t.accKeep cmd tile (row + k)) t

/-- Poison in rows of a tile. -/
def Team.accPoisoned (t : Team) (tile row count : Nat) : Bool :=
  t.accPoison.any (fun k => decide (accKey tile row 0 ≤ k) && decide (k < accKey tile (row + count) 0))

/-- R384: an element of the source of a transform, as FP32 bits. -/
def Team.hadSrc (t : Team) (c : Cmd) (o : XOps) (i j : Nat) : Nat :=
  if bit o.w3 17 then
    let n := elemBytes o.ty
    let b := leNat (t.scrRead (c.sa.toNat % 2 ^ 32 + n * (128 * i + j)) n)
    match fFmtOf o.ty with
    | some f => if o.ty = .f32 then b else rne32 (f.dec b)
    | none => 0
  else (t.accGet (fld o.a 0 6) i j).toNat

/-- R383: `MHAD`. -/
def Team.runMhad (t : Team) (c : Cmd) (o : XOps) : Team :=
  let npts := fld o.w3 14 2
  let n := if npts = 0 then 16 else if npts = 1 then 32 else 64
  let col := bit o.w3 16
  let src (i j : Nat) : Nat := t.hadSrc c o i j
  let blocks : List (Nat × Nat × List Nat) := (List.range 128).flatMap (fun i =>
    (List.range (128 / n)).map (fun b =>
      (i, b, hadamard npts ((List.range n).map (fun k => if col then src (n * b + k) i else src i (n * b + k))))))
  blocks.foldl (fun u e =>
    ((List.range n).zip e.2.2).foldl (fun u x =>
      let at' := n * e.2.1 + x.1
      if col then u.accPut (fld o.d 0 6) at' e.1 (w32 x.2) else u.accPut (fld o.d 0 6) e.1 at' (w32 x.2)) u) t

/-- R385: one column of `MQNT`: the super-scale, the scales, the codes and the counts. -/
def Team.mqntCol (t : Team) (fr : Nat) (c : Cmd) (o : XOps) (n : Nat) : Nat × List Nat × List (Nat × Nat) :=
  let tile := fld o.a 0 6
  let w (k : Nat) : FVal := fF32.dec (t.accGet (tile + k / 128) (k % 128) n).toNat
  let mx (b : Nat) : FVal := absmax ((List.range 64).map (fun k => w (64 * b + k)))
  let sup :=
    if bit o.w3 16 then leNat (t.scrRead (c.sc.toNat + 4 * n) 4)
    else qn4Super (absmax ((List.range 4).map mx))
  let ss := (List.range 4).map (fun b => qn4Scale sup (mx b))
  (sup, ss, (List.range 256).map (fun k =>
    qn4Code (Config.freeWord fr (256 * n + k)).toNat (w k) sup (nth 0 ss (k / 64))))

/-- R367, R385, R388: `MQNT`. -/
def Team.runMqnt (t : Team) (fr : Nat) (c : Cmd) (o : XOps) : Team :=
  let cols := (List.range 128).map (fun n => t.mqntCol fr c o n)
  let code (k n : Nat) : Nat := ((nth (0, [], []) cols n).2.2 |> fun l => (nth (0, 0) l k).1)
  let codes : List Byte := (List.range 16384).map (fun b =>
    BitVec.ofNat 8 (code (b / 64) (2 * (b % 64)) + 16 * code (b / 64) (2 * (b % 64) + 1)))
  let scales : List Byte := (List.range 4).flatMap (fun b =>
    cols.map (fun x => BitVec.ofNat 8 (nth 0 x.2.1 b)))
  let supers : List Byte := cols.flatMap (fun x => leBytes 4 x.1)
  let count (v : Nat) : Nat := cols.foldl (fun a x => a + (x.2.2.filter (fun e => e.2 == v)).length) 0
  let t := t.scrWrite c.sb.toNat (codes ++ scales ++ supers)
  { t with qsat := min (t.qsat + count 1) 0xFFFFFFFF, qnan := min (t.qnan + count 2) 0xFFFFFFFF }

/-- R387: one element converted: its bits, and whether FSAT counts it. -/
def acccvtElem (ty : Ty) (sat : Bool) (x : Nat) : Nat × Bool :=
  match fFmtOf ty, fF32.dec x with
  | some f, v =>
    if ty = .f32 then (if v = .nan then fF32.canon else x, false)
    else
      let r := f.round .rne (sat && decide (f.width = 8)) false v
      (r.1, (match v with | .inf _ => true | _ => false) || r.2 &&& excOverflow != 0)
  | none, _ => (x, false)

/-- R387: `ACCCVT`. -/
def Team.runAcccvt (t : Team) (c : Cmd) (o : XOps) : Team :=
  let tile := fld o.d 0 6
  let row := fld o.w3 16 7
  let count := fld o.w3 23 8
  let el := (List.range (128 * count)).map (fun k =>
    acccvtElem o.ty c.sat (t.accGet tile (row + k / 128) (k % 128)).toNat)
  let t := t.scrWrite (c.sa.toNat % 2 ^ 32) (el.flatMap (fun e => leBytes (elemBytes o.ty) e.1))
  let t := { t with fsat := min (t.fsat + (el.filter (fun e => e.2)).length) 0xFFFFFFFF }
  if bit o.w3 31 then (t.accKeeps c.id tile row count).accClear tile row count else t

/-- R376: the shadow plane loaded from scratch. -/
def Team.runMldw (t : Team) (c : Cmd) (o : XOps) : Plane :=
  let a := c.sa.toNat % 2 ^ 32
  { fmt := o.ty, owner := t.id,
    bytes := ((List.range (planeBytes o.ty)).zip (t.scrRead a (planeBytes o.ty))).foldl (fun m e => zset e.1 e.2 m) [] }

/-- An optional entry of a keyed list put or taken away. -/
def kput {α : Type} (k : Nat) (v : Option α) (l : List (Nat × α)) : List (Nat × α) :=
  match v with
  | some v => kset k v l
  | none => kdel k l

/-- R377: active and shadow planes exchanged. -/
def Core.swap (k : Core) (j : Nat) : Core :=
  let a := kfind (2 * j) k.planes
  let b := kfind (2 * j + 1) k.planes
  { k with planes := kput (2 * j) b (kput (2 * j + 1) a k.planes) }

/-! ### The start of a command (R374) -/

/-- R374: the first failing check of a command that starts. -/
def State.mxStartFault (k : Core) (t : Team) (c : Cmd) (i : Instr) : Option Cause :=
  let swap := match i with | .mswap _ => true | .mswapShort _ => true | _ => false
  let ps := c.strands.map (fun j => k.plane? t.id j swap)
  if ps.any (fun p => p.isNone) then some .shadowEmpty
  else if mxFeeds i && !goodPlanes (mxMode i) (mxTy i) (ps.filterMap id) then some .typeInvalid
  else if c.tiles.any (fun x => decide (t.accN ≤ x)) then some .accRange
  else if c.ranges.any (fun r => decide (t.scrSize < r.1 + r.2)) then some .scratchRange
  else none

/-- R100: poison in what a command that feeds no rows reads. -/
def mxPoison (t : Team) (c : Cmd) (i : Instr) : Bool :=
  let scr := c.ranges.any (fun r => t.scrPoisoned r.1 r.2)
  match i with
  | .mldw _ => scr
  | .mhad o => if bit o.w3 17 then scr else t.accPoisoned (fld o.a 0 6) 0 128
  | .mqnt o =>
    t.accPoisoned (fld o.a 0 6) 0 256 || (bit o.w3 16 && t.scrPoisoned c.sc.toNat 512)
  | .acccvt o => t.accPoisoned (fld o.d 0 6) (fld o.w3 16 7) (fld o.w3 23 8)
  | _ => false

/-- R374: what a command does when it starts, its checks having passed. -/
def State.mxRun (s : State) (core : Nat) (t : Team) (c : Cmd) (i : Instr) : State :=
  let done (s : State) : State := s.putStarted core (c.finish 0 0 1)
  if mxPoison t c i then s.putStarted core (c.finish 2 Cause.uncorrectable.code 0)
  else
    match i with
    | .mldw o => done (s.modCore core (fun k => { k with planes := kset (2 * c.strand + 1) (t.runMldw c o) k.planes }))
    | .mswap _ => done (s.modCore core (fun k => c.strands.foldl Core.swap k))
    | .mswapShort _ => done (s.modCore core (fun k => c.strands.foldl Core.swap k))
    | .mhad o => done (s.setTeam ((t.accKeeps c.id (fld o.d 0 6) 0 128).runMhad c o))
    | .mqnt o => done (s.setTeam (t.runMqnt s.free c o))
    | .accz o =>
      let row := fld o.w3 16 7
      let count := fld o.w3 23 8
      done (s.setTeam ((t.accKeeps c.id (fld o.d 0 6) row count).accClear (fld o.d 0 6) row count))
    | .acccvt o => done (s.setTeam (t.runAcccvt c o))
    | _ =>
      let c := match i with | .mmaJ o => { c with rows := t.jointRows s.free c o } | _ => c
      let c := { c with planes := c.strands.filterMap (fun j => ((s.core core).plane? t.id j false).map (fun p => (j, p))) }
      let poisoned : Bool :=
        match i with
        | .mmaJ o => c.joint.any (fun e =>
            match t.group? e.1 with
            | some g => (lanesOf e.2).any (fun l => (List.range (rowRegs (mxMode i) o.ty)).any (fun k =>
                smem (32 * (o.a.toNat + k) + l) g.regPoison))
            | none => false)
        | _ => false
      if poisoned then s.putStarted core (c.finish 2 Cause.uncorrectable.code 0)
      else
        let wide := mxTy i == .f16 || mxTy i == .bf16
        let slots := if wide then 2 else 1
        let cost := slots * (if mxMode i = 1 ∨ mxMode i = 2 then 3 else 1)
        let inj := c.rowNums.map (fun _ => (cost, slots))
        s.putStarted core (if inj.isEmpty then c.finish 0 0 0 else { c with inj := inj, injDone := 0 })

/-- R374: the strands whose planes an `MLDW` writes, and those whose planes an `MSWAP` exchanges. -/
def Cmd.loads (c : Cmd) : List Nat := match c.instr with | some (.mldw _) => [c.strand] | _ => []
def Cmd.swaps (c : Cmd) : List Nat :=
  match c.instr with
  | some (.mswap _) => c.strands
  | some (.mswapShort _) => c.strands
  | _ => []

/-- R374: an earlier command, started, that a command has to wait for: one that still feeds a strand it uses or swaps; for
`MLDW` one that loads or swaps its strand, for `MSWAP` one that loads one of its own, until it has completed. -/
def Cmd.waitsFor (c x : Cmd) : Bool :=
  x.instr.isSome &&
  ((!x.inj.isEmpty && x.strands.any (fun j => c.strands.contains j))
   || c.loads.any (fun j => x.loads.contains j || x.swaps.contains j)
   || c.swaps.any (fun j => x.loads.contains j))

/-- R130, R361, R374: the head of `q.mx`, where it may start. -/
def State.mxHead (s : State) (core : Nat) : Option (Cmd × Instr) :=
  let k := s.core core
  match k.qmx with
  | [] => none
  | c :: _ =>
    match s.team? c.team, c.instr with
    | some t, some i =>
      if k.dbg.halt || !t.onCore || t.head c != .go || k.started.any c.waitsFor then none else some (c, i)
    | _, _ => none

/-- R374: MATRIX_COMMAND: the head starts. -/
def State.matrixStart (s : State) (core : Nat) : State :=
  match s.mxHead core with
  | none => s
  | some (c, i) =>
    match s.team? c.team with
    | none => s
    | some t =>
      let fault := State.mxStartFault (s.core core) t c i
      let s := s.modCore core (fun k => { k with qmx := k.qmx.drop 1, started := k.started ++ [c] })
      let s :=
        match fault with
        | some e => s.putStarted core (c.finish 2 e.code 0)
        | none => s.mxRun core t c i
      s.heads core

/-! ### Formation (R371 to R373, R380) -/

/-- R353, R372: the header that MCTL stands for. -/
def mctlHeader (kind : Nat) (m : Word) : Word :=
  w32 (kind + 16 * fld m 0 4 + 256 * fld m 4 4 + 4096 * fld m 8 1 + 8192 * fld m 9 4 + 131072 * fld m 13 1)

/-- R372, R377: the control word of a matrix instruction. -/
def mctlOf (i : Instr) (o : XOps) : Word :=
  match i with
  | .mswapShort _ => w32 (fld o.a 0 4)
  | _ => o.w3

/-- R378: the rows that the active lanes of a home group supply to an `MMA`, read at issue. -/
def Ctx.mmaRows (c : Ctx) (gc : GCtx) : List (Nat × List Word) :=
  match c.i with
  | .mma o => (lanesOf gc.act).map (fun l =>
      (32 * fld o.d 6 2 + l, (List.range (rowRegs (mxMode c.i) o.ty)).map (fun k => gc.g.readReg c.free (o.a.toNat + k) l)))
  | _ => []

/-- R373: the command of a home group. -/
def Ctx.mxCmd (c : Ctx) (s : State) (gc : GCtx) : Except Trap Cmd :=
  let x := c.team.formCmd gc.g.num c.frag.hm [mctlHeader 1 (mctlOf c.i c.o)]
  let sa := (gc.g.sval c.free 1 c.o.a.toNat)
  let sb := gc.g.readScal c.free c.o.b.toNat
  let sc := gc.g.readScal c.free c.o.c.toNat
  if mxMalformed c.i (sa.setWidth 32) sb sc then .error Cause.commandMalformed.plain
  else
    match c.team.badBars x with
    | some e => .error e.plain
    | none =>
      .ok { s.withInstr c.team x c.i sa sb sc (fmtSAT c.frag.fmt) with rows := c.mmaRows gc }

/-- R373: a matrix instruction. -/
def Ctx.mxBody (c : Ctx) (s : State) : State := c.pushBody 0 (c.mxCmd s) s

/-- R160, R380: what a joint command records of the groups that joined: their active lanes, and their rows as they
stand at the issue and stood before (R160). -/
def Cmd.joining (c : Cmd) (t : Team) (o : XOps) (arr : List (Frag × Arrival)) : Cmd :=
  let l := sortBy (fun a => a.2.group) arr
  { c with
    joint := l.map (fun a => (a.2.group, a.2.act))
    rows := l.flatMap (fun a =>
      match t.group? a.2.group with
      | none => []
      | some g => (lanesOf a.2.act).map (fun n => (32 * a.2.group + n, g.opfRow o n))) }

/-- R355, R380: MMA_J_FORM: every named group has arrived: one command is formed, on behalf of the group that arrived
last; where no entry is free, that group's fragment is blocked and the others stay held until the command enters. -/
def State.jointForm (s : State) (tid fid : Nat) : State :=
  match (s.team? tid).bind (fun t => (t.frag? fid).map (fun f => (t, f))) with
  | none => s
  | some (t, f) =>
    match f.st with
    | .held (.mmaJ o) _ _ =>
      let i : Instr := .mmaJ o
      let arr := t.jointArrivals i f.pc
      let gs := arr.map (fun a => a.2.group)
      if !(t.jointNamed o.w3 gs).all (fun g => gs.contains g) then s
      else
        match leastBy (fun a => (arr.map (fun x => x.2.seq)).foldl max 0 - a.2.seq) arr with
        | none => s
        | some (lf, la) =>
          let x := t.formCmd la.group lf.hm [w32 (1 + 16 * fld o.b 0 4)]
          match t.badBars x with
          | some e => s.jointEnd tid i f.pc [la.group] (some e.plain)
          | none =>
            let cmd := (s.withInstr t x i 0 0 0 (fmtSAT lf.fmt)).joining t o arr
            let s := s.modTeam tid (fun t => gs.foldl (fun t g => t.modGroup g (fun g => { g with opfRegs := g.opfRegs ++ [g.regs] })) t)
            if s.queueWaiters t.core 0 || decide (queueDepth 0 ≤ ((s.core t.core).queue 0).length) then
              match lf.st with
              | .held _ _ next =>
                let n := s.fresh
                ((n.2.settle tid lf lf.word s.free (lf.lanes.map (fun e =>
                  (e.1, GOut.go { st := .qpush 0 [cmd] n.1 next, pc := lf.pc, fmt := lf.fmt, hm := lf.hm })))).heads
                  t.core).deadlock tid
              | _ => s
            else ((s.enterQueue t.core 0 cmd).jointEnd tid i f.pc gs none).heads t.core
    | _ => s

/-- R380: `MMA.J`: the groups arrive. -/
def Ctx.jointBody (c : Ctx) (s : State) : State :=
  if c.frag.region.isSome then
    c.settle (c.groups.map (fun gc => (gc.g.num, GOut.trap { cause := .joinMismatch }))) s
  else
    let n := s.fresh
    let arrs := c.groups.map (fun gc => ({ group := gc.g.num, lanes := gc.carried, act := gc.act, seq := n.1 } : Arrival))
    let s := c.settle (c.groups.map (fun gc => (gc.g.num, GOut.go { c.again with st := .held c.i arrs c.next.pc }))) n.2
    let s := s.jointFault c.team.id c.i c.frag.pc c.o.w3
    match s.team? c.team.id with
    | none => s
    | some t =>
      -- where the issuing fragment is the only one that is named, the command is formed at once
      if (t.jointArrivals c.i c.frag.pc).all (fun a => a.1.id == c.frag.id) then s.jointForm c.team.id c.frag.id else s

/-! ### Subscriptions (R389, R390) and publications (R391) -/

/-- R390: `SUBSCRIBE` for one home group. -/
def Ctx.subscribeBody (c : Ctx) (s : State) : State :=
  let op := fld c.o.w3 0 2
  let sid := fld c.o.w3 2 4
  let bar := fld c.o.w3 6 4
  let bad : Trap := { cause := .streamInvalid }
  c.runGroups (fun gc s =>
    if gc.act = 0 then (.ok () c.next, s)
    else
      match s.team? c.team.id with
      | none => (.hold, s)
      | some t =>
        let sa := gc.g.readScal c.free c.o.a.toNat
        let sb := gc.g.readScal c.free c.o.b.toNat
        let old := kfind sid t.subs
        let isOpen := match old with | some b => b.isOpen | none => false
        if op = 0 then
          if decide (t.barsN ≤ bar) || (kfind bar t.bars).isNone then (.trap { cause := .barrierInvalid }, s)
          else
            let slot := fld sb 0 20
            let w := fld sb 20 4 + 1
            if isOpen || fld sa 0 4 != 0 || slot == 0 || slot % 16 != 0 || fld sb 24 8 != 0
                || decide (t.scrSize < sa.toNat + w * slot) then (.trap bad, s)
            else
              let b : Sub :=
                { isOpen := true, base := sa.toNat, slot := slot, w := w, bar := bar, out := 0, next := 0, reserved := 0 }
              (.ok () c.next, s.setTeam { t with subs := kset sid b t.subs })
        else
          match old with
          | none => (.trap bad, s)
          | some b =>
            if !b.isOpen then (.trap bad, s)
            else if op = 1 then
              if sa.toNat = 0 ∨ b.out < sa.toNat ∨ 16 < sa.toNat then (.trap bad, s)
              else (.ok () c.next, s.setTeam { t with subs := kset sid { b with out := b.out - sa.toNat } t.subs })
            else if b.reserved = 0 then
              (.ok () c.next, s.setTeam { t with subs := kset sid { b with isOpen := false } t.subs })
            else (.ok () { c.again with st := .subClose sid c.next.pc }, s)) (fun _ s => s) s

/-- R390: SUBSCRIBE_CLOSE_COMPLETE: every reserved delivery has been written: the first of the groups that wait closes the
stream, and those after it find it closed. -/
def State.subClosed (s : State) (tid fid : Nat) : State :=
  match (s.team? tid).bind (fun t => (t.frag? fid).map (fun f => (t, f))) with
  | none => s
  | some (t, f) =>
    match f.st with
    | .subClose sid next =>
      match kfind sid t.subs with
      | none => s
      | some b =>
        if b.reserved = 0 then
          (s.setTeam { t with subs := kset sid { b with isOpen := false } t.subs }).settle tid f f.word s.free
            ((List.range f.lanes.length).zip f.lanes |>.map (fun e =>
              (e.2.1, if e.1 = 0 then GOut.go { pc := next, fmt := f.fmt, hm := f.hm } else .trap { cause := .streamInvalid })))
        else s
    | _ => s

/-- R391: the command of a `PUBLISH`. -/
def Ctx.publishCmd (c : Ctx) (s : State) (gc : GCtx) : Except Trap Cmd :=
  let src := gc.g.sval c.free 2 c.o.a.toNat
  let sb := gc.g.readScal c.free c.o.b.toNat
  let sc := gc.g.readScal c.free c.o.c.toNat
  let hd := setFld (mctlHeader 5 c.o.w3) 18 2 (fld c.o.w3 14 2)
  let x := c.team.formCmd gc.g.num c.frag.hm
    [hd, w32 (fld sb 0 16 + 65536 * fld c.o.w3 16 4), src.setWidth 32, (src >>> 32).setWidth 32, sc, 0, 0, 0]
  if fld c.o.w3 20 2 ≠ 0 ∨ fld sb 16 16 ≠ 0 ∨ s.cpMalformed c.team x then .error Cause.commandMalformed.plain
  else
    match c.team.badBars x with
    | some e => .error e.plain
    | none => .ok x

/-- R394, R471: `MCAD`, once, where some lane is active; a register write of the same clk stands. -/
def Ctx.mcadBody (c : Ctx) (s : State) : State :=
  c.runGroups (fun _ s => c.okNext () s) (fun l s =>
    if l.any (fun e => e.1.act != 0) then
      s.modCore c.core (fun k => if k.cadClk = some s.clock.clk then k else { k with cadence := fld c.o.w3 0 5 })
    else s) s

/-! ### The slew limiter (R466 to R470) -/

/-- R471: the effective cadence. -/
def Core.cad (k : Core) : Nat := max k.cadence k.gfloor

/-- R370: a started command with a row ready to take its slots. -/
def Core.rowReady (k : Core) (clk : Nat) (c : Cmd) : Bool :=
  c.instr.isSome && !c.fin && !c.inj.isEmpty && c.strands.all (fun j => decide (kget 0 j k.slotAt ≤ clk))

/-- The cores of a die in round-robin order after one. -/
def dieOrder (die after : Nat) : List Nat :=
  let l := (List.range 144).filter (fun c => dieOf c == die)
  l.filter (fun c => decide (after < c)) ++ l.filter (fun c => decide (c ≤ after))

/-- R468: the limiter has granted the core nothing in the previous 64 clk. -/
def Core.cold (k : Core) (clk : Nat) : Bool :=
  match k.lastGrant with
  | none => true
  | some t => decide (t + 64 < clk)

/-- R469: the core took an injection in a window. -/
def Core.injected (k : Core) (win : Nat) : Core :=
  if k.injWin = some win then k else { k with injPrev := k.injWin, injWin := some win }

/-- R370, R467: a row is granted: its strands are taken for its slots, and the row is fed. -/
def State.grantRow (s : State) (core : Nat) (c : Cmd) : State :=
  match c.inj with
  | [] => s
  | (_, slots) :: _ =>
    let s := s.modCore core (fun k =>
      { (k.injected (s.clock.clk / 64)) with
        slotAt := c.strands.foldl (fun l j => kset j (s.clock.clk + k.cad * slots) l) k.slotAt
        slot2 := if slots = 2 then c.strands.foldl (fun l j => kset j (s.clock.clk + k.cad) l) k.slot2 else k.slot2
        lastGrant := some s.clock.clk
        startOk := false })
    -- R423: PERF counter 3
    let s := s.modTeam c.team (fun t =>
      { t with groups := t.groups.map (fun e => (e.1, e.2.perfAdd 3 (slots * c.strands.length))) })
    s.feedRow core c

/-- R467: the requests of a die in this clk: core and command, in round-robin order. -/
def State.requests (s : State) (die after : Nat) : List (Nat × Cmd) :=
  (dieOrder die after).flatMap (fun c =>
    let k := s.core c
    (k.started.filter (k.rowReady s.clock.clk)).map (fun x => (c, x)))

/-- R469: fillers, strand by strand until the floor is met; a filler is an injection of its core (R466, R468). -/
def State.fillers (s : State) (die : Nat) (granted : List Nat) : State :=
  let clk := s.clock.clk
  let win := clk / 64
  (dieOrder die (s.snub die).rrFill).foldl (fun s c =>
    let k := s.core c
    if k.injWin = some (win - 1) ∨ k.injPrev = some (win - 1) then
      (List.range 3).foldl (fun s j =>
        let n := s.snub die
        let busy := granted.contains (4 * c + j) || kfind j k.slot2 == some clk
        if win = 0 ∨ busy ∨ n.floor ≤ n.w then s
        else
          (s.modSnub die (fun n => { n with w := n.w + 1, fill := n.fill + 1, rrFill := c })).modCore c
            (fun k => { (k.injected win) with lastGrant := some clk })) s
    else s) s

/-- R467 to R469: SNUB_INJECTION_GRANT: the grants of a die in this clk, once. -/
def State.snubGrant (s : State) (die : Nat) : State :=
  let clk := s.clock.clk
  let n := s.snub die
  if n.grantClk = some clk then s
  else
    let en := bit n.inForce 0
    let reqs := s.requests die n.rrCore
    let s := s.modSnub die (fun n => { n with grantClk := some clk })
    if !en then reqs.foldl (fun s r => s.grantRow r.1 r.2) s
    else
      -- R468: one start grant in a clk that is a multiple of 4; a core keeps it until its row is granted
      let needs (s : State) (c : Nat) : Bool := (s.core c).cold clk && !(s.core c).startOk
      let coldReqs := ((s.requests die n.rrStart).map (fun r => r.1)).filter (needs s)
      let s :=
        match (if clk % 4 = 0 then coldReqs.head? else none) with
        | some c => (s.modSnub die (fun n => { n with rrStart := c })).modCore c (fun k => { k with startOk := true })
        | none => s
      let r := reqs.foldl (fun (acc : State × Bool × List Nat) r =>
        let n := acc.1.snub die
        let c := (match r.2.inj with | [] => 0 | x :: _ => x.1)
        if needs s r.1 then acc
        else if c ≤ n.a - n.w || (n.w == 0 && decide (n.a < c)) then
          ((acc.1.modSnub die (fun n => { n with w := n.w + c, rrCore := r.1 })).grantRow r.1 r.2, acc.2.1,
            acc.2.2 ++ r.2.strands.map (fun j => 4 * r.1 + j))
        else (acc.1, true, acc.2.2)) (s, false, [])
      let s := if r.2.1 then r.1.modSnub die (fun n => { n with refused := (n.refused + 1) % 2 ^ 32 }) else r.1
      s.fillers die r.2.2

/-- R467, R470: SNUB_WINDOW_BOUNDARY: the next window of a die begins. -/
def State.snubWindow (s : State) (die : Nat) : State :=
  let n := s.snub die
  if s.clock.clk / 64 ≤ n.win then s
  else
    s.modSnub die (fun n =>
      let step := fld n.cfg 1 13
      { n with inForce := n.cfg, a := n.w + step, floor := n.w - step, w := 0, win := n.win + 1, lastW := n.w,
               lastFill := n.fill, fill := 0 })

/-! ### The rows -/

/-- MLDW (R376). -/
def execMldw (o : XOps) (s : State) : Host.Outcome State Fault Refusal :=
  issue (.mldw o) s (fun c => c.mxBody)

/-- MSWAP_SHORT (R377). -/
def execMswapShort (o : SOps) (s : State) : Host.Outcome State Fault Refusal :=
  issue (.mswapShort o) s (fun c => c.mxBody)

/-- MSWAP (R377). -/
def execMswap (o : XOps) (s : State) : Host.Outcome State Fault Refusal :=
  issue (.mswap o) s (fun c => c.mxBody)

/-- MMA (R378). -/
def execMma (o : XOps) (s : State) : Host.Outcome State Fault Refusal :=
  issue (.mma o) s (fun c => c.mxBody)

/-- MMA_J (R380). -/
def execMmaJ (o : XOps) (s : State) : Host.Outcome State Fault Refusal :=
  issue (.mmaJ o) s (fun c => c.jointBody)

/-- MMAS (R382). -/
def execMmas (o : XOps) (s : State) : Host.Outcome State Fault Refusal :=
  issue (.mmas o) s (fun c => c.mxBody)

/-- MHAD (R383). -/
def execMhad (o : XOps) (s : State) : Host.Outcome State Fault Refusal :=
  issue (.mhad o) s (fun c => c.mxBody)

/-- MQNT (R385). -/
def execMqnt (o : XOps) (s : State) : Host.Outcome State Fault Refusal :=
  issue (.mqnt o) s (fun c => c.mxBody)

/-- ACCZ (R386). -/
def execAccz (o : XOps) (s : State) : Host.Outcome State Fault Refusal :=
  issue (.accz o) s (fun c => c.mxBody)

/-- ACCCVT (R387). -/
def execAcccvt (o : XOps) (s : State) : Host.Outcome State Fault Refusal :=
  issue (.acccvt o) s (fun c => c.mxBody)

/-- SUBSCRIBE (R390). -/
def execSubscribe (o : XOps) (s : State) : Host.Outcome State Fault Refusal :=
  issue (.subscribe o) s (fun c => c.subscribeBody)

/-- PUBLISH (R391). -/
def execPublish (o : XOps) (s : State) : Host.Outcome State Fault Refusal :=
  issue (.publish o) s (fun c s => c.pushBody 1 (c.publishCmd s) s)

/-- MCAD (R394). -/
def execMcad (o : XOps) (s : State) : Host.Outcome State Fault Refusal :=
  issue (.mcad o) s (fun c => c.mcadBody)

/-- MMA_J_FORM (R380). -/
def execMmaJForm (team frag : Nat) (s : State) : Host.Outcome State Fault Refusal :=
  event s (fun s => s.jointForm team frag)

/-- SUBSCRIBE_CLOSE_COMPLETE (R390). -/
def execSubscribeCloseComplete (team frag : Nat) (s : State) : Host.Outcome State Fault Refusal :=
  event s (fun s => s.subClosed team frag)

/-- MATRIX_COMMAND (R374). -/
def execMatrixCommand (core : Nat) (s : State) : Host.Outcome State Fault Refusal :=
  event s (fun s => s.matrixStart core)

/-- SNUB_INJECTION_GRANT (R467). -/
def execSnubInjectionGrant (die : Nat) (s : State) : Host.Outcome State Fault Refusal :=
  event s (fun s => s.snubGrant die)

/-- SNUB_WINDOW_BOUNDARY (R467). -/
def execSnubWindowBoundary (die : Nat) (s : State) : Host.Outcome State Fault Refusal :=
  event s (fun s => s.snubWindow die)

end Sys2Proof.Machine
end

