-- ==== Sys2Proof/Machine/Resource.lean ====
section
/-! DEFINITION. What a core has for teams and what a team asks of it: ways, register admission, buddy blocks of
scratch, private granules, accumulators, barriers (R61, R72 to R75, R87, R97, R99, R208, R209). -/

namespace Sys2Proof.Machine

/-- R99, R209: what a team asks of a core; `offs` are its groups' ways before rotation, `live` those of the groups that
have not finished. -/
structure Demand where
  offs : List Nat
  live : List Nat
  win : Nat
  priv : Nat
  scr : Nat
  acc : Nat
  bars : Nat
  deriving DecidableEq, Repr

/-- R72: the block of a scratch declaration. -/
def scrBlock (n : Nat) : Nat := if n = 0 then 0 else 2 ^ max 12 (clog2 n)

/-- R206: the groups of a team. -/
def groupsOf (lanes : Nat) : Nat := ceilDiv lanes 32

/-- R99: the demand of a team from its declarations. -/
def demandOf (lanes regs acc bars scr priv : Nat) : Demand :=
  { offs := List.range (groupsOf lanes), live := List.range (groupsOf lanes), win := ceilDiv regs 8, priv := ceilDiv priv 256, scr := scrBlock scr,
    acc := acc, bars := bars }

def Rec.demand (r : Rec) : Demand := demandOf r.tlanes r.regs r.acc r.bars r.scr r.priv
def Succ.demand (x : Succ) : Demand := demandOf x.tlanes x.regs x.acc x.bars x.scr x.priv

/-- R68, R96: what a team on a core holds. -/
def Team.hold (t : Team) : Hold :=
  { ways := t.groups.map (fun e => e.2.way), live := (t.groups.filter (fun e => !e.2.finished)).map (fun e => e.2.way),
    win := ceilDiv t.regsN 8, priv := t.privN, scrBase := t.scrBase, scrSize := t.scrSize, acc := t.accN, bars := t.barsN }

/-- R212, R459: the teams that hold a core's storage. -/
def State.teamsOn (s : State) (c : Nat) : List Team :=
  (s.teams.map (fun e => e.2)).filter (fun t => t.core == c && t.st != .saved)
def State.holds (s : State) (c : Nat) : List Hold := (s.teamsOn c).map Team.hold

/-! ### The buddy allocator (R73, R74) -/

/-- The largest power of two, from 4 KiB times `2 ^ k` down, that fits and is aligned. -/
def topSize (o rest : Nat) : Nat → Nat
  | 0 => 4096
  | k + 1 => if 4096 * 2 ^ (k + 1) ≤ rest ∧ o % (4096 * 2 ^ (k + 1)) = 0 then 4096 * 2 ^ (k + 1) else topSize o rest k

/-- R73: the top blocks of an arena, on fuel. -/
def topBlocks (size : Nat) : Nat → Nat → List (Nat × Nat)
  | 0, _ => []
  | f + 1, o => if size ≤ o then [] else (o, topSize o (size - o) 7) :: topBlocks size f (o + topSize o (size - o) 7)

/-- R74: the free blocks inside a block of `4096 * 2 ^ k` bytes: as large as the allocated ones leave. -/
def freeIn (used : List (Nat × Nat)) : Nat → Nat → List (Nat × Nat)
  | 0, o => if used.any (fun u => decide (u.1 < o + 4096) && decide (o < u.1 + u.2)) then [] else [(o, 4096)]
  | k + 1, o =>
    let sz := 4096 * 2 ^ (k + 1)
    if used.any (fun u => decide (u.1 < o + sz) && decide (o < u.1 + u.2)) then
      freeIn used k o ++ freeIn used k (o + 4096 * 2 ^ k)
    else [(o, sz)]

/-- R62: the arena of a core. -/
def arenaSize (split : Dword) : Nat := 65536 * fld split 0 6

/-- R73, R74: the free blocks of a core's arena. -/
def freeBlocks (split : Dword) (hs : List Hold) : List (Nat × Nat) :=
  let used := (hs.filter (fun h => h.scrSize != 0)).map (fun h => (h.scrBase, h.scrSize))
  (topBlocks (arenaSize split) 40 0).flatMap (fun b => freeIn used (clog2 (b.2 / 4096)) b.1)

/-- R74: the offset a request takes; none where no free block is large enough. -/
def buddyTake (split : Dword) (hs : List Hold) (size : Nat) : Option Nat :=
  if size = 0 then some 0
  else (leastBy (fun b => b.2 * 2 ^ 24 + b.1) ((freeBlocks split hs).filter (fun b => decide (size ≤ b.2)))).map (fun b => b.1)

/-! ### Fitting (R208, R209) -/

def wayCount (hs : List Hold) (w : Nat) : Nat := (hs.map (fun h => (h.ways.filter (fun x => x == w)).length)).sum
def wayPriv (hs : List Hold) (w : Nat) : Nat :=
  (hs.map (fun h => h.priv * (h.live.filter (fun x => x == w)).length)).sum
def regsHeld (hs : List Hold) : Nat := (hs.map (fun h => h.win * h.live.length)).sum
/-- R99: register admission. -/
def regCapacity (split : Dword) : Nat := 64 * fld split 6 6 * (4 + fld split 12 2) / 4

/-- R209: the base way of a team. -/
def baseWay (hs : List Hold) (d : Demand) : Option Nat :=
  let ok (w0 : Nat) : Bool := (List.range 8).all (fun w =>
    let on (l : List Nat) : Nat := (l.filter (fun o => (w0 + o) % 8 == w)).length
    decide (wayCount hs w + on d.offs ≤ 8) && decide (wayPriv hs w + on d.live * d.priv ≤ 16))
  leastBy (wayCount hs) ((List.range 8).filter ok)

/-- R208: what a team would hold of a core, where it fits. -/
def fitOn (split : Dword) (hs : List Hold) (d : Demand) : Option Hold :=
  let total (f : Hold → Nat) : Nat := (hs.map f).sum
  if 16 ≤ hs.length ∨ 64 < total (fun h => h.bars) + d.bars ∨ 64 < total (fun h => h.acc) + d.acc
      ∨ regCapacity split < regsHeld hs + d.win * d.live.length then none
  else
    match baseWay hs d, buddyTake split hs d.scr with
    | some w0, some b =>
      some { ways := d.offs.map (fun o => (w0 + o) % 8), live := d.live.map (fun o => (w0 + o) % 8), win := d.win, priv := d.priv, scrBase := b, scrSize := d.scr,
             acc := d.acc, bars := d.bars }
    | _, _ => none

/-- Several teams of one demand on a core, one after another. -/
def fitMany (split : Dword) (d : Demand) : Nat → List Hold → Bool
  | 0, _ => true
  | n + 1, hs =>
    match fitOn split hs d with
    | some h => fitMany split d n (hs ++ [h])
    | none => false

/-- R97, R229: what a held slot would hold once it has grown to a demand; none where some resource cannot. -/
def growTo (split : Dword) (others : List Hold) (h : Hold) (d : Demand) : Option Hold :=
  let total (f : Hold → Nat) : Nat := (others.map f).sum
  let used := (others.filter (fun x => x.scrSize != 0)).map (fun x => (x.scrBase, x.scrSize))
  let inTop (b n : Nat) : Bool := (topBlocks (arenaSize split) 40 0).any (fun t => decide (t.1 ≤ b) && decide (b + n ≤ t.1 + t.2))
  let scr : Option Nat :=
    if d.scr = 0 then some 0
    else if h.scrSize = 0 then buddyTake split others d.scr
    else if d.scr ≤ h.scrSize then some h.scrBase
    else if h.scrBase % d.scr = 0 ∧ inTop h.scrBase d.scr
        ∧ !used.any (fun u => decide (u.1 < h.scrBase + d.scr) && decide (h.scrBase < u.1 + u.2)) then some h.scrBase
    else none
  let privOk := (List.range 8).all (fun w =>
    decide (wayPriv others w + d.priv * (h.ways.filter (fun x => x == w)).length ≤ 16))
  if 64 < total (fun x => x.bars) + d.bars ∨ 64 < total (fun x => x.acc) + d.acc
      ∨ regCapacity split < regsHeld others + d.win * h.ways.length ∨ !privOk then none
  else scr.map (fun b => { h with live := h.ways, win := d.win, priv := d.priv, scrBase := b, scrSize := d.scr, acc := d.acc, bars := d.bars })

end Sys2Proof.Machine
end

