-- ==== Sys2Proof/Machine/Launch.lean ====
section
/-! DEFINITION. Launch records: their fields, their checks in the order of R207, the tables they name, braid
and work-graph fields, and the acceptance of a grid (R204 to R211, R223, R224, R232 to R236, R240 to R244,
R436). -/

namespace Sys2Proof.Machine

/-! ### Fields (R205) -/

/-- A field of `n` bytes of a record. -/
def at_ (b : List Byte) (o n : Nat) : Nat := leNat ((b.drop o).take n)

/-- Every byte of a range is zero. -/
def zeroBytes (b : List Byte) (o n : Nat) : Bool := at_ b o n == 0

/-- R205: a launch record. -/
def recOf (b : List Byte) : Rec :=
  let f (o lo len : Nat) : Nat := at_ b o 1 / 2 ^ lo % 2 ^ len
  { entry := w64 (at_ b 0 7), launchid := at_ b 8 4, deadline := f 0x0C 0 1 == 1, braid := f 0x0C 1 1 == 1,
    graph := f 0x0C 2 1 == 1, waitg := f 0x0C 3 1 == 1, latch := f 0x0C 4 1 == 1, ring := f 0x0D 0 2,
    tlanes := at_ b 0x0E 2, gx := at_ b 0x10 2, gy := at_ b 0x12 2, gz := at_ b 0x14 2, cw := f 0x16 0 4,
    ch := f 0x16 4 4, tpc := f 0x17 0 5, regs := at_ b 0x18 2 % 512, acc := f 0x1A 0 7, bars := f 0x1B 0 5,
    scr := at_ b 0x1C 4 % 2 ^ 20, priv := at_ b 0x20 2 % 8192, nroles := f 0x22 0 7, nsucc := f 0x23 0 4,
    waitid := at_ b 0x24 4, roletab := w64 (at_ b 0x28 7), succtab := w64 (at_ b 0x30 7), args := w64 (at_ b 0x38 7),
    extra := (b.drop 0x40).take 48, latchB := (b.drop 0x70).take 8 }

/-- R205: a reserved bit is not zero. -/
def recReserved (b : List Byte) : Bool :=
  let r := recOf b
  let f (o lo : Nat) : Bool := at_ b o 1 / 2 ^ lo != 0
  !zeroBytes b 7 1 || f 0x0C 5 || f 0x0D 2 || f 0x17 5 || f 0x19 1 || f 0x1A 7 || f 0x1B 5
  || decide (2 ^ 20 ≤ at_ b 0x1C 4) || f 0x21 5 || f 0x22 7 || f 0x23 4 || !zeroBytes b 0x2F 1 || !zeroBytes b 0x37 1
  || !zeroBytes b 0x3F 1 || (!r.braid && !r.graph && !zeroBytes b 0x40 48) || (!r.latch && !zeroBytes b 0x70 8)
  || !zeroBytes b 0x78 8

/-- R232, R240: addresses in the braid and work-graph fields. -/
def Rec.sbase (r : Rec) : Nat := at_ r.extra 0 7
def Rec.nodetab (r : Rec) : Nat := at_ r.extra 0 7
def Rec.arena (r : Rec) : Nat := at_ r.extra 8 7
def Rec.arenaSz (r : Rec) : Nat := at_ r.extra 16 5
def Rec.nnodes (r : Rec) : Nat := at_ r.extra 24 1 % 128
def Rec.ninit (r : Rec) : Nat := at_ r.extra 28 4
def Rec.init (r : Rec) : Nat := at_ r.extra 32 7

/-- R436: the latch fields. -/
def Rec.latchOut (r : Rec) : Nat := at_ r.latchB 0 1 % 8
def Rec.latchStrip (r : Rec) : Nat := at_ r.latchB 0 1 / 8
def Rec.latchView (r : Rec) : Nat := at_ r.latchB 1 1 % 16

/-- R436: a latch trigger that refuses the record. -/
def State.badLatch (s : State) (vi : Nat) (r : Rec) : Bool :=
  r.latch &&
  (decide (16 ≤ at_ r.latchB 1 1) || !zeroBytes r.latchB 2 6 || !(s.disp r.latchOut).en
   || (s.disp r.latchOut).owner != vi || decide ((s.disp r.latchOut).nstrip ≤ r.latchStrip)
   || !s.inFrameSet vi r.latchView || (s.view r.latchView).output != r.latchOut)

/-- R232: a component of a vector. -/
def Rec.vec (r : Rec) (j a : Nat) : Int := sval 8 (at_ r.extra (8 + 3 * j + a) 1)
def Rec.nvec (r : Rec) : Nat := at_ r.extra 20 1 % 8
/-- R232: sweep axis `i`, and the direction of an axis. -/
def Rec.axis (r : Rec) (i : Nat) : Nat := at_ r.extra 21 1 / 4 ^ i % 4
def Rec.descends (r : Rec) (a : Nat) : Bool := at_ r.extra 22 1 / 2 ^ a % 2 == 1

/-- R207, R232: in the braid fields a reserved bit is not zero or a field lies outside its range. -/
def braidFields (b : List Byte) (r : Rec) : Bool :=
  let comps (j : Nat) : List Int := (List.range 3).map (r.vec j)
  !zeroBytes b 0x47 1 || decide (8 ≤ at_ b 0x54 1) || decide (64 ≤ at_ b 0x55 1) || decide (8 ≤ at_ b 0x56 1)
  || !zeroBytes b 0x57 25 || decide (r.nvec < 1) || decide (4 < r.nvec) || (List.range 3).any (fun i => decide (2 < r.axis i))
  || (List.range 4).any (fun j => if j < r.nvec then (comps j).any (fun x => decide (x < -3) || decide (3 < x))
                                  else (comps j).any (fun x => x != 0))

/-- R207, R240: in the work-graph fields a reserved bit is not zero or a field lies outside its range. -/
def graphFields (b : List Byte) (r : Rec) : Bool :=
  !zeroBytes b 0x47 1 || !zeroBytes b 0x4F 1 || !zeroBytes b 0x55 3 || decide (128 ≤ at_ b 0x58 1) || !zeroBytes b 0x59 3
  || !zeroBytes b 0x67 1 || !zeroBytes b 0x68 8 || decide (r.arenaSz % 4096 ≠ 0) || r.nnodes == 0 || decide (64 < r.nnodes)
  || r.ninit == 0 || decide (2 ^ 24 < r.ninit)

/-- R207: the record itself is malformed in a partition of a geometry. -/
def State.recMalformed (s : State) (vi : Nat) (g : Dword) (b : List Byte) : Bool :=
  let r := recOf b
  let k := r.clusterSize
  recReserved b
  || decide (r.tlanes < 1) || decide (1024 < r.tlanes) || r.gx == 0 || r.gy == 0 || r.gz == 0 || r.cw == 0 || r.ch == 0
  || r.tpc == 0 || decide (16 < r.tpc) || r.regs == 0 || decide (256 < r.regs) || decide (64 < r.acc)
  || decide (16 < r.bars) || decide (4096 < r.priv) || decide (64 < r.nroles) || decide (8 < r.nsucc)
  || (r.nroles != 0 && fld r.roletab 0 3 != 0) || (r.nsucc != 0 && fld r.succtab 0 6 != 0)
  || (r.braid && (decide (r.sbase % 64 ≠ 0) || braidFields b r))
  || (r.graph && (graphFields b r || decide (r.nodetab % 32 ≠ 0) || decide (r.arena % 4096 ≠ 0)))
  || decide (2 ^ 24 < r.teams) || decide (12 < r.cw * r.ch) || decide (16 < k) || decide (geomW g < r.cw)
  || decide (geomH g < r.ch) || decide (r.teams % k ≠ 0) || (r.braid && r.graph) || (r.graph && r.nsucc != 0)
  || s.badLatch vi r

/-! ### Resources (R207) -/

/-- R207: some core of the partition, taken empty, holds one team. -/
def State.fitsEmpty (s : State) (part : Nat) (d : Demand) : Bool :=
  (s.partCores part).any (fun c => (fitOn (s.core c).split [] d).isSome)

/-- R207: some rectangle of empty cores holds the teams of a cluster. -/
def State.fitsRect (s : State) (part : Nat) (r : Rec) : Bool :=
  (origins (s.part part).geom r.cw r.ch).any (fun o =>
    (rectCores o r.cw r.ch).all (fun c => fitMany (s.core c).split r.demand r.tpc []))

/-! ### Tables (R210, R211, R223, R224, R241) -/

/-- The distributor reads `n` units of 8 bytes, in the system class (R204). -/
def State.distRead (s : State) (vi : Nat) (addr n : Nat) : Eng (List Byte) × State :=
  s.agentReads { vi := vi, cls := 3 } 8 n (w64 addr) []

/-- The 8-byte words of a list of bytes. -/
def dwordsOf (b : List Byte) : List Dword :=
  (List.range (b.length / 8)).map (fun i => w64 (at_ b (8 * i) 8))

/-- R211: an entry of a role table passes. -/
def roleOk (cores : List Nat) (r : Rec) (e : Dword) : Bool :=
  let v := fld e 8 8
  fld e 3 5 == 0 && fld e 16 48 == 0 &&
  (match fld e 0 2 with
   | 0 => true
   | 2 => !bit e 2 && decide (v ≤ 2)
   | _ => if bit e 2 then decide (v < r.cw * r.ch) else cores.contains v)

/-- R223: an entry of a successor table. -/
def succOf (b : List Byte) : Succ :=
  { entry := w64 (at_ b 0 7), regmask := w32 (at_ b 8 4), tlanes := at_ b 0x0C 2, regs := at_ b 0x0E 2 % 512,
    accmask := w64 (at_ b 0x10 8), scr := at_ b 0x18 4 % 2 ^ 20, priv := at_ b 0x1C 2 % 8192, acc := at_ b 0x1E 1 % 128,
    bars := at_ b 0x1F 1 % 32, scrfirst := at_ b 0x20 1 % 128, scrcount := at_ b 0x21 1,
    privi := at_ b 0x22 1 % 2 == 1, fmti := at_ b 0x22 1 / 2 % 2 == 1 }

/-- R224: an entry's fields fail. -/
def succBad (b : List Byte) : Bool :=
  let x := succOf b
  !zeroBytes b 7 1 || decide (512 ≤ at_ b 0x0E 2) || decide (2 ^ 20 ≤ at_ b 0x18 4) || decide (8192 ≤ at_ b 0x1C 2)
  || decide (128 ≤ at_ b 0x1E 1) || decide (32 ≤ at_ b 0x1F 1) || decide (128 ≤ at_ b 0x20 1)
  || decide (4 ≤ at_ b 0x22 1) || !zeroBytes b 0x23 29
  || decide (x.tlanes < 1) || decide (1024 < x.tlanes) || decide (x.regs < 1) || decide (256 < x.regs)
  || decide (524288 < x.scr) || decide (4096 < x.priv) || decide (64 < x.acc) || decide (16 < x.bars)
  || decide (128 < x.scrcount) || decide (128 < x.scrfirst + x.scrcount)

/-- Chunks of a list, `n` of `k` elements. -/
def chunks {α : Type} (k : Nat) : Nat → List α → List (List α)
  | 0, _ => []
  | n + 1, l => l.take k :: chunks k n (l.drop k)

/-- R241: an entry of a node table, and its fields and reserved bytes. -/
def nodeOf (b : List Byte) : Node :=
  { entry := w64 (at_ b 0 7), rsz := at_ b 8 1 % 32, maxdepth := at_ b 9 1, succmask := w64 (at_ b 0x10 8) }
def nodeBad (nnodes : Nat) (b : List Byte) : Bool :=
  let n := nodeOf b
  !zeroBytes b 7 1 || decide (32 ≤ at_ b 8 1) || n.rsz == 0 || decide (16 < n.rsz) || !zeroBytes b 0x0A 6
  || !zeroBytes b 0x18 8 || decide (2 ^ nnodes ≤ n.succmask.toNat)

/-- R242: the nodes that no edge from another node among the rest enters are taken away, on fuel; a cycle
leaves some. -/
def acyclic (ns : List Node) : Nat → List Nat → Bool
  | 0, l => l.isEmpty
  | f + 1, l =>
    let free := l.filter (fun m => !l.any (fun n => n != m && (match ns[n]? with | some x => bit x.succmask m | none => false)))
    if free.isEmpty then l.isEmpty else acyclic ns f (l.filter (fun m => !free.contains m))

/-- R242: the node table of a record, or what it asks of the launch's fields, fails. -/
def graphBad (r : Rec) (nodes : List (List Byte)) : Bool :=
  let ns := nodes.map nodeOf
  nodes.any (nodeBad r.nnodes) || !acyclic ns 65 (List.range r.nnodes) || r.gx != 1 || r.gy != 1 || r.gz != 1 || r.clusterSize != 1
  || decide (r.scr < 16 * (ns.foldl (fun m n => max m n.rsz) 0))

/-! ### Braids (R232 to R236) -/

/-- R233: a triple as the sweep orders it. -/
def Rec.swept (r : Rec) (c : Nat → Int) : List Int :=
  (List.range 3).map (fun i => if r.descends (r.axis i) then -(c (r.axis i)) else c (r.axis i))

/-- R233: lexicographically less. -/
def lexLt : List Int → List Int → Bool
  | a :: as, b :: bs => decide (a < b) || (decide (a = b) && lexLt as bs)
  | _, _ => false

/-- R234: why the braid fields refuse a record: the status. -/
def braidBad (r : Rec) : Option Nat :=
  if !((List.range 3).all (fun a => [r.axis 0, r.axis 1, r.axis 2].contains a)) || r.clusterSize != 1 then some 2
  else if (List.range r.nvec).any (fun j => !lexLt (r.swept (r.vec j)) [0, 0, 0]) then some 5
  else none

/-- R206: the coordinates of a team. -/
def Rec.coords (r : Rec) (k : Nat) : Nat → Int
  | 0 => (k % r.gx : Nat)
  | 1 => (k / r.gx % r.gy : Nat)
  | _ => (k / (r.gx * r.gy) : Nat)

/-- R206: the team at coordinates, where they lie in the grid. -/
def Rec.teamAt (r : Rec) (c : Nat → Int) : Option Nat :=
  if 0 ≤ c 0 ∧ c 0 < r.gx ∧ 0 ≤ c 1 ∧ c 1 < r.gy ∧ 0 ≤ c 2 ∧ c 2 < r.gz then
    some (((c 2).toNat * r.gy + (c 1).toNat) * r.gx + (c 0).toNat)
  else none

/-- R236: how many predecessors of a team lie in the grid. -/
def Rec.waitsFor (r : Rec) (k : Nat) : Nat :=
  ((List.range r.nvec).filter (fun j => (r.teamAt (fun a => r.coords k a + r.vec j a)).isSome)).length

/-- R235: a word of the scoreboard at acceptance. -/
def Rec.boardWord (r : Rec) (w : Nat) : Word :=
  w32 ((List.range 10).foldl (fun n m => if 10 * w + m < r.teams then n + r.waitsFor (10 * w + m) * 8 ^ m else n) 0)

/-- R236: a grid stopped by a scoreboard write that faulted: its teams are freed and it ends. -/
def State.boardFault (s : State) (gid cause : Nat) (addr : Nat) : State :=
  s.modGrid gid (fun g =>
    { g with stopped := true, count := min (g.count + 1) 0xFFFFFFFF,
             cause := if g.count = 0 then cause else g.cause, faddr := if g.count = 0 then w64 addr else g.faddr })

/-- R236: the scoreboard written at acceptance, word by word; the fault that stops it, and whether it is held. -/
def State.boardInit (s : State) (vi : Nat) (r : Rec) : Nat → Nat → Eng Unit × Nat × State
  | 0, w => (.ok (), w, s)
  | n + 1, w =>
    let x := s.agentWrite { vi := vi, cls := 3, pause := w == 0 } (w64 (r.sbase + 4 * w)) (leBytes 4 (r.boardWord w).toNat)
    match x.1 with
    | .ok _ => State.boardInit x.2 vi r n (w + 1)
    | .fault c => (.fault c, w, x.2)
    | .hold => (.hold, w, x.2)

/-! ### Acceptance (R207, R211, R224, R243) -/

/-- What the checks of a record come to. -/
inductive Accept where
  /-- a read is held by a migration, or the partition's geometry is being applied: later -/
  | hold
  | refuse (status : Nat)
  | ok (g : Grid)

/-- A table read: none where it faults. -/
def State.table (s : State) (vi addr n : Nat) : Option (Option (List Byte)) × State :=
  let r := s.distRead vi addr n
  match r.1 with
  | .ok b => (some (some b), r.2)
  | .fault _ => (some none, r.2)
  | .hold => (none, r.2)

/-- R243: bytes that need no alignment. -/
def State.tableBytes (s : State) (vi addr n : Nat) : Option (Option (List Byte)) × State :=
  let r := s.agentReads { vi := vi, cls := 3 } 1 n (w64 addr) []
  match r.1 with
  | .ok b => (some (some b), r.2)
  | .fault _ => (some none, r.2)
  | .hold => (none, r.2)

/-- R207: the grid waited for. -/
def State.waitGrid (s : State) (vi id : Nat) : Option Nat :=
  ((s.grids.filter (fun e => e.2.vi == vi && e.2.rc.launchid == id)).getLast?).map (fun e => e.1)

/-- R207: the checks of a record, in order. -/
def State.acceptCheck (s : State) (vi : Nat) (b : List Byte) : Accept × State :=
  let part := s.partOf vi
  let p := s.part part
  let r := recOf b
  if bit p.geom 19 || (s.partd part).busy then (.hold, s)
  else if !bit p.geom 18 then (.refuse 6, s)
  else if s.recMalformed vi p.geom b then (.refuse 2, s)
  else if 524288 < r.scr ∨ !s.fitsEmpty part r.demand ∨ !s.fitsRect part r then (.refuse 3, s)
  else
    let rt := if r.nroles = 0 then (some (some []), s) else s.table vi r.roletab.toNat r.nroles
    match rt.1 with
    | none => (.hold, s)
    | some none => (.refuse 4, rt.2)
    | some (some roleB) =>
      let st := if r.nsucc = 0 then (some (some []), rt.2) else rt.2.table vi r.succtab.toNat (8 * r.nsucc)
      match st.1 with
      | none => (.hold, s)
      | some none => (.refuse 4, st.2)
      | some (some succB) =>
        let entries := chunks 64 r.nsucc succB
        let succs := entries.map succOf
        let roles := dwordsOf roleB
        if entries.any succBad then (.refuse 2, st.2)
        else if succs.any (fun x => !s.fitsEmpty part x.demand) then (.refuse 3, st.2)
        else if roles.any (fun e => !roleOk (s.partCores part) r e) then (.refuse 4, st.2)
        else
          let s := st.2
          let grid (nodes : List Node) : Grid :=
            { id := 0, vi := vi, part := part, rc := r, roles := roles, succs := succs, nodes := nodes,
              waitFor := if r.waitg then s.waitGrid vi r.waitid else none, latchHeld := r.latch, step := p.step }
          if r.braid then
            match braidBad r with
            | some x => (.refuse x, s)
            | none => (.ok (grid []), s)
          else if r.graph then
            let nt := s.table vi r.nodetab (4 * r.nnodes)
            match nt.1 with
            | none => (.hold, s)
            | some none => (.refuse 2, nt.2)
            | some (some nb) =>
              let ns := chunks 32 r.nnodes nb
              if graphBad r ns then (.refuse 2, nt.2)
              else (.ok (grid (ns.map nodeOf)), nt.2)
          else (.ok (grid []), s)

/-- R243: the initial records of a graph, dealt to the deques of the partition's cores. -/
def State.dealInit (s : State) (gid : Nat) (cores : List Nat) (recs : List (List Byte)) : State :=
  ((List.range recs.length).zip recs).foldl (fun s e =>
    s.modCore (nth 0 cores (e.1 % cores.length)) (fun k =>
      -- each is placed before those already there: the lowest-numbered lies at the tail
      { k with deque := kset gid ((0, 0, e.2) :: kget [] gid k.deque) k.deque })) s

/-- R207, R236, R243: an accepted grid takes its place, with its scoreboard or its initial records; none where
a read is held.  Initial records that cannot be read refuse it. -/
def State.acceptGrid (s : State) (g : Grid) : Accept × State :=
  let r := g.rc
  let n := s.fresh
  let g := { g with id := n.1 }
  let add (s : State) : State := { s with grids := kset g.id g s.grids }
  if r.braid then
    let x := State.boardInit n.2 g.vi r (ceilDiv r.teams 10) 0
    match x.1 with
    | .hold => (.hold, s)
    | .ok _ => (.ok g, add x.2.2)
    | .fault c => (.ok g, (add x.2.2).boardFault g.id c (r.sbase + 4 * x.2.1))
  else if r.graph then
    let sz := match g.nodes with | x :: _ => 16 * x.rsz | [] => 16
    let t := n.2.tableBytes g.vi r.init (r.ninit * sz)
    match t.1 with
    | none => (.hold, s)
    | some none => (.refuse 2, t.2)
    | some (some b) => (.ok g, (add t.2).dealInit g.id (s.partCores g.part) (chunks sz r.ninit b))
  else (.ok g, add n.2)

/-- R207: a record accepted or refused. -/
def State.accept (s : State) (vi : Nat) (b : List Byte) : Accept × State :=
  let c := s.acceptCheck vi b
  match c.1 with
  | .ok g => c.2.acceptGrid g
  | x => (x, c.2)

/-- R204: the pending grids of a VI. -/
def State.pendingGrids (s : State) (vi : Nat) : Nat := (s.grids.filter (fun e => e.2.vi == vi)).length

end Sys2Proof.Machine
end

