-- ==== Sys2Proof/Machine/Ring.lean ====
section
/-! DEFINITION. Event rings and launch queues of a VI: records pending and written, interrupts, and the
writes of their registers (R202 to R204, R219 to R222, R478). -/

namespace Sys2Proof.Machine

def ViDyn.ring (d : ViDyn) (k : Nat) : Ring := kget {} k d.rings
def State.modRing (s : State) (vi k : Nat) (f : Ring → Ring) : State :=
  s.modVid vi (fun d => { d with rings := kset k (f (d.ring k)) d.rings })

/-- R219: LOST saturates. -/
def Ring.lose (r : Ring) : Ring := { r with lost := min (r.lost + 1) 0xFFFF }

/-- R221: a record joins those waiting for its ring: in the order of events, and in one clk by kind. -/
def insertEvent (e : EvRec) : List EvRec → List EvRec
  | [] => [e]
  | x :: r =>
    if e.ring = x.ring ∧ (e.time < x.time ∨ (e.time = x.time ∧ e.kind < x.kind)) then e :: x :: r
    else x :: insertEvent e r

/-- R221: an event; one that finds the pending store full is dropped and counted. -/
def State.pushEvent (s : State) (vi : Nat) (e : EvRec) : State :=
  if e.kind ≠ 1 ∧ 4096 ≤ ((s.vid vi).events.filter (fun x => x.kind != 1)).length then s.modRing vi e.ring Ring.lose
  else s.modVid vi (fun d => { d with events := insertEvent e d.events })

/-- R220: bytes 8 to 31 of a record. -/
def evBody (id kind status b14 : Nat) (rest : List Byte) : List Byte :=
  leBytes 4 id ++ leBytes 1 kind ++ leBytes 1 status ++ leBytes 1 b14 ++ leBytes 1 0 ++ (rest ++ List.replicate 16 0).take 16

/-- R204, R220: QUEUE_ERROR. -/
def State.queueError (s : State) (vi why : Nat) : State :=
  (s.modVid vi (fun d => { d with lqCfg := setFld (setFld d.lqCfg 8 1 1) 9 3 why })).pushEvent vi
    { ring := 0, time := s.clock.ns, kind := 4, body := evBody 0 4 why 0 [] }

/-- R220: the completion record of a grid, or of a refused record. -/
def State.completion (s : State) (vi : Nat) (g : Grid) (status : Nat) (grid : Option Nat) : State :=
  s.pushEvent vi
    { ring := g.rc.ring, time := s.clock.ns, kind := 1, grid := grid,
      body := evBody g.rc.launchid 1 status (g.cause % 64)
        (leBytes 4 g.count ++ leBytes 8 g.faddr.toNat ++ leBytes 4 g.retired) }

/-- R204: a completion record written or dropped ends its grid. -/
def State.dropGrid (s : State) (e : EvRec) : State :=
  match e.grid with
  | some g => { s with grids := kdel g s.grids }
  | none => s

/-- R465: a THROTTLE record written for a VI raises a notice in every marked group of it. -/
def State.raiseNotices (s : State) (vi : Nat) : State :=
  let c := (s.vi vi).trapCfg
  let mark (g : Group) : Group := if bit g.tr.tnotice 0 then { g with notice := true } else g
  let team (t : Team) : Team := if t.vi = vi then { t with groups := t.groups.map (fun e => (e.1, mark e.2)) } else t
  if bit c 0 && bit c 1 then { s with teams := s.teams.map (fun e => (e.1, team e.2)) } else s

/-- R222: the count of a ring has reached CNT, and its interrupt is due. -/
def Ring.due (r : Ring) : Bool := fld r.cfg 5 8 != 0 && decide (fld r.cfg 5 8 ≤ r.since)

/-- R221: EVENT_RECORD_WRITE: the oldest record of a ring, where the ring has room; an interrupt that is due is sent
first (R222).  The age that TIME limits begins here (log entry 100). -/
def State.eventWrite (s : State) (vi k : Nat) : State :=
  let d := s.vid vi
  let r := d.ring k
  let n := fld r.cfg 1 4
  if !bit r.cfg 0 || r.due || decide (2 ^ n ≤ (r.tail - r.head).toNat) then s
  else
    match findIdx (fun e => e.ring == k) d.events 0 with
    | none => s
    | some (i, e) =>
      let slot := r.tail.toNat % 2 ^ n
      let phase := if r.tail.toNat / 2 ^ n % 2 = 0 then 0x80 else 0
      let body := e.body.take 7 ++ leBytes 1 phase ++ e.body.drop 8
      let w := s.agentWrite { vi := vi, cls := 3 } (w64 (fld r.base 5 51 * 32 + 32 * slot)) (leBytes 8 e.time ++ body)
      let gone (s : State) : State :=
        (s.modVid vi (fun d => { d with events := d.events.take i ++ d.events.drop (i + 1) })).dropGrid e
      match w.1 with
      | .hold => s
      | .fault _ => (gone w.2).modRing vi k Ring.lose
      | .ok _ =>
        (if e.kind = 3 then (gone w.2).raiseNotices vi else gone w.2).modRing vi k (fun r =>
          { r with tail := r.tail + 1, since := r.since + 1, oldest := r.oldest.orElse (fun _ => some s.clock.ns) })

/-- R478: an interrupt message to the host. -/
def State.interrupt (s : State) (vector : Nat) : State := { s with hub := { s.hub with irqs := vector :: s.hub.irqs } }

/-- R222: EVENT_RING_COUNT_INTERRUPT. -/
def State.countIrq (s : State) (vi k : Nat) : State :=
  if ((s.vid vi).ring k).due then (s.modRing vi k (fun r => { r with since := 0, oldest := none })).interrupt (4 * vi + k)
  else s

/-- R222: EVENT_RING_TIME_INTERRUPT: a record's age counts from the clk in which it is written (log entry 100). -/
def State.timeIrq (s : State) (vi k : Nat) : State :=
  let r := (s.vid vi).ring k
  let t := fld r.cfg 13 16
  match r.oldest with
  | none => s
  | some o =>
    if t ≠ 0 ∧ o + 1000 * t ≤ s.clock.ns then
      (s.modRing vi k (fun r => { r with since := 0, oldest := none })).interrupt (4 * vi + k)
    else s

/-- R219: a write of `EVk_CFG`. -/
def State.evCfg (s : State) (vi k : Nat) (v : Dword) : State :=
  if 4 ≤ k then s
  else s.modRing vi k (fun r =>
    let lgn := if bit r.cfg 0 then fld r.cfg 1 4 else fld v 1 4
    let r1 := if bit v 0 && !bit r.cfg 0 then { r with tail := 0, head := 0, lost := 0 } else r
    { r1 with cfg := setFld (mergeMask (maskBits 64 0 29) r.cfg v) 1 4 lgn })

/-- R203: a write of `LQ_CFG`. -/
def State.lqCfg (s : State) (vi : Nat) (v : Dword) : State :=
  s.modVid vi (fun d =>
    let en := bit d.lqCfg 0
    let lgn := if en || decide (12 < fld v 1 4) then fld d.lqCfg 1 4 else fld v 1 4
    let c := setFld (setFld d.lqCfg 1 4 lgn) 0 1 (fld v 0 1)
    let d := if bit v 0 && !en then { d with lqHead := d.lqTail } else d
    { d with lqCfg := if bit v 0 then c else setFld c 8 4 0 })

/-- R203, R204: a write of `LQ_TAIL`. -/
def State.lqTailW (s : State) (vi : Nat) (v : Dword) : State :=
  let d := s.vid vi
  let tail : Word := v.setWidth 32
  let s := s.modVid vi (fun d => { d with lqTail := tail })
  if bit d.lqCfg 0 && !bit d.lqCfg 8 && decide (2 ^ fld d.lqCfg 1 4 < (tail - d.lqHead).toNat) then s.queueError vi 1 else s

/-- R204: LAUNCH_RECORD_CONSUME. -/
def State.consume (s : State) (vi : Nat) : State :=
  let d := s.vid vi
  if !bit d.lqCfg 0 || bit d.lqCfg 8 || !bit (s.vi vi).cfg 6 || d.lqHead == d.lqTail || d.consumed.isSome
      || decide (64 ≤ s.pendingGrids vi) then s
  else
    let a := fld d.lqBase 7 49 * 128 + 128 * (d.lqHead.toNat % 2 ^ fld d.lqCfg 1 4)
    let r := s.distRead vi a 16
    match r.1 with
    | .hold => s
    | .fault _ => r.2.queueError vi 2
    | .ok b => r.2.modVid vi (fun d => { d with consumed := some b, lqHead := d.lqHead + 1 })

/-- R220: a grid ends: its completion record waits for its ring. -/
def State.endGrid (s : State) (gid status : Nat) : State :=
  match s.grid? gid with
  | none => s
  | some g =>
    if g.ended then s
    else (s.modGrid gid (fun g => { g with ended := true })).completion g.vi g status (some gid)

/-- R207: GRID_ACCEPT; a record that has been consumed is accepted also where `VI_CFG.EN` has been cleared since (log entry
121). -/
def State.gridAccept (s : State) (vi : Nat) : State :=
  match (s.vid vi).consumed with
  | none => s
  | some b =>
    let a := s.accept vi b
    match a.1 with
    | .hold => s
    | .refuse st =>
      (a.2.modVid vi (fun d => { d with consumed := none })).completion vi { id := 0, vi := vi, part := 0, rc := recOf b } st none
    | .ok g =>
      let s := a.2.modVid vi (fun d => { d with consumed := none })
      if (match s.grid? g.id with | some g => g.stopped | none => false) then s.endGrid g.id 1 else s

/-! ### The rows -/

/-- LQ_CFG_WRITE (R203). -/
def execLqCfgWrite (vi : Nat) (v : Dword) (s : State) : Host.Outcome State Fault Refusal :=
  viEvent vi s (fun s => s.lqCfg vi v)

/-- LAUNCH_RECORD_CONSUME (R204). -/
def execLaunchRecordConsume (vi : Nat) (s : State) : Host.Outcome State Fault Refusal :=
  event s (fun s => s.consume vi)

/-- GRID_ACCEPT (R207). -/
def execGridAccept (vi : Nat) (s : State) : Host.Outcome State Fault Refusal :=
  event s (fun s => s.gridAccept vi)

/-- EVENT_RECORD_WRITE (R221). -/
def execEventRecordWrite (vi ring : Nat) (s : State) : Host.Outcome State Fault Refusal :=
  event s (fun s => s.eventWrite vi ring)

/-- EVENT_RING_COUNT_INTERRUPT (R222). -/
def execEventRingCountInterrupt (vi ring : Nat) (s : State) : Host.Outcome State Fault Refusal :=
  event s (fun s => s.countIrq vi ring)

/-- EVENT_RING_TIME_INTERRUPT (R222). -/
def execEventRingTimeInterrupt (vi ring : Nat) (s : State) : Host.Outcome State Fault Refusal :=
  event s (fun s => s.timeIrq vi ring)

/-- EV_CFG_WRITE (R219). -/
def execEvCfgWrite (vi ring : Nat) (v : Dword) (s : State) : Host.Outcome State Fault Refusal :=
  viEvent vi s (fun s => s.evCfg vi ring v)

end Sys2Proof.Machine
end

