-- ==== Sys2Proof/Machine/Place.lean ====
section
/-! DEFINITION. The life of a team: heads of grids, placement, the start and the restoration of a team, eviction
and its save, retirement, braid release, graph teams and steals (R206 to R215, R235 to R239, R243 to R248, R361,
R459, R460). -/

namespace Sys2Proof.Machine

/-! ### Starting (R206, R209, R214) -/

/-- R206: the lanes of a group at start. -/
def startLanes (tlanes g : Nat) : Word :=
  if g + 1 = groupsOf tlanes then w32 (2 ^ ((tlanes - 1) % 32 + 1) - 1) else 0xFFFFFFFF

/-- The groups and fragments of a kernel at its start: one fragment for each group. -/
def startGroups (tlanes win : Nat) (ways : List Nat) : List (Nat × Group) :=
  (List.range (groupsOf tlanes)).map (fun g =>
    (g, { num := g, way := nth 0 ways g, exec := startLanes tlanes g, launched := startLanes tlanes g, win := win }))
def startFrags (tlanes : Nat) (ways : List Nat) (fmts : Nat → Word) (entry : Dword) : List Frag :=
  (List.range (groupsOf tlanes)).map (fun g =>
    { id := g, way := nth 0 ways g, lanes := [(g, startLanes tlanes g)], fmt := fmts g, hm := false, pc := entry })

/-- The lowest team slot of a core that is free. -/
def State.freeSlot (s : State) (c : Nat) : Nat :=
  ((List.range 16).find? (fun n => !(s.teamsOn c).any (fun t => t.slot == n))).getD 0

/-- R214: the next placement stamp of a partition. -/
def State.takeStamp (s : State) (part : Nat) : Nat × State :=
  ((s.partd part).stamp, s.modPartd part (fun d => { d with stamp := d.stamp + 1 }))

/-- R206: a new team of a grid on a core. -/
def State.startTeam (s : State) (g : Grid) (idx core : Nat) (h : Hold) : Nat × State :=
  let r := g.rc
  let id := s.fresh
  let st := id.2.takeStamp g.part
  let t : Team :=
    { id := id.1, grid := g.id, vi := g.vi, index := idx, x := (r.coords idx 0).toNat, y := (r.coords idx 1).toNat,
      z := (r.coords idx 2).toNat, cluster := idx / r.clusterSize, rank := idx % r.clusterSize, core := core,
      slot := s.freeSlot core, stamp := st.1, since := s.clock.clk, deadline := r.deadline, lanes := r.tlanes,
      regsN := r.regs, scrSize := h.scrSize, scrBase := h.scrBase, privN := h.priv, accN := h.acc, barsN := h.bars,
      groups := startGroups r.tlanes h.win h.ways, frags := startFrags r.tlanes h.ways (fun _ => 0) r.entry,
      nextFrag := groupsOf r.tlanes }
  (id.1, (st.2.setTeam t).dropL1 core g.vi)

/-! ### Saved teams (R209, R361, R460) -/

/-- R209: the ways of a team's groups as offsets from the way of its first group; and those of the groups that have not
finished. -/
def Team.firstWay (t : Team) : Nat := match t.group? 0 with | some g => g.way | none => 0
def Team.offsets (t : Team) : List Nat := t.groups.map (fun e => (e.2.way + 8 - t.firstWay) % 8)
def Team.liveOffsets (t : Team) : List Nat :=
  (t.groups.filter (fun e => !e.2.finished)).map (fun e => (e.2.way + 8 - t.firstWay) % 8)

/-- R223: the successor that a held slot is to become. -/
def State.successor (s : State) (t : Team) (j : Nat) : Option Succ := ((s.grid? t.grid).bind (fun g => g.succs[j]?))

/-- R98, R231: the demand of a saved team: its own, or that of the successor it is to start. -/
def State.savedDemand (s : State) (t : Team) : Demand :=
  let own : Demand := { offs := t.offsets, live := t.liveOffsets, win := ceilDiv t.regsN 8, priv := t.privN, scr := t.scrSize, acc := t.accN, bars := t.barsN }
  match t.splice with
  | .growing j _ =>
    match s.successor t j with
    | some x => { x.demand with offs := t.offsets, live := t.offsets }
    | none => own
  | _ => own

/-- R227, R228: STARTED: a held slot that holds what its successor declares. -/
def Team.startSuccessor (t : Team) (x : Succ) (j : Nat) (h : Hold) : Team :=
  let ways := t.groups.map (fun e => e.2.way)
  { t with
    splice := .none, kern := some j, lanes := x.tlanes, regsN := x.regs, scrSize := h.scrSize, scrBase := h.scrBase,
    privN := h.priv, accN := h.acc, barsN := h.bars,
    groups := t.groups.map (fun e => (e.1, { e.2 with win := h.win }))
    frags := startFrags x.tlanes ways (fun g => match t.group? g with | some gr => gr.fmt | none => 0) x.entry
    nextFrag := groupsOf x.tlanes }

/-- R361: a push that was blocked waits behind the restored commands. -/
def reseq (f : Frag) (s : State) : Frag × State :=
  match f.st with
  | .qpush q l _ n =>
    let x := s.fresh
    ({ f with st := .qpush q l x.1 n }, x.2)
  | _ => (f, s)

/-- R96, R460: the bytes of a team's storage that its context image holds: the register granules that are bound, the
private and scratch granules and the accumulator rows that have been written. -/
def Team.imageBytes (t : Team) : Nat :=
  (t.groups.map (fun e => 1024 * e.2.bound.length + 256 * e.2.privW.length)).foldl (· + ·) 0
    + 4096 * t.scrW.length + 512 * t.accW.length

/-- R114, R460: a context image is written to the near tier or read back in the system class (log entry 104). -/
def State.imageAsks (s : State) (t : Team) : State := s.nearAsks 3 (ceilDiv t.imageBytes 512) 512

/-- R460: a saved team resumes on a core. -/
def State.restoreTeam (s : State) (g : Grid) (t : Team) (core : Nat) (h : Hold) : State :=
  let way (w : Nat) : Nat := (w + 8 - t.firstWay + nth 0 h.ways 0) % 8
  let slot := s.freeSlot core
  let st := s.takeStamp g.part
  let cs := t.saved.foldl (fun (acc : List (Nat × Cmd) × State) c =>
    let n := acc.2.fresh
    (acc.1 ++ [(c.1, { c.2 with id := n.1 })], n.2)) ([], st.2)
  let fs := t.frags.foldl (fun (acc : List Frag × State) f =>
    let x := reseq { f with way := way f.way, loop := none, fence := max f.fence f.loopFence } acc.2
    (acc.1 ++ [x.1], x.2)) ([], cs.2)
  let planes (k : Core) : Core := { k with planes := t.savedPlanes.foldl (fun l p => kset p.1 p.2 l) k.planes }
  let t2 : Team :=
    { t with st := .resident, core := core, slot := slot, stamp := st.1, since := s.clock.clk, haltClk := 0, scrBase := h.scrBase,
             saved := cs.1, frags := fs.1, savedPlanes := [],
             groups := t.groups.map (fun e => (e.1, { e.2 with way := way e.2.way })) }
  let t3 : Team :=
    match t.splice with
    | .growing j _ => (match s.successor t j with | some x => t2.startSuccessor x j h | none => t2)
    | _ => t2
  (((fs.2.setTeam t3).modCore core planes).dropL1 core t.vi).imageAsks t

/-! ### Heads (R211, R212, R237) -/

/-- The teams of a grid that have been placed and have not retired. -/
def State.gridTeams (s : State) (gid : Nat) : List Team := (s.teams.map (fun e => e.2)).filter (fun t => t.grid == gid)

/-- The bytes of a VI's memory, as they stand at their homes; none where a read of them would fault. -/
def State.peek (s : State) (vi addr n : Nat) : Option (List Byte) :=
  match s.translate vi (w64 addr) .load n false with
  | .error _ => none
  | .ok x => if x.packed || s.poisoned x.pa n then none else some (s.bytesAs (s.keyTag x.leaf) x.pa n)

/-- R236: the distributor reads the scoreboard at its homes, in the system class, before it takes a head (log entry 51);
the fault that a read meets, with its address. -/
def State.boardLook (s : State) (vi base : Nat) : Nat → Nat → Eng Unit × Nat × State
  | 0, a => (.ok (), a, s)
  | n + 1, a =>
    let span := burst (w64 (base + 4 * a)) (a == 0) (n / 4 + 1)
    let r := s.agentRead { vi := vi, cls := 3, span := some span, pause := a == 0 } (w64 (base + 4 * a)) 4
    match r.1 with
    | .ok _ => State.boardLook r.2 vi base n (a + 1)
    | .fault c => (.fault c, base + 4 * a, r.2)
    | .hold => (.hold, base + 4 * a, r.2)

/-- R235: the state of a team on the scoreboard. -/
def State.boardState (s : State) (g : Grid) (k : Nat) : Option Nat :=
  (s.peek g.vi (g.rc.sbase + 4 * (k / 10)) 4).map (fun b => leNat b / 8 ^ (k % 10) % 8)

/-- R236: a read of the scoreboard would fault. -/
def State.boardUnread (s : State) (g : Grid) : Bool :=
  g.rc.braid && (List.range (ceilDiv g.rc.teams 10)).any (fun a => (s.peek g.vi (g.rc.sbase + 4 * a) 4).isNone)

/-- R207: none of a grid's teams is a candidate. -/
def State.gridHeld (s : State) (g : Grid) : Bool :=
  g.latchHeld || g.ended || g.stopped ||
  (match g.waitFor with
   | some w => (match s.grid? w with | some x => !x.ended | none => false)
   | none => false)

/-- R237: the candidate of a braid that is earliest in sweep order. -/
def State.braidHead (s : State) (g : Grid) : Option Nat :=
  let saved := ((s.gridTeams g.id).filter (fun t => t.st == .saved)).map (fun t => t.index)
  let free := (List.range g.rc.teams).filter (fun k => s.boardState g k == some 0)
  (saved ++ free).foldl (fun b k =>
    match b with
    | none => some k
    | some j => if lexLt (g.rc.swept (g.rc.coords k)) (g.rc.swept (g.rc.coords j)) then some k else some j) none

/-- R212: the head of a grid: one team, or one whole cluster. -/
def State.head (s : State) (g : Grid) : List Item :=
  let ts := s.gridTeams g.id
  let k := g.rc.clusterSize
  if s.gridHeld g then []
  else
    let idx : Option Nat :=
      if g.rc.braid then s.braidHead g
      else
        leastBy id ((ts.filter (fun t => t.st == .saved)).map (fun t => t.index)
          ++ (if g.rc.graph || decide (g.rc.teams ≤ g.nextIdx) then [] else [g.nextIdx]))
    match idx with
    | none => []
    | some i =>
      if k ≤ 1 ∨ g.rc.graph then
        [{ idx := i, saved := (ts.find? (fun t => t.index == i && t.st == .saved)).map (fun t => t.id) }]
      else
        let mine := ts.filter (fun t => t.cluster == i / k)
        if mine.isEmpty then (List.range k).map (fun r => { idx := i / k * k + r, saved := none })
        else if mine.any (fun t => t.st == .saving) then []
        else (sortBy (fun t => t.rank) (mine.filter (fun t => t.st == .saved))).map (fun t => { idx := t.index, saved := some t.id })

/-- What a team of a head asks of its core. -/
def State.itemDemand (s : State) (g : Grid) (i : Item) : Demand :=
  match i.saved.bind s.team? with
  | some t => s.savedDemand t
  | none => g.rc.demand

/-- R213: the cores of a head's teams from an origin; a restored cluster asks room only for the members it still has (log
entry 120). -/
def itemCores (g : Grid) (items : List Item) (origin : Nat) : List (Item × Nat) :=
  if g.rc.clusterSize ≤ 1 ∨ g.rc.graph then items.map (fun i => (i, origin))
  else items.map (fun i => (i, nth 0 (rectCores origin g.rc.cw g.rc.ch) (i.idx % g.rc.clusterSize / g.rc.tpc)))

/-- Demands met one after another on cores that hold what `hs` says. -/
def State.fitAll (s : State) (hs : Nat → List Hold) : List (Nat × Demand) → List (Nat × Hold) → Option (List (Nat × Hold))
  | [], acc => some acc
  | (c, d) :: r, acc =>
    match fitOn (s.core c).split (hs c ++ (acc.filter (fun e => e.1 == c)).map (fun e => e.2)) d with
    | some h => State.fitAll s hs r (acc ++ [(c, h)])
    | none => none

/-- R213: what a head's teams would hold from an origin. -/
def State.headFits (s : State) (hs : Nat → List Hold) (g : Grid) (items : List Item) (origin : Nat) :
    Option (List (Nat × Hold)) :=
  s.fitAll hs ((itemCores g items origin).map (fun e => (e.2, s.itemDemand g e.1))) []

/-- R213: the origins a head may take: cores for one team, rectangles for a cluster. -/
def State.headOrigins (s : State) (g : Grid) : List Nat :=
  let geom := (s.part g.part).geom
  if g.rc.clusterSize ≤ 1 ∨ g.rc.graph then snake geom else origins geom g.rc.cw g.rc.ch

/-- R213: the teams of a grid on a head's cores. -/
def State.gridOn (s : State) (g : Grid) (origin : Nat) : Nat :=
  let cores := if g.rc.clusterSize ≤ 1 ∨ g.rc.graph then [origin] else rectCores origin g.rc.cw g.rc.ch
  ((s.gridTeams g.id).filter (fun t => t.st != .saved && cores.contains t.core)).length

/-- R215: the grids of a partition in the order their heads are taken. -/
def State.gridOrder (s : State) (part : Nat) : List Grid :=
  let gs := (s.grids.map (fun e => e.2)).filter (fun g => g.part == part)
  gs.filter (fun g => g.rc.deadline) ++ gs.filter (fun g => !g.rc.deadline)

/-! ### The scoreboard (R235, R236, R238) -/

/-- R238: a team's state changed by an indivisible update at the word's home, one request; none where the access is held.
A fault of its read, as of its write, stops the grid (log entry 101).  `pause`: it waits for a free entry. -/
def State.boardSet (s : State) (g : Grid) (k : Nat) (pause : Bool) (f : Nat → Nat) : Option State :=
  let a := g.rc.sbase + 4 * (k / 10)
  let r := s.agentRead { vi := g.vi, cls := 3, pause := pause } (w64 a) 4
  match r.1 with
  | .hold => none
  | .fault c => some (r.2.boardFault g.id c a)
  | .ok b =>
    let w := leNat b
    let m := 8 ^ (k % 10)
    let old := w / m % 8
    let x := r.2.agentWrite { vi := g.vi, cls := 3, span := some 0 } (w64 a) (leBytes 4 (w - old * m + f old % 8 * m))
    match x.1 with
    | .hold => none
    | .fault c => some (x.2.boardFault g.id c a)
    | .ok _ => some x.2

/-! ### Leaving (R220, R238, R409, R452) -/

/-- R409: the serialiser reads an accepted tile from its team's scratch. -/
def State.tileRead (s : State) (o n : Nat) : State :=
  match (s.dispd o).acc.find? (fun e => e.read == n && e.bytes.isNone) with
  | none => s
  | some e =>
    match s.team? e.team with
    | none => s
    | some t =>
      (s.modDispd o (fun d => { d with acc := d.acc.map (fun x =>
        if x.read == n then { x with bytes := some (t.scrRead e.offset 4096) } else x) })).modTeam e.team
        (fun t => { t with reads := t.reads.filter (fun r => r != (o, n)) })

/-- A team leaves its core: serialiser reads finish, its planes and commands go, a migration at work stays. -/
def State.removeTeam (s : State) (tid : Nat) : State :=
  match s.team? tid with
  | none => s
  | some t =>
    let s := t.reads.foldl (fun s r => s.tileRead r.1 r.2) s
    let keep (l : List Cmd) : List Cmd := l.filter (fun x => x.team != tid || x.mig.isSome)
    let s : State := { s with tickReq := s.tickReq.filter (fun r => r.team != tid) }
    ((s.modCore t.core (fun k =>
      { k with started := keep k.started, qmx := keep k.qmx, qcp := keep k.qcp,
               planes := k.planes.filter (fun p => p.2.owner != tid) })).delTeam tid).heads t.core

/-- R236, R220: a grid's teams are stopped and freed without saving. -/
def State.freeGrid (s : State) (gid : Nat) : State :=
  let s := (s.gridTeams gid).foldl (fun s t => s.removeTeam t.id) s
  { s with cores := s.cores.map (fun e => (e.1, { e.2 with deque := kdel gid e.2.deque, steal := kdel gid e.2.steal })) }

/-- R213, R248: a grid whose last team has retired ends. -/
def State.gridOver (s : State) (gid : Nat) : State :=
  match s.grid? gid with
  | none => s
  | some g =>
    let none' := (s.gridTeams gid).isEmpty
    let excess :=
      if g.rc.graph then none' && s.cores.all (fun e => (kget [] gid e.2.deque).isEmpty)
      else none' && decide (g.rc.teams ≤ g.retired)
    if g.stopped then (s.freeGrid gid).endGrid gid 1
    else if excess then s.endGrid gid (if g.count = 0 then 0 else 1)
    else s

/-! ### Placement (R212, R213) -/

/-- The teams of a head placed on their cores. -/
def State.placeHead (s : State) (g : Grid) (l : List ((Item × Nat) × Hold)) : Option State :=
  let r := l.foldl (fun (acc : Option State) e =>
    match acc with
    | none => none
    | some s =>
      match e.1.1.saved.bind s.team? with
      | some t => some (s.restoreTeam g t e.1.2 e.2)
      | none =>
        let x := (s.startTeam g e.1.1.idx e.1.2 e.2).2
        if g.rc.braid then x.boardSet g e.1.1.idx false (fun _ => 6) else some x) (some s)
  r.map (fun s =>
    let excess := match s.grid? g.id with | some h => h.stopped | none => false
    let s := s.modGrid g.id (fun h =>
      { h with headSince := none,
               nextIdx := l.foldl (fun n (e : (Item × Nat) × Hold) =>
                 if e.1.1.saved.isNone ∧ n ≤ e.1.1.idx then e.1.1.idx + 1 else n) h.nextIdx })
    if excess then s.gridOver g.id else s)

/-- R215: the teams being saved for a head have left. -/
def State.evictionOver (s : State) (ts : List Nat) : Bool :=
  ts.all (fun t => match s.team? t with | some u => u.st != .saving | none => true)

/-- R215: room held for a head: with the teams being saved gone, it still fits beside what is placed. -/
def State.roomKept (s : State) (part : Nat) (extra : List (Nat × Hold)) : Bool :=
  match (s.partd part).evicting with
  | none => true
  | some e =>
    match s.grid? e.grid with
    | none => true
    | some g =>
      let leaves (t : Team) : Bool := e.teams.contains t.id && t.st == .saving
      let hs (c : Nat) : List Hold :=
        ((s.teamsOn c).filter (fun t => !leaves t)).map Team.hold ++ (extra.filter (fun e => e.1 == c)).map (fun e => e.2)
      (s.headFits hs g e.items e.origin).isSome

/-- R215: what a core holds for any head but the one that an eviction makes room for: its teams, and the room freed for
that head on the chosen candidate. -/
def State.heldRoom (s : State) (part c : Nat) : List Hold :=
  s.holds c ++
  (match (s.partd part).evicting with
   | some e => (e.room.filter (fun r => r.2.1 == c && !(s.teamsOn c).any (fun t => t.id == r.1 && t.st == .saving))).map
       (fun r => r.2.2)
   | none => [])

/-- R215: an eviction makes room for this head. -/
def State.roomFor (s : State) (g : Grid) (items : List Item) : Bool :=
  match (s.partd g.part).evicting with
  | some e => e.grid == g.id && e.items == items
  | none => false

/-- R215: the head of a grid waits: since now, where it has not been the head before. -/
def Grid.headWaits (g : Grid) (clk : Nat) (items : List Item) : Grid :=
  let i := match items with | x :: _ => x.idx | [] => 0
  { g with refill := true,
           headSince := some (match g.headSince with | some (j, c) => if j = i then (j, c) else (i, clk) | none => (i, clk)) }

/-- R236, R237: what the distributor does before it takes the head of a braid: none where it is held. -/
def State.headLook (s : State) (g : Grid) : Option State :=
  if !g.rc.braid || s.gridHeld g then some s
  else
    let r := s.boardLook g.vi g.rc.sbase (ceilDiv g.rc.teams 10) 0
    match r.1 with
    | .ok _ => some r.2.2
    | .fault c => some ((r.2.2.boardFault g.id c r.2.1).gridOver g.id)
    | .hold => none

/-- R213: where a head goes, with what it will hold. -/
def State.headPlace (s : State) (g : Grid) (items : List Item) : Option (Nat × List (Nat × Hold)) :=
  let ok := (s.headOrigins g).filterMap (fun o =>
    match s.headFits (s.heldRoom g.part) g items o with
    | some l => if s.roomKept g.part l then some (o, l) else none
    | none => none)
  leastBy (fun e => if g.refill then e.1 else s.gridOn g e.1) ok

/-- R212: TEAM_PLACE: the first head that fits is placed; those before it that fit nowhere are noted.  A head for which
an eviction makes room waits for that room (R215). -/
def State.placeGrids (s : State) : List Nat → State
  | [] => s
  | gid :: r =>
    match s.grid? gid with
    | none => State.placeGrids s r
    | some g =>
      let items := s.head g
      if !s.gridHeld g && s.boardUnread g then State.placeGrids ((s.headLook g).getD s) r
      else if items.isEmpty || s.roomFor g items then State.placeGrids s r
      else
        match s.headPlace g items with
        | some (o, l) =>
          match (s.headLook g).bind (fun s => s.placeHead g ((itemCores g items o).zip (l.map (fun e => e.2)))) with
          | some s => s
          | none => State.placeGrids s r
        | none => State.placeGrids (s.modGrid gid (fun g => g.headWaits s.clock.clk items)) r

/-- R212, R215: TEAM_PLACE for a partition: the head that an eviction has made room for before any other; where it can be
placed there no more, the room is free again. -/
def State.teamPlace (s : State) (part : Nat) : State :=
  let order := (s.gridOrder part).map (fun g => g.id)
  let ended (s : State) : State := s.modPartd part (fun d => { d with evicting := none })
  match (s.partd part).evicting with
  | some e =>
    if s.evictionOver e.teams then
      match (s.grid? e.grid).bind (fun g =>
        (if s.gridHeld g then none else s.headFits s.holds g e.items e.origin).map (fun l => (g, l))) with
      | some (g, l) =>
        match (s.headLook g).bind (fun s => s.placeHead g ((itemCores g e.items e.origin).zip (l.map (fun e => e.2)))) with
        | some s => ended s
        | none => s.placeGrids order
      | none => (ended s).placeGrids order
    else s.placeGrids order
  | none => s.placeGrids order

/-! ### Eviction (R215) -/

/-- R215: a unit of eviction: teams, and the lowest of their stamps. -/
abbrev EvictUnit := List Nat × Nat

/-- R215: the unit of a team. -/
def State.unitOf (s : State) (t : Team) : List Team :=
  match s.grid? t.grid with
  | some g =>
    if g.rc.clusterSize ≤ 1 ∨ g.rc.graph then [t]
    else (s.gridTeams g.id).filter (fun u => u.cluster == t.cluster)
  | none => [t]

/-- R215, R461: the evictable units of a partition; `q` is the residence they need, the clk for which the core was
halted not counted.  An uncorrectable error in a team's
execution state is taken before its pre-emption (R450). -/
def State.evictable (s : State) (part q : Nat) : List EvictUnit :=
  let ts := (s.teams.map (fun e => e.2)).filter (fun t => s.partOf t.vi == part && t.st != .saved)
  let ok (t : Team) : Bool :=
    t.st == .resident && !t.dead && !t.lost && !t.deadline && decide (t.since + t.haltClk + q ≤ s.clock.clk) && !(s.core t.core).dbg.halt
  let units := ts.filterMap (fun t =>
    let u := s.unitOf t
    if u.all ok then some (sortBy id (u.map (fun t => t.id)), u.foldl (fun m x => min m x.stamp) t.stamp) else none)
  sortBy (fun u => u.2) (units.foldl (fun l u => if l.contains u then l else l ++ [u]) [])

/-- R215: the least prefix of units after which a head fits from an origin. -/
def State.evictPrefix (s : State) (g : Grid) (items : List Item) (origin : Nat) : List EvictUnit → List EvictUnit → Option (List EvictUnit)
  | [], _ => none
  | u :: r, gone =>
    let gone := gone ++ [u]
    let out := gone.flatMap (fun u => u.1)
    let hs (c : Nat) : List Hold := ((s.teamsOn c).filter (fun t => !out.contains t.id)).map Team.hold
    if (s.headFits hs g items origin).isSome then some gone else State.evictPrefix s g items origin r gone

/-- R215: the candidate chosen for a head: its origin and the prefix to evict. -/
def State.evictPlan (s : State) (g : Grid) (items : List Item) : Option (Nat × List EvictUnit) :=
  let q := if g.rc.deadline then 0 else fld (s.part g.part).quantum 0 32
  let units := s.evictable g.part q
  let cands := (s.headOrigins g).filterMap (fun o =>
    let cores := (itemCores g items o).map (fun e => e.2)
    let here := units.filter (fun u => u.1.any (fun t => match s.team? t with | some t => cores.contains t.core | none => false))
    (s.evictPrefix g items o here []).map (fun p => (o, p)))
  let first (p : List EvictUnit) : Nat := match p with | u :: _ => u.2 | [] => 0
  leastBy (fun e => first e.2 * 256 + e.1) cands

/-- R215: EVICTION: the first head that has waited long enough and for which a candidate qualifies. -/
def State.eviction (s : State) (part : Nat) : State :=
  if (s.partd part).evicting.isSome then s
  else
    let plans := (s.gridOrder part).filterMap (fun g =>
      let items := s.head g
      let waited := match g.headSince, items with
        | some (i, c), x :: _ => i == x.idx && (g.rc.deadline || decide (c + fld (s.part part).quantum 0 32 ≤ s.clock.clk))
        | _, _ => false
      if items.isEmpty || !waited || (s.headPlace g items).isSome then none
      else (s.evictPlan g items).map (fun p => (g, p)))
    match plans with
    | [] => s
    | (g, o, us) :: _ =>
      let ts := us.flatMap (fun u => u.1)
      let cores := (itemCores g (s.head g) o).map (fun e => e.2)
      let room := (ts.filterMap s.team?).filterMap (fun t => if cores.contains t.core then some (t.id, t.core, t.hold) else none)
      let e : Evicting := { grid := g.id, items := s.head g, teams := ts, origin := o, room := room }
      (ts.foldl (fun s t => s.modTeam t (fun t => { t with st := .saving })) s).modPartd part (fun d =>
        { d with evict := (d.evict + 1) % 2 ^ 32, evicting := some e })

/-! ### Saves (R361, R389, R395, R409, R459, R460) -/

/-- R174, R459: what a save still waits for: commands at work, deliveries reserved, requests, serialiser reads, tickets
that are not performed, a splice that drains. -/
def State.saveReady (s : State) (t : Team) : Bool :=
  let k := s.core t.core
  let atWork := k.started.any (fun c => c.team == t.id &&
    !(c.instr.isNone && !c.fin && (c.kind == 1 || c.kind == 2 || c.kind == 3 || c.kind == 4)))
  !atWork && t.reqs.isEmpty && t.reqDone.isEmpty && t.reads.isEmpty && t.subs.all (fun e => e.2.reserved == 0)
  && !s.tickReq.any (fun r => r.team == t.id) && (match t.splice with | .draining _ _ => false | _ => true)

/-- R231, R414, R459: a fragment as it is saved: `RAYQ` and `SPLICE` are executed again. -/
def Frag.savedAs (f : Frag) : Frag :=
  match f.st with
  | .rayq _ _ _ => { f with st := .ready }
  | .splice _ _ => { f with st := .ready }
  | _ => f

/-- R461: HALTED of a core that has been halted, once no save is in progress there. -/
def State.haltedNow (s : State) (c : Nat) : State :=
  if (s.core c).dbg.halt && !s.teams.any (fun e => e.2.core == c && e.2.beingSaved) then
    s.modCore c (fun k => { k with dbg := { k.dbg with halted := true } })
  else s

/-- R450, R459: PREEMPT_SAVE_COMPLETE; a team whose execution state is lost ends instead. -/
def State.saveTeam (s : State) (tid : Nat) : State :=
  match s.team? tid with
  | none => s
  | some t =>
    if t.st != .saving || t.dead then s
    else if t.lost then s.endTeam tid .uncorrectable (match t.frags with | f :: _ => f.pc | [] => 0)
    else if !s.saveReady t then s
    else
      let c := t.core
      let k := s.core c
      let mine (q : Nat) (l : List Cmd) : List (Nat × Cmd) := (l.filter (fun x => x.team == tid)).map (fun x => (q, x))
      let t := { t with
        st := .saved
        resid := t.resid + (s.clock.clk - t.since)
        saved := mine 1 k.started ++ mine 0 k.qmx ++ mine 1 k.qcp ++ t.saved
        savedPlanes := k.planes.filter (fun p => p.2.owner == tid)
        splice := (match t.splice with | .gathering => .none | x => x)
        groups := t.groups.map (fun e => (e.1, e.2.commitPend s.free))
        frags := t.frags.map Frag.savedAs }
      let keep (l : List Cmd) : List Cmd := l.filter (fun x => x.team != tid)
      (((s.setTeam t).drainVi c t.vi).imageAsks t).modCore c (fun k =>
        { k with started := keep k.started, qmx := keep k.qmx, qcp := keep k.qcp,
                 planes := k.planes.filter (fun p => p.2.owner != tid) }) |>.heads c |>.haltedNow c

/-! ### Retirement (R238, R452) -/

/-- R238, R452: nothing of a team is left to do: every group has finished or a fault has ended it, and its
commands, requests, deliveries and reads are over. -/
def State.retireReady (s : State) (t : Team) : Bool :=
  let k := s.core t.core
  let mine (l : List Cmd) : Bool := l.any (fun c => c.team == t.id)
  (t.dead || (t.groups.all (fun e => e.2.finished) && (t.splice == .none || t.splice == .gathering))) && t.st != .saved
  && !mine k.started && !mine k.qmx && !mine k.qcp && t.saved.isEmpty && t.reqs.isEmpty && t.reqDone.isEmpty
  && t.reads.isEmpty && t.subs.all (fun e => e.2.reserved == 0) && !s.tickReq.any (fun r => r.team == t.id)

/-- R238: what the retirement of a team does to the scoreboard: each dependent loses one, then the team is
retired. -/
def Grid.boardTurns (g : Grid) (idx : Nat) : List (Nat × Option Nat) :=
  (List.range g.rc.nvec).filterMap (fun j =>
    (g.rc.teamAt (fun a => g.rc.coords idx a - g.rc.vec j a)).map (fun k => (k, none)))
  ++ [(idx, some 7)]

/-- R238: the updates in order; none where an access is held; the first waits for a free entry (log entry 25). -/
def State.boardSteps (s : State) (gid : Nat) (pause : Bool) : List (Nat × Option Nat) → Option State
  | [] => some s
  | e :: r =>
    match s.grid? gid with
    | none => some s
    | some g =>
      if g.stopped then some s
      else
        match s.boardSet g e.1 pause (fun x => e.2.getD (x - 1)) with
        | none => none
        | some s => State.boardSteps s gid false r

/-- R238: TEAM_RETIRE: the release, the updates of the scoreboard, the end of the team and of its grid. -/
def State.teamRetire (s : State) (tid : Nat) : State :=
  match s.team? tid with
  | none => s
  | some t =>
    match s.grid? t.grid with
    | none => s.removeTeam tid
    | some g =>
      if !s.retireReady t then s
      else
        let s0 := s.drainVi t.core t.vi
        match s0.boardSteps g.id true (if g.rc.braid then g.boardTurns t.index else []) with
        | none => s
        | some x =>
          ((x.removeTeam tid).modGrid g.id (fun h => { h with retired := h.retired + 1 })).gridOver g.id

/-! ### Work graphs (R244 to R246) -/

/-- R244: the arena share of a core. -/
def State.arenaShare (s : State) (g : Grid) : Nat := g.rc.arenaSz / (4096 * max 1 (s.partCores g.part).length) * 4096

/-- The bytes of the records of a deque. -/
def dequeBytes (l : List (Nat × Nat × List Byte)) : Nat := (l.map (fun r => r.2.2.length)).sum

/-- R245: a record of `n` bytes finds the core's deque and the grid's arena share full. -/
def State.dequeFull (s : State) (core : Nat) (g : Grid) (n : Nat) : Bool :=
  let k := s.core core
  let excess (gid used : Nat) : Nat :=
    match s.grid? gid with
    | some h => used - s.arenaShare h
    | none => used
  let mine := kget [] g.id k.deque
  let others := ((k.deque.filter (fun e => e.1 != g.id)).map (fun e => excess e.1 (dequeBytes e.2))).sum
  decide (32768 < others + excess g.id (dequeBytes mine + n))

/-- R244: a graph team fits on a core now. -/
def State.graphFits (s : State) (core : Nat) (g : Grid) : Option Hold :=
  match fitOn (s.core core).split (s.heldRoom g.part core) g.rc.demand with
  | some h => if s.roomKept g.part [(core, h)] then some h else none
  | none => none

/-- R244: GRAPH_TEAM_START: the record at the head of a deque becomes a team. -/
def State.graphStart (s : State) (core gid : Nat) : State :=
  match s.grid? gid with
  | none => s
  | some g =>
    match kget [] gid (s.core core).deque with
    | [] => s
    | (node, depth, bytes) :: rest =>
      if s.gridHeld g || !(s.partCores g.part).contains core then s
      else
        match s.graphFits core g, g.nodes[node]? with
        | some h, some n =>
          let idx := g.nextIdx
          let x := (s.modCore core (fun k => { k with deque := kset gid rest k.deque })).startTeam g idx core h
          (x.2.modTeam x.1 (fun t =>
            { (t.scrWrite 0 bytes) with x := 0, y := 0, z := 0, cluster := idx, rank := 0, node := node, depth := depth,
                                        frags := t.frags.map (fun f => { f with pc := n.entry }) })).modGrid gid
            (fun g => { g with nextIdx := g.nextIdx + 1 })
        | _, _ => s

/-- R166, R246: STEAL_ATTEMPT: a core with an empty deque tries its next victim; what the groups of the victim's core
stored before they emitted the record is performed before the record moves. -/
def State.stealAttempt (s : State) (core gid : Nat) : State :=
  match s.grid? gid with
  | none => s
  | some g =>
    let cores := s.partCores g.part
    let n := cores.length
    match findIdx (fun c => c == core) cores 0 with
    | none => s
    | some (self, _) =>
      let a := kget (0, 0) gid (s.core core).steal
      if !g.rc.graph || s.gridHeld g || !(kget [] gid (s.core core).deque).isEmpty || (s.graphFits core g).isNone
          || decide (s.clock.clk < a.2) || n ≤ 1 then s
      else
        let victim := nth 0 cores ((self + 1 + a.1 * g.step) % n)
        let l := kget [] gid (s.core victim).deque
        match l.getLast? with
        | none => s.modCore core (fun k => { k with steal := kset gid (a.1 + 1, s.clock.clk + 64) k.steal })
        | some r =>
          ((s.drainVi victim g.vi).modCore victim (fun k => { k with deque := kset gid l.dropLast k.deque })).modCore core
            (fun k => { k with deque := kset gid (kget [] gid k.deque ++ [r]) k.deque,
                               steal := kset gid (0, s.clock.clk + 64) k.steal })

/-! ### The rows -/

/-- TEAM_PLACE (R212). -/
def execTeamPlace (part : Nat) (s : State) : Host.Outcome State Fault Refusal :=
  event s (fun s => s.teamPlace part)

/-- EVICTION (R215). -/
def execEviction (part : Nat) (s : State) : Host.Outcome State Fault Refusal :=
  event s (fun s => s.eviction part)

/-- PREEMPT_SAVE_COMPLETE (R459). -/
def execPreemptSaveComplete (team : Nat) (s : State) : Host.Outcome State Fault Refusal :=
  event s (fun s => s.saveTeam team)

/-- TEAM_RETIRE (R238). -/
def execTeamRetire (team : Nat) (s : State) : Host.Outcome State Fault Refusal :=
  event s (fun s => s.teamRetire team)

/-- GRAPH_TEAM_START (R244). -/
def execGraphTeamStart (core grid : Nat) (s : State) : Host.Outcome State Fault Refusal :=
  event s (fun s => s.graphStart core grid)

/-- STEAL_ATTEMPT (R246). -/
def execStealAttempt (core grid : Nat) (s : State) : Host.Outcome State Fault Refusal :=
  event s (fun s => s.stealAttempt core grid)

end Sys2Proof.Machine
end

