-- ==== Sys2Proof/Machine/System.lean ====
section
/-! DEFINITION. Work-graph emission, device-side launches, software traps and breakpoints, `ICINV`, the
counters, and the special registers with the return from handler mode (R200, R245, R268, R269, R418 to R426,
R455 to R457). -/

namespace Sys2Proof.Machine

/-! ### EMIT and EMITQ (R245, R418) -/

/-- R245: the depth of a record for a node. -/
def Team.recordDepth (t : Team) (m : Nat) : Nat := if m = t.node then t.depth + 1 else 0

/-- R245: a record pushed at the head of the emitting core's deque; what overflows stays state of the core, and the bytes
of the arena stay as they are (log entry 49). -/
def State.pushRecord (s : State) (core gid node depth : Nat) (bytes : List Byte) : State :=
  s.modCore core (fun k => { k with deque := kset gid ((node, depth, bytes) :: kget [] gid k.deque) k.deque })

/-- R245, R418: the checks of an emission for a group, in order, and the push. -/
def Ctx.emitGroup (c : Ctx) (gc : GCtx) (t : Team) (s : State) : Except Trap State :=
  let d : Word := (c.groupA gc 1).setWidth 32
  let off := fld d 0 20
  let len := fld d 20 5
  let m := fld d 25 6
  let depth := t.recordDepth m
  if off % 16 ≠ 0 then .error (scratchTrap gc .misaligned off)
  else if t.scrSize < off + 16 * len then .error (scratchTrap gc .scratchRange off)
  else
    match s.grid? t.grid with
    | none => .error { cause := .nodeInvalid }
    | some g =>
      if !g.rc.graph then .error { cause := .nodeInvalid }
      else
        match g.nodes[t.node]?, g.nodes[m]? with
        | some cur, some n =>
          if !bit cur.succmask m then .error { cause := .nodeInvalid }
          else if len ≠ n.rsz then .error { cause := .recordSize }
          else if n.maxdepth < depth then .error { cause := .recursionLimit }
          else if s.dequeFull t.core g (16 * len) then .error { cause := .launchQuota }
          else if t.scrPoisoned off (16 * len) then .error (scratchTrap gc .poisonRead off)
          else .ok (s.pushRecord t.core g.id m depth (t.scrRead off (16 * len)))
        | _, _ => .error { cause := .nodeInvalid }

/-- R418: `EMIT`. -/
def Ctx.emitBody (c : Ctx) (s : State) : State :=
  c.perGroup (fun gc t s =>
    match c.emitGroup gc t s with
    | .ok s => (.ok () c.next, s)
    | .error x => (.trap x, s)) s

/-- R196, R418: the predicate of `EMITQ`, long-class. -/
def State.emitqResult (s : State) (c : Ctx) (gc : GCtx) (v : Bool) : State :=
  s.modGroup c.team.id gc.g.num (fun g =>
    { g with pend := g.pend ++ [{ preds := (lanesOf gc.act).map (fun l => (32 * fld c.o.d 0 3 + l, v)) }] })

/-- R418: `EMITQ`. -/
def Ctx.emitqBody (c : Ctx) (s : State) : State :=
  c.perGroup (fun gc t s =>
    match c.emitGroup gc t s with
    | .ok s => (.ok () c.next, s.emitqResult c gc true)
    | .error x =>
      if x.cause = .recursionLimit ∨ x.cause = .launchQuota then (.ok () c.next, s.emitqResult c gc false)
      else (.trap x, s)) s

/-! ### LAUNCH (R419) -/

/-- R419: the eight reads of a launch record. -/
def launchReads (gc : GCtx) (a : Dword) : List (Nat × Dword) :=
  (List.range 8).map (fun i => (lowBit 0 gc.act, a + w64 (16 * i)))

/-- R419: the bytes of a launch record, or the trap of poison. -/
def Ctx.launchBytes (c : Ctx) (gc : GCtx) (l : List (Nat × Dword × Tgt)) (s : State) :
    Except Trap (List Byte) × State :=
  l.foldl (fun acc e =>
    match acc.1 with
    | .error t => (.error t, acc.2)
    | .ok bs =>
      let r := c.loadOne gc false 16 e.1 e.2.1 e.2.2 acc.2
      match r.1 with
      | some b => (.ok (bs ++ b), r.2)
      | none => (.error { cause := .poisonRead, addr := some e.2.1, mask0 := laneBit e.1 }, r.2)) (.ok [], s)

/-- R419: a record that has been read is accepted, refused, or held. -/
def Ctx.launchAccept (c : Ctx) (t : Team) (b : List Byte) (s0 s : State) : GRes Unit × State :=
  if 64 ≤ s.pendingGrids t.vi then (.trap { cause := .launchQuota }, s)
  else
    let a := s.accept t.vi b
    match a.1 with
    | .hold => (.hold, s0)
    | .refuse _ => (.trap { cause := .launchInvalid }, a.2)
    | .ok g =>
      let s := a.2
      (.ok () c.next, if (match s.grid? g.id with | some g => g.stopped | none => false) then s.endGrid g.id 1 else s)

/-- R419: `LAUNCH`: a release, the reads, the checks and the acceptance. -/
def Ctx.launchBody (c : Ctx) (s : State) : State :=
  c.perGroup (fun gc t s =>
    let a := c.groupA gc 2
    let w := fld a 56 8
    let m : Word := laneBit (lowBit 0 gc.act)
    if w ≠ 0 ∧ w ≠ 0xF0 then (.trap { cause := .spaceInvalid, addr := some a, mask0 := m }, s)
    else if fld a 0 4 ≠ 0 then (.trap { cause := .misaligned, addr := some a, mask0 := m }, s)
    else
      let r := c.locateAll gc .load 16 (launchReads gc a) s
      match r.1 with
      | .hold => (.hold, s)
      | .trap x => (.trap x, r.2)
      | .ok l _ =>
        let b := c.launchBytes gc l (r.2.drainVi t.core t.vi)
        match b.1 with
        | .error x => (.trap x, b.2)
        | .ok bs => c.launchAccept t bs s b.2) (s.drainVi c.core c.team.vi)

/-! ### TRAP, BKPT and ICINV (R421, R422) -/

/-- R421: a group stops with code n and its active mask. -/
def Ctx.stopBody (c : Ctx) (cause : Cause) (s : State) : State :=
  c.perGroup (fun gc _ s => (.trap { cause := cause, detail := c.o.d.toNat, mask0 := gc.act }, s)) s

/-- R200, R422: `ICINV`, once for the issuing fragment. -/
def Ctx.icinvBody (c : Ctx) (s : State) : State :=
  let s := c.runGroups (fun _ s => c.okNext () s) (fun _ s => s) (s.drainVi c.core c.team.vi)
  s.icinv c.team.vi (s.partOf c.team.vi) c.team.id c.frag.id

/-! ### TIME and PERF (R423) -/

/-- R423: `TIME`. -/
def Ctx.timeBody (c : Ctx) (s : State) : State :=
  let v := w64 s.clock.ns
  c.perLane 2 (fun _ _ => v) s

/-- R423: counter 1: the clk for which a team has been resident. -/
def Team.residence (t : Team) (clk : Nat) : Nat := t.resid + (clk - t.since)

/-- R423: `PERF`. -/
def Ctx.perfBody (c : Ctx) (s : State) : State :=
  let n := fld c.o.a 0 4
  let res := w64 (c.team.residence s.clock.clk)
  c.perLane 2 (fun gc _ => if n = 1 then res else zget n gc.g.perf) s

/-! ### RDSR (R268, R424, R455) -/

/-- R268, R455: what a special register reads as. -/
def State.srRead (s : State) (t : Team) (f : Frag) (g : Group) (lane n : Nat) : Dword :=
  let rc : Rec := match s.grid? t.grid with | some g => g.rc | none => {}
  let w (x : Word) : Dword := x.setWidth 64
  match n with
  | 0x00 => w64 lane
  | 0x01 => w64 g.num
  | 0x02 => w64 (groupsOf t.lanes)
  | 0x03 => w64 g.way
  | 0x04 => w64 t.x
  | 0x05 => w64 t.y
  | 0x06 => w64 t.z
  | 0x07 => w64 t.rank
  | 0x08 => w64 t.core
  | 0x09 => w64 t.vi
  | 0x0A => rc.args
  | 0x0B => w64 t.node
  | 0x0C => w64 t.depth
  | 0x0D => if rc.latch then w64 rc.latchView else 0
  | 0x0E => if rc.latch then w64 rc.latchStrip else 0
  | 0x0F => w t.tagwin
  | 0x10 => w64 s.clock.clk
  | 0x11 => w64 rc.launchid
  | 0x12 => w64 (s.core t.core).cad
  | 0x13 => w f.fmt
  | 0x20 => w g.tr.tcause
  | 0x21 => g.tr.taddr
  | 0x22 => g.tr.tinst
  | 0x23 => g.tr.tresume
  | 0x24 => w g.tr.tmask0
  | 0x25 => w g.tr.tmask1
  | 0x26 => w g.tr.tmask2
  | 0x27 => w g.tr.tword
  | 0x28 => w g.tr.texec
  | 0x29 => w g.tr.tfmt
  | 0x2B => g.tr.tsave0
  | 0x2C => g.tr.tsave1
  | 0x2D => g.tr.tsave2
  | 0x2E => g.tr.tsave3
  | 0x2F => w g.tr.tnotice
  | _ => 0

/-- R424: `RDSR`. -/
def Ctx.rdsrBody (c : Ctx) (s : State) : State :=
  let n := c.o.a.toNat
  c.perLane (if sr64 n then 2 else 1) (fun gc l => s.srRead c.team c.frag gc.g l n) s

/-! ### WRSR (R79, R283, R425, R455, R457) -/

/-- R79: a tag window that does not fit in a team's block. -/
def tagwinBad (t : Team) (v : Word) : Bool :=
  bit v 0 && (decide (12 < fld v 1 4) || decide (t.scrSize < 8 * fld v 16 16 + 8 * (2 ^ fld v 1 4 * (fld v 5 4 + 1))))

/-- R425: why a write of a special register is refused. -/
def srRefuses (t : Team) (n : Nat) (v : Dword) : Option Cause :=
  let w : Word := v.setWidth 32
  match n with
  | 0x13 => if fmtReserved w then some .fmtInvalid else none
  | 0x29 => if fmtReserved w then some .fmtInvalid else none
  | 0x0F => if fld w 9 7 ≠ 0 then some .reservedField else if tagwinBad t w then some .tagRange else none
  | 0x2A => if 2 < w.toNat then some .reservedField else none
  | 0x2F => if fld w 1 31 ≠ 0 then some .reservedField else none
  | _ => none

/-- R455: a writable trap register written. -/
def TrapRegs.write (r : TrapRegs) (n : Nat) (v : Dword) : TrapRegs :=
  let w : Word := v.setWidth 32
  match n with
  | 0x23 => { r with tresume := v }
  | 0x28 => { r with texec := w }
  | 0x29 => { r with tfmt := w }
  | 0x2B => { r with tsave0 := v }
  | 0x2C => { r with tsave1 := v }
  | 0x2D => { r with tsave2 := v }
  | 0x2E => { r with tsave3 := v }
  | 0x2F => { r with tnotice := w }
  | _ => r

/-- R455: the cause in `sr.tcause`. -/
def TrapRegs.cause (r : TrapRegs) : Cause := Cause.ofCode (fld r.tcause 0 6)

/-- R457: the debug register that stopped the group, as `Group.skip` names it. -/
def TrapRegs.hwReg (r : TrapRegs) : Option Nat :=
  if bit r.tcause 7 then
    (if r.cause = .breakpoint then some (fld r.tcause 8 8 % 4)
     else if r.cause = .watchpoint then some (4 + fld r.tcause 8 8 % 4) else none)
  else none

/-- R457: RESUME leaves handler mode: the carried lanes take their `exec` bits from `sr.texec`. -/
def Group.leaveHandler (g : Group) (carried : Word) : Group :=
  let l := carried &&& g.alive
  { g with hm := false, exec := (g.exec &&& ~~~l) ||| (g.tr.texec &&& l) }

/-- R457: RESUME for a group of a fragment: it leaves handler mode, and then its resume address is checked as
a direct target.  The word of an instruction that cannot be fetched is open. -/
def State.resume (s : State) (tid : Nat) (f : Frag) (fr g : Nat) (peers : List Nat := []) : State × Next :=
  match (s.team? tid).bind (fun t => (t.group? g).map (fun x => (t, x))) with
  | none => (s, { pc := f.pc, fmt := f.fmt, hm := f.hm })
  | some (t, x) =>
    let carried := glanes f.lanes g
    let pc := x.tr.tresume
    let n : Next := { pc := pc, fmt := x.tr.tfmt, hm := false }
    let s := (s.modGroup tid g (fun x => x.leaveHandler carried)).modTeam tid (fun t => t.setMode (f.id :: peers) g false)
    let k := s.targetCheck t.vi t.core false false false pc
    match k.1 with
    | none => (k.2, n)
    | some b =>
      let r := k.2.takeTrap tid { f with hm := false, fmt := x.tr.tfmt, pc := pc }
        ((Config.freeWord fr (2 ^ 24 + g)).setWidth 32) fr g (b.trap pc carried) pc peers
      (r.1, { r.2 with pc := if r.2.st = .ready then r.2.pc else pc })

/-- R457: END, where a resumption may not follow: WATCHDOG and R464's UNCORRECTABLE. -/
def TrapRegs.mustEnd (r : TrapRegs) (lost : Bool) : Bool := r.cause == .watchdog || (r.cause == .uncorrectable && lost)

/-- R457: `WRSR sr.tret` for a group: RESUME, END or HALT. -/
def Ctx.tret (c : Ctx) (v : Nat) (gc : GCtx) (s : State) : State × Next :=
  let tid := c.team.id
  let n := c.next
  let r := gc.g.tr
  if v = 2 then
    ((s.modGroup tid gc.g.num (fun g => { g.complete with stop := some .tret })).haltCore c.core c.team.slot gc.g.num r.cause.code,
     { n with st := .stopped })
  else if v = 1 ∨ r.mustEnd c.team.lost then (s.endTeam tid r.cause r.taddr, { n with st := .stopped })
  else
    let x := s.resume tid c.frag c.free gc.g.num
    -- the `WRSR` itself is still to complete
    (x.1.modGroup tid gc.g.num (fun g => { g with skip := r.hwReg.map (fun k => 8 + k) }), x.2)

/-- R48, R457: the RESUME of a group whose resume address lies in a page that migrates waits. -/
def State.resumeHeld (s : State) (t : Team) (r : TrapRegs) : Bool :=
  !r.mustEnd t.lost && s.targetHeld t.vi false false r.tresume

/-- R425: the value of a `WRSR`: from the active lane with the lowest team lane number. -/
def Ctx.srValue (c : Ctx) : Option Dword :=
  (c.groups.find? (fun gc => gc.act != 0)).map (fun gc => c.groupA gc (if sr64 c.o.d.toNat then 2 else 1))

/-- R57, R425: a refused write stops a group; a memory cause names the lane whose value was read, in its group. -/
def Ctx.srTrap (c : Ctx) (gc : GCtx) (e : Cause) : Trap :=
  { cause := e
    mask0 := if e = .tagRange then maskOf (fun l => c.firstLane.any (fun x => x.1.g.num == gc.g.num && x.2 == l)) else 0 }

/-- R425: `WRSR`: nothing is written, where a check or poison (R100) refuses it, or the register in each scope it has:
`fmt` of the fragment, `sr.tagwin` of the team, a trap register of each group with an active lane. -/
def Ctx.wrsrBody (c : Ctx) (s : State) : State :=
  let n := c.o.d.toNat
  match c.srValue with
  | none => c.nopBody s
  | some v =>
    match srRefuses c.team n v with
    | some e =>
      c.runGroups (fun gc s => (if gc.act = 0 then .ok () c.next else .trap (c.srTrap gc e), s)) (fun _ s => s) s
    | none =>
      if c.groups.any c.poisonedOperand then c.nopBody s
      else
        c.runGroups (fun gc s =>
          match n with
          | 0x13 => (.ok () { c.next with fmt := v.setWidth 32 }, s)
          | 0x0F => (.ok () c.next, s.modTeam c.team.id (fun t => { t with tagwin := v.setWidth 32 }))
          | 0x2A =>
            if gc.act = 0 then (.ok () c.next, s)
            else if v ≠ 2 ∧ v ≠ 1 ∧ s.resumeHeld c.team gc.g.tr then (.hold, s)
            else
              let r := c.tret v.toNat gc s
              (.ok () r.2, r.1)
          | _ =>
            if gc.act = 0 then (.ok () c.next, s)
            else (.ok () c.next, s.modGroup c.team.id gc.g.num (fun g => { g with tr := g.tr.write n v })))
          (fun _ s => s) s

/-! ### The rows -/

/-- EMIT_SHORT (R418). -/
def execEmitShort (o : SOps) (s : State) : Host.Outcome State Fault Refusal :=
  issue (.emitShort o) s (fun c => c.emitBody)

/-- EMIT (R418). -/
def execEmit (o : XOps) (s : State) : Host.Outcome State Fault Refusal :=
  issue (.emit o) s (fun c => c.emitBody)

/-- EMITQ_SHORT (R418). -/
def execEmitqShort (o : SOps) (s : State) : Host.Outcome State Fault Refusal :=
  issue (.emitqShort o) s (fun c => c.emitqBody)

/-- EMITQ (R418). -/
def execEmitq (o : XOps) (s : State) : Host.Outcome State Fault Refusal :=
  issue (.emitq o) s (fun c => c.emitqBody)

/-- LAUNCH_SHORT (R419). -/
def execLaunchShort (o : SOps) (s : State) : Host.Outcome State Fault Refusal :=
  issue (.launchShort o) s (fun c => c.launchBody)

/-- LAUNCH (R419). -/
def execLaunch (o : XOps) (s : State) : Host.Outcome State Fault Refusal :=
  issue (.launch o) s (fun c => c.launchBody)

/-- TRAP_SHORT (R421). -/
def execTrapShort (o : SOps) (s : State) : Host.Outcome State Fault Refusal :=
  issue (.trapShort o) s (fun c => c.stopBody .softwareTrap)

/-- TRAP (R421). -/
def execTrap (o : XOps) (s : State) : Host.Outcome State Fault Refusal :=
  issue (.trap o) s (fun c => c.stopBody .softwareTrap)

/-- BKPT_SHORT (R421). -/
def execBkptShort (o : SOps) (s : State) : Host.Outcome State Fault Refusal :=
  issue (.bkptShort o) s (fun c => c.stopBody .breakpoint)

/-- BKPT (R421). -/
def execBkpt (o : XOps) (s : State) : Host.Outcome State Fault Refusal :=
  issue (.bkpt o) s (fun c => c.stopBody .breakpoint)

/-- ICINV_SHORT (R422). -/
def execIcinvShort (o : SOps) (s : State) : Host.Outcome State Fault Refusal :=
  issue (.icinvShort o) s (fun c => c.icinvBody)

/-- ICINV (R422). -/
def execIcinv (o : XOps) (s : State) : Host.Outcome State Fault Refusal :=
  issue (.icinv o) s (fun c => c.icinvBody)

/-- TIME_SHORT (R423). -/
def execTimeShort (o : SOps) (s : State) : Host.Outcome State Fault Refusal :=
  issue (.timeShort o) s (fun c => c.timeBody)

/-- TIME (R423). -/
def execTime (o : XOps) (s : State) : Host.Outcome State Fault Refusal :=
  issue (.time o) s (fun c => c.timeBody)

/-- PERF_SHORT (R423). -/
def execPerfShort (o : SOps) (s : State) : Host.Outcome State Fault Refusal :=
  issue (.perfShort o) s (fun c => c.perfBody)

/-- PERF (R423). -/
def execPerf (o : XOps) (s : State) : Host.Outcome State Fault Refusal :=
  issue (.perf o) s (fun c => c.perfBody)

/-- RDSR_SHORT (R424). -/
def execRdsrShort (o : SOps) (s : State) : Host.Outcome State Fault Refusal :=
  issue (.rdsrShort o) s (fun c => c.rdsrBody)

/-- RDSR (R424). -/
def execRdsr (o : XOps) (s : State) : Host.Outcome State Fault Refusal :=
  issue (.rdsr o) s (fun c => c.rdsrBody)

/-- WRSR_SHORT (R425). -/
def execWrsrShort (o : SOps) (s : State) : Host.Outcome State Fault Refusal :=
  issue (.wrsrShort o) s (fun c => c.wrsrBody)

/-- WRSR (R425). -/
def execWrsr (o : XOps) (s : State) : Host.Outcome State Fault Refusal :=
  issue (.wrsr o) s (fun c => c.wrsrBody)

end Sys2Proof.Machine
end

