-- ==== Sys2Proof/Machine/Debug.lean ====
section
/-! DEFINITION. The watchdog, halts and resumptions of a core, the debugger's access to a stopped group, and
errors in the stores (R100, R450 to R465, R480). -/

namespace Sys2Proof.Machine

/-! ### The watchdog (R463) -/

/-- R463: what a waiting fragment is left with when one of its groups is taken out of its wait. -/
def FState.drop (g : Nat) : FState → FState
  | .qpush q l n x => .qpush q (l.filter (fun c => c.group != g)) n x
  | .barw b l x => .barw b (l.filter (fun n => n != g)) x
  | .sleeping b l x => .sleeping b (l.filter (fun n => n != g)) x
  | .qpop d l x => .qpop d (l.filter (fun n => n != g)) x
  | .publish l x => .publish (l.filter (fun c => c.group != g)) x
  | .held i l x => .held i (l.filter (fun a => a.group != g)) x
  | .meeting i a t j x => .meeting i (kdel g a) (t.filter (fun e => e.1 / 32 != g)) j x
  | .rayq i l x => .rayq i (l.filter (fun r => r.lane / 32 != g)) x
  | x => x

/-- R463: the arrivals of a group are withdrawn: a pending exchange, and lanes that had arrived at a join. -/
def Team.withdraw (t : Team) (f : Frag) (g : Nat) : Team :=
  let t := t.modGroup g (fun x => { x with xch := none })
  match f.st, f.region with
  | .joined _, some r =>
    t.modRegion r (fun x => { x with arr := kset g (glanes x.arr g &&& ~~~(glanes f.lanes g)) x.arr })
  | _, _ => t

/-- R463: the arrivals that a group's other fragments have made at member-masked and joint instructions are withdrawn:
they are to issue the instruction again. -/
def State.withdrawHeld (s : State) (tid g fid : Nat) : State :=
  match s.team? tid with
  | none => s
  | some t =>
    (t.frags.filter (fun f => f.id != fid && glanes f.lanes g != 0 &&
        (match f.st with | .held _ _ _ => true | .xch _ => true | _ => false))).foldl (fun s f =>
      s.settle tid f f.word s.free (f.lanes.map (fun e =>
        if e.1 = g then (e.1, GOut.hold)
        else (e.1, GOut.go { st := f.st.drop g, pc := f.pc, fmt := f.fmt, hm := f.hm })))) s

/-- R463: WATCHDOG: a group that has completed nothing for its limit stops at the instruction at which it
stands, in the first of its fragments that has not stopped (log entry 42); in a splice that drains the rest of the
splice goes on without it (log entry 113). -/
def State.watchdog (s : State) (tid g : Nat) : State :=
  match (s.team? tid).bind (fun t => (t.group? g).map (fun x => (t, x))) with
  | none => s
  | some (t, x) =>
    let limit := s.wdogLimit t.vi
    if limit = 0 ∨ x.wdog < limit ∨ x.stop.isSome ∨ x.finished ∨ s.barred t then s
    else
      match t.frags.find? (fun f => f.st != .stopped && f.lanes.any (fun e => e.1 == g)) with
      | none => s
      | some f =>
        let word := s.wordAt t f
        let s := (s.modTeam tid (fun t => t.withdraw f g)).withdrawHeld tid g f.id
        s.settle tid f word s.free (f.lanes.map (fun e =>
          if e.1 = g then (e.1, GOut.trap { cause := .watchdog })
          else if f.st = .ready then (e.1, GOut.hold)
          else (e.1, GOut.go { st := f.st.drop g, pc := f.pc, fmt := f.fmt, hm := f.hm })))

/-! ### Halts and resumptions (R461) -/

/-- R461: the fields of `CORE_DBG` that a write sets. -/
def Dbg.fields (d : Dbg) (v : Dword) : Dbg := { d with action := fld v 17 2, step := bit v 19 }

/-- R461: HALT written 1: the core halts for the debugger. -/
def State.dbgHalt (s : State) (core : Nat) (v : Dword) : State :=
  ({ s with held := s.held.filter (fun m => match m with | .resume c _ => c != core | _ => true) }.modCore core (fun k => { k with dbg := k.dbg.fields v })).haltCore core 0 0 Cause.debugHalt.code

/-- R461: how a group that stopped goes on under ACTION; `peers` are the fragments that stopped with this one. -/
def State.actOn (s : State) (tid : Nat) (f : Frag) (fr action g : Nat) (why : Stop) (peers : List Nat) : State × Next :=
  let stay : Next := { st := f.st, pc := f.pc, fmt := f.fmt, hm := f.hm }
  match (s.team? tid).bind (fun t => (t.group? g).map (fun x => (t, x))) with
  | none => (s, stay)
  | some (t, x) =>
    let finish : State × Next := (s.endTeam tid x.tr.cause x.tr.taddr, stay)
    let cont : State × Next :=
      if x.tr.mustEnd t.lost then finish
      else
        let r := s.resume tid f fr g peers
        (r.1.modGroup tid g (fun x' => { x' with skip := x.tr.hwReg }), r.2)
    let v := s.vi t.vi
    match why, action with
    | .tret, 0 => cont
    | .tret, 2 => (s, { stay with st := .ready })
    | .fault _ _, 0 => cont
    | .fault c inH, 2 =>
      if !inH && bit v.trapCfg 0 && bit v.trapMask c.code then
        ((s.modGroup tid g (fun x => x.enterHandler (glanes f.lanes g))).modTeam tid (fun t => t.setMode (f.id :: peers) g true),
         { st := .ready, pc := v.trapEntry, fmt := 0, hm := true })
      else finish
    | _, _ => finish

/-- R461: the groups of a stopped fragment go on, for the reasons `whys` for which they stopped; `done` says where the
groups that another fragment stopped with have gone. -/
def State.resumeFrag (acc : State × List (Nat × Next)) (tid : Nat) (f : Frag) (action : Nat) (whys : List (Nat × Stop))
    (peers : List Nat) : State × List (Nat × Next) :=
  let stay : Next := { st := f.st, pc := f.pc, fmt := f.fmt, hm := f.hm }
  let r := f.lanes.foldl (fun (a : State × List (Nat × Next)) e =>
    match kfind e.1 whys, kfind e.1 acc.2 with
    | some _, some n =>
      (a.1.modGroup tid e.1 (fun g => g.follow n (glanes f.lanes e.1)), a.2 ++ [(e.1, if n.st = .ready then n else stay)])
    | some why, none =>
      let x := a.1.actOn tid f acc.1.free action e.1 why peers
      (x.1, a.2 ++ [(e.1, x.2)])
    | none, _ => (a.1, a.2 ++ [(e.1, stay)])) (acc.1, [])
  (r.1.modTeam tid (fun t => t.goOn f.id f.word r.2), acc.2 ++ r.2.filter (fun e => (kfind e.1 whys).isSome))

/-- R461: the groups of a team that stopped of themselves go on, in every fragment in which they stopped. -/
def State.resumeTeam (s : State) (action : Nat) (t : Team) : State :=
  let whys := t.groups.filterMap (fun e => e.2.stop.map (fun w => (e.1, w)))
  let fs := t.frags.filter (fun f => f.st == .stopped)
  let clear (x : Group) : Group := { x with stop := none }
  let s := whys.foldl (fun s e => s.modGroup t.id e.1 clear) s
  (fs.foldl (fun acc f => State.resumeFrag acc t.id f action whys (fs.map (fun f => f.id))) (s, [])).1

/-- R48, R461: some group of the team is to RESUME at an address whose page migrates. -/
def State.resumeWaits (s : State) (action : Nat) (t : Team) : Bool :=
  action == 0 && t.groups.any (fun e => e.2.stop.isSome && s.resumeHeld t e.2.tr)

/-- R461: HALT written 0: ACTION is applied to every group that stopped of itself, and the core runs; while the page of a
resume address migrates the resumption waits (R48, log entry 114). -/
def State.dbgResume (s : State) (core : Nat) (v : Dword) : State :=
  let s := s.modCore core (fun k => { k with dbg := k.dbg.fields v })
  if !(s.core core).dbg.halt then s
  else
    let action := (s.core core).dbg.action
    let ts := (s.teams.map (fun e => e.2)).filter (fun t => t.core == core && t.st != .saved && !t.dead)
    if ts.any (s.resumeWaits action) then s.later (.resume core v)
    else
      let s := s.modCore core (fun k => { k with dbg := { k.dbg with halt := false, halted := false } })
      ts.foldl (State.resumeTeam · action ·) s

/-- R461: a write of `CORE_DBG`. -/
def State.dbgCtl (s : State) (core : Nat) (v : Dword) : State :=
  if 144 ≤ core then s else if bit v 0 then s.dbgHalt core v else s.dbgResume core v

/-! ### The debugger's view of a group (R461, R480) -/

/-- The team in a slot of a core. -/
def State.teamAt (s : State) (core slot : Nat) : Option Team :=
  (s.teams.map (fun e => e.2)).find? (fun t => t.core == core && t.slot == slot && t.st != .saved)

/-- The fragment that a group's address and `fmt` are read from: the first that carries it. -/
def Team.fragOf (t : Team) (g : Nat) : Option Frag := t.frags.find? (fun f => f.lanes.any (fun e => e.1 == g))

/-- R461: a reason for stopping as a number: 0 none, 1 `sr.tret` = 2, else 2 more than twice the cause, odd in handler
mode. -/
def stopCode : Option Stop → Nat
  | none => 0
  | some .tret => 1
  | some (.fault c h) => 2 + 2 * c.code + b2n h
def stopOf (n : Nat) : Option Stop :=
  match n with
  | 0 => none
  | 1 => some .tret
  | n + 2 => some (.fault (Cause.ofCode (n / 2)) (n % 2 == 1))

/-- R351: a guard as a number. -/
def guardCode : Guard → Nat
  | .idle => 0 | .pending => 1 | .true => 2 | .false => 3
def guardOf (n : Nat) : Guard :=
  match n with | 0 => .idle | 1 => .pending | 2 => .true | _ => .false

/-- R346: a barrier as a number: PHASE, ARR, COUNT and SCOPE, and INIT. -/
def barCode : Option Bar → Nat
  | none => 0
  | some b => b.phase % 2 ^ 32 + 2 ^ 32 * (b.arr % 2 ^ 12) + 2 ^ 44 * (b.count % 2 ^ 16) + 2 ^ 60 * (b.scope % 8) + 2 ^ 63
def barOf (v : Dword) : Option Bar :=
  if bit v 63 then some { phase := fld v 0 32, arr := fld v 32 12, count := fld v 44 16, scope := fld v 60 3 } else none

/-- R388: the counters of a team. -/
def Team.counter (t : Team) (n : Nat) : Nat := if n = 0 then t.qsat else if n = 1 then t.qnan else t.fsat
def Team.setCounter (t : Team) (n v : Nat) : Team :=
  if n = 0 then { t with qsat := v } else if n = 1 then { t with qnan := v } else { t with fsat := v }

/-- R399: the fields of a group's meshlet state, by number. -/
def Mesh.field (m : Mesh) (n : Nat) : Nat :=
  match n with
  | 0 => b2n m.isOpen | 1 => m.buf | 2 => m.vmask | 3 => m.vmax | 4 => m.pmax | 5 => m.nattr | 6 => b2n m.strict
  | 7 => b2n m.vovf | 8 => b2n m.povf | 9 => b2n m.covf | 10 => m.disc | _ => m.cull
def Mesh.setField (m : Mesh) (n v : Nat) : Mesh :=
  match n with
  | 0 => { m with isOpen := v % 2 == 1 } | 1 => { m with buf := v } | 2 => { m with vmask := v }
  | 3 => { m with vmax := v } | 4 => { m with pmax := v } | 5 => { m with nattr := v }
  | 6 => { m with strict := v % 2 == 1 } | 7 => { m with vovf := v % 2 == 1 } | 8 => { m with povf := v % 2 == 1 }
  | 9 => { m with covf := v % 2 == 1 } | 10 => { m with disc := v } | _ => { m with cull := v }

/-- R389: the fields of a subscription, by number. -/
def Sub.field (b : Sub) (n : Nat) : Nat :=
  match n with
  | 0 => b2n b.isOpen | 1 => b.base | 2 => b.slot | 3 => b.w | 4 => b.bar | 5 => b.out | _ => b.next
def Sub.setField (b : Sub) (n v : Nat) : Sub :=
  match n with
  | 0 => { b with isOpen := v % 2 == 1 } | 1 => { b with base := v } | 2 => { b with slot := v } | 3 => { b with w := v }
  | 4 => { b with bar := v } | 5 => { b with out := v } | _ => { b with next := v }

/-- R94: the fields of a tile binding, by number. -/
def Binding.field (b : Binding) (n : Nat) : Nat :=
  match n with
  | 0 => b.base | 1 => b.vmask | 2 => b.strips | 3 => b.tx | 4 => b.ty | _ => b.natt
def Binding.setField (b : Binding) (n v : Nat) : Binding :=
  match n with
  | 0 => { b with base := v } | 1 => { b with vmask := v } | 2 => { b with strips := v } | 3 => { b with tx := v }
  | 4 => { b with ty := v } | _ => { b with natt := v }

/-- R460, R461: a place of the saved state of a group or of its team, which of the numbering being the model's own (log
entry 74): 0 a lane's register (32 × register + lane), 1 a scalar, 2 a predicate, 3 `exec`, 4 the address, 5 `fmt`, 6 a
trap register by its number, 7 a word of a lane's private slice (1024 × lane + word), 8 handler mode, 9 and 10 the
watchdog and starvation counts, 11 the reason for stopping, 12 and 13 EP and AP of a barrier, 14 a PERF counter, 15 the
lanes that have exited, 16 the instructions exempt from denial, 17 the notice that waits, 18 a field of the meshlet
state, 19 a word of a record of `q.ix` (8 × record + word); of the team 20 a word of scratch, 21 an accumulator element
(16384 × tile + 128 × row + column), 22 a barrier, 23 a guard, 24 a counter of R388, 25 `sr.tagwin`, 26 a field of the
tile binding, 27 a field of a subscription (8 × stream + field). -/
def State.dbgGet (s : State) (t : Team) (g : Group) (kind place : Nat) : Option Dword :=
  let w (x : Word) : Dword := x.setWidth 64
  match kind with
  | 0 => if place < 32 * (8 * g.win) then some ((g.reg (place / 32) (place % 32)).setWidth 64) else none
  | 1 => if place < 64 then some ((g.scalar place).setWidth 64) else none
  | 2 => if place < 8 then some ((g.pred place).setWidth 64) else none
  | 3 => some (g.exec.setWidth 64)
  | 4 => (t.fragOf g.num).map (fun f => f.pc)
  | 5 => (t.fragOf g.num).map (fun f => f.fmt.setWidth 64)
  | 6 => (t.fragOf g.num).bind (fun f => if srTrap place then some (s.srRead t f g 0 place) else none)
  | 7 =>
    if place / 1024 < 32 ∧ 4 * (place % 1024) < 256 * t.privN then
      some (w64 (leNat (g.privRead (place / 1024) (4 * (place % 1024)) 4)))
    else none
  | 8 => some (w64 (b2n g.hm))
  | 9 => some (w64 g.wdog)
  | 10 => (t.fragOf g.num).map (fun f => w64 f.starve)
  | 11 => some (w64 (stopCode g.stop))
  | 12 => if place < t.barsN then some (w64 (kget 0 place g.ep)) else none
  | 13 => if place < t.barsN then some (w64 ((kfind place g.ap).getD (2 ^ 32))) else none
  | 14 => if place < 6 then some (zget place g.perf) else none
  | 15 => some (w g.exited)
  | 16 => some (w64 g.exempt)
  | 17 => some (w64 (b2n g.notice))
  | 18 => if place < 12 then some (w64 (g.mesh.field place)) else none
  | 19 => (g.qix[place / 8]?).map (fun r => w (nth 0 r (place % 8)))
  | 20 => if 4 * place < t.scrSize then some (w64 (leNat (t.scrRead (4 * place) 4))) else none
  | 21 => if place < 16384 * t.accN then some (w (zget place t.acc)) else none
  | 22 => if place < t.barsN then some (w64 (barCode (kfind place t.bars))) else none
  | 23 => if place < 16 then some (w64 (guardCode (t.guard place))) else none
  | 24 => if place < 3 then some (w64 (t.counter place)) else none
  | 25 => some (w t.tagwin)
  | 26 => t.binding.bind (fun b => if place < 6 then some (w64 (b.field place)) else none)
  | 27 => (kfind (place / 8) t.subs).bind (fun b => if place % 8 < 7 then some (w64 (b.field (place % 8))) else none)
  | _ => none

/-- R455: a trap register written by the debugger, which reaches those that no instruction writes. -/
def TrapRegs.put (r : TrapRegs) (n : Nat) (v : Dword) : TrapRegs :=
  let w : Word := v.setWidth 32
  match n with
  | 0x20 => { r with tcause := w }
  | 0x21 => { r with taddr := v }
  | 0x22 => { r with tinst := v }
  | 0x24 => { r with tmask0 := w }
  | 0x25 => { r with tmask1 := w }
  | 0x26 => { r with tmask2 := w }
  | 0x27 => { r with tword := w }
  | _ => r.write n v

/-- R461: the same place written. -/
def Team.dbgSet (t : Team) (g kind place : Nat) (v : Dword) : Team :=
  let w : Word := v.setWidth 32
  match kind with
  | 0 => t.modGroup g (fun x => x.setReg (place / 32) (place % 32) w)
  | 1 => t.modGroup g (fun x => x.setScalar place w)
  | 2 => t.modGroup g (fun x => x.setPred place 0xFFFFFFFF w)
  | 3 => t.modGroup g (fun x => { x with exec := w &&& x.alive })
  | 4 => (match t.fragOf g with | some f => t.setFrag { f with pc := v } | none => t)
  | 5 => (match t.fragOf g with | some f => t.setFrag { f with fmt := w } | none => t)
  | 6 => t.modGroup g (fun x => { x with tr := x.tr.put place v })
  | 7 => t.modGroup g (fun x => x.privWrite (place / 1024) (4 * (place % 1024)) (leBytes 4 w.toNat))
  | 8 => (t.modGroup g (fun x => { x with hm := bit v 0 })).setMode [] g (bit v 0)
  | 9 => t.modGroup g (fun x => { x with wdog := v.toNat })
  | 10 => (match t.fragOf g with | some f => t.setFrag { f with starve := v.toNat } | none => t)
  | 11 => t.modGroup g (fun x => { x with stop := stopOf v.toNat })
  | 12 => t.modGroup g (fun x => { x with ep := kset place (v.toNat % 2 ^ 32) x.ep })
  | 13 => t.modGroup g (fun x =>
      { x with ap := if v.toNat < 2 ^ 32 then kset place v.toNat x.ap else kdel place x.ap })
  | 14 => t.modGroup g (fun x => { x with perf := kset place v x.perf })
  | 15 => t.modGroup g (fun x => { x with exited := w &&& x.launched, exec := x.exec &&& ~~~w })
  | 16 => t.modGroup g (fun x => { x with exempt := v.toNat })
  | 17 => t.modGroup g (fun x => { x with notice := bit v 0 })
  | 18 => t.modGroup g (fun x => { x with mesh := x.mesh.setField place v.toNat })
  | 19 => t.modGroup g (fun x => { x with qix := (kset (place / 8) ((List.range 8).map (fun i =>
      if i = place % 8 then w else nth 0 (nth [] x.qix (place / 8)) i)) ((List.range x.qix.length).zip x.qix)).map (fun e => e.2) })
  | 20 => t.scrWrite (4 * place) (leBytes 4 w.toNat)
  | 21 => { t with acc := zset place w t.acc, accW := sinsert (place / 128) t.accW, accPoison := sdel place t.accPoison }
  | 22 => { t with bars := match barOf v with | some b => kset place b t.bars | none => kdel place t.bars }
  | 23 => { t with guards := kset place (guardOf (v.toNat % 4)) t.guards }
  | 24 => t.setCounter place w.toNat
  | 25 => { t with tagwin := w }
  | 26 => { t with binding := t.binding.map (fun b => b.setField place v.toNat) }
  | 27 =>
    match kfind (place / 8) t.subs with
    | some b => { t with subs := kset (place / 8) (b.setField (place % 8) v.toNat) t.subs }
    | none => t
  | _ => t

/-! ### Errors in the stores (R100, R464) -/

/-- R100: `ST_ECC` counts an error. -/
def Core.ecc (k : Core) (unc : Bool) : Core :=
  if unc then { k with uncorr := min (k.uncorr + 1) 0xFFFFFFFF } else { k with corr := min (k.corr + 1) 0xFFFFFFFF }

/-- R100, R464: an error of a team's storage: counted at its core, and an uncorrectable one leaves its mark. -/
def State.teamError (s : State) (tid : Nat) (unc : Bool) (ok : Team → Bool) (mark : Team → Team) : State :=
  match s.team? tid with
  | none => s
  | some t =>
    if t.st = .saved ∨ !ok t then s
    else
      let s := s.modCore t.core (fun k => k.ecc unc)
      if unc then s.modTeam tid mark else s

/-- R77, R89, R93, R100, R464: SOFT_ERROR.  What is not written reads as zero, whatever the store holds; CORR does not
count the corrected errors of execution state. -/
def State.softError (s : State) (site : ErrorSite) (unc : Bool) : State :=
  match site with
  | .reg tid g r l =>
    s.teamError tid unc
      (fun t => match t.group? g with | some x => x.bound.contains (r / 8) && decide (l < 32) | none => false)
      (fun t => t.modGroup g (fun x => { x with regPoison := sinsert (32 * r + l) x.regPoison }))
  | .scratch tid off =>
    s.teamError tid unc (fun t => decide (off < t.scrSize)) (fun t =>
      if t.scrW.contains (off / 4096) then { t with scrPoison := sinsert (off / 8) t.scrPoison } else t)
  | .priv tid g l off =>
    s.teamError tid unc (fun t => (t.group? g).isSome && decide (l < 32) && decide (off < 256 * t.privN))
      (fun t => t.modGroup g (fun x =>
        if x.privW.contains (16 * l + off / 256) then { x with privPoison := sinsert ((4096 * l + off) / 8) x.privPoison } else x))
  | .acc tid tile row col =>
    s.teamError tid unc (fun t => decide (tile < t.accN) && decide (row < 128) && decide (col < 128))
      (fun t =>
        if t.accW.contains (128 * tile + row) then { t with accPoison := sinsert (16384 * tile + 128 * row + col) t.accPoison } else t)
  | .mem a => if unc && (isNear a || isFar a) then s.poisonLine (a / 128) else s
  | .l1 core a =>
    if (s.core core).l1.any (fun l => l.line == a / 128 * 128) then
      let mark (l : L1Line) : L1Line := if l.line = a / 128 * 128 then { l with poison := sinsert (a / 8) l.poison } else l
      s.modCore core (fun k => let k := k.ecc unc; if unc then { k with l1 := k.l1.map mark } else k)
    else s
  | .exec tid =>
    match s.team? tid with
    | none => s
    | some t =>
      if unc then (s.modCore t.core (fun k => k.ecc true)).modTeam tid (fun t => { t with lost := true }) else s

/-- R464: an uncorrectable error in the execution state of a team none of whose fragments can reach a boundary
ends it. -/
def State.endLost (s : State) (tid : Nat) : State :=
  match s.team? tid with
  | none => s
  | some t =>
    if t.lost && t.st != .saved && !t.frags.any (fun f => f.st == .ready) then
      s.endTeam tid .uncorrectable (match t.frags with | f :: _ => f.pc | [] => 0)
    else s

/-! ### The rows -/

/-- WATCHDOG (R463). -/
def execWatchdog (team group : Nat) (s : State) : Host.Outcome State Fault Refusal :=
  event s (fun s => s.watchdog team group)

/-- CORE_DBG_HALT (R461). -/
def execCoreDbgHalt (core : Nat) (v : Dword) (s : State) : Host.Outcome State Fault Refusal :=
  regEvent s (fun s => s.dbgCtl core (v ||| 1))

/-- CORE_DBG_RESUME (R461). -/
def execCoreDbgResume (core : Nat) (v : Dword) (s : State) : Host.Outcome State Fault Refusal :=
  regEvent s (fun s => s.dbgCtl core (v &&& ~~~1))

/-- SOFT_ERROR (R100). -/
def execSoftError (site : ErrorSite) (unc : Bool) (s : State) : Host.Outcome State Fault Refusal :=
  event s (fun s => s.softError site unc)

end Sys2Proof.Machine
end

