-- ==== Sys2Proof/Machine/Display.lean ====
section
/-! DEFINITION. Outputs and views: their registers, the link, latches, deadlines, the frame store and late
records (R408, R409, R428 to R436, R446, R447, R477). -/

namespace Sys2Proof.Machine

/-! ### Timing (R430, R434) -/

def Disp.period (d : Disp) : Nat := fld d.time 0 32
def Disp.margin (d : Disp) : Nat := fld d.time 32 32
/-- R430: the strip period. -/
def Disp.p (d : Disp) : Nat := d.period / d.nstrip

/-- R434: the times of a latch and of a deadline, as offsets from T0 plus `k`, negative ones as none. -/
def Disp.latchAt (d : Disp) (f s t0 : Nat) : Nat := t0 + f * d.period + s * d.p - d.lead * d.p
def Disp.deadlineAt (d : Disp) (f s t0 : Nat) : Nat := t0 + f * d.period + s * d.p - d.margin

/-- R434: the first frame whose event of a strip, `back` ns before the start of its scan-out, does not lie before
T0. -/
def Disp.firstFrame (d : Disp) (s back : Nat) : Nat := ceilDiv (back - s * d.p) d.period

/-- R431, R434: T0 is set: earlier latches and deadlines pass silently; a strip of which a latch so passes has no snapshot. -/
def State.setT0 (s : State) (o : Nat) : State :=
  let d := s.disp o
  s.modDispd o (fun x =>
    { x with t0 := some s.clock.ns
             snap := x.snap.filter (fun e => d.firstFrame (e.1 % 32) (d.lead * d.p) == 0)
             frame := (List.range d.nstrip).map (fun k => (k, d.firstFrame k d.margin))
             latch := (List.range d.nstrip).map (fun k => (k, d.firstFrame k (d.lead * d.p))) })

/-- R431: T0 is set at the first clk at which EN = 1 and LINK = 1. -/
def State.startTiming (s : State) (o : Nat) : State :=
  if (s.disp o).en && (s.dispd o).link && (s.dispd o).t0.isNone then s.setT0 o else s

/-! ### Registers (R429, R430, R433, R435) -/

/-- R429, R430: the fields of an enabling write are in their ranges. -/
def Disp.valid (d : Disp) : Bool :=
  decide (1 ≤ d.wt) && decide (1 ≤ d.ht) && decide (1 ≤ d.nstrip) && decide (d.nstrip ≤ 32) && decide (d.ht % d.nstrip = 0)
  && decide (128 ≤ fld d.cfg 40 8) && decide (fld d.cfg 40 8 ≤ 192) && decide (100000 ≤ d.p) && decide (d.margin < d.p)

/-- R429: the writable bits of `DISP_CFGo`. -/
def dispMask : Dword := 0xFFFF7FFFFFF7

/-- The accepted tiles of an output that the serialiser has still to read are read. -/
def State.readAll (s : State) (o : Nat) : State :=
  ((s.dispd o).acc.filter (fun e => e.bytes.isNone)).foldl (fun s e => s.tileRead o e.read) s

/-- R431, R435, R446: an output is enabled: no tile has been accepted, LATES is zero; a strip keeps its snapshots until a
latch of it. -/
def State.enableDisp (s : State) (o : Nat) : State :=
  ((s.readAll o).modDispd o (fun d =>
    { d with lates := 0, t0 := none, frame := [], latch := [], acc := [], store := [] })).startTiming o

/-- R436: the grids that an output's latches would have released are not released any more. -/
def State.loseLatches (s : State) (o : Nat) : State :=
  let lose (g : Grid) : Grid := if g.latchHeld && g.rc.latchOut == o then { g with latchLost := true } else g
  { s with grids := s.grids.map (fun e => (e.1, lose e.2)) }

/-- R429: a write of `DISP_CFGo`. -/
def State.dispCfg (s : State) (o : Nat) (v : Dword) : State :=
  let old := s.disp o
  let new : Disp := { old with cfg := v &&& dispMask }
  if 8 ≤ o then s
  else if old.en then
    if (old.cfg ^^^ new.cfg) &&& ~~~1 = 0 then
      let s := s.modDisp o (fun _ => new)
      if new.en then s.modDispd o (fun d => { d with lates := 0 }) else s.loseLatches o
    else s
  else if new.en then
    if new.valid then (s.modDisp o (fun _ => new)).enableDisp o else s
  else s.modDisp o (fun _ => new)

/-- R430: a write of `DISP_TIMEo`. -/
def State.dispTime (s : State) (o : Nat) (v : Dword) : State :=
  if 8 ≤ o ∨ (s.disp o).en then s else s.modDisp o (fun d => { d with time := v })

/-- R433, R435: a write of `VIEW_CFGv`; a view that becomes enabled has not been latched. -/
def State.viewCfg (s : State) (v : Nat) (x : Dword) : State :=
  if bit x 0 && (fld x 8 8 == 0 || fld x 16 8 == 0) then s
  else
    let fresh := bit x 0 && !(s.view v).en
    let drop (d : DispDyn) : DispDyn := { d with snap := d.snap.filter (fun e => e.1 / 32 != v) }
    let s := s.modView v (fun w => { w with cfg := x &&& 0xFFFF0F })
    if fresh then { s with dispds := s.dispds.map (fun e => (e.1, drop e.2)) } else s

/-- R433: two words of `VIEW_MATv`. -/
def setPair (m : List Word) (k : Nat) (x : Dword) : List Word :=
  m.take (2 * k) ++ [x.setWidth 32, (x >>> 32).setWidth 32] ++ m.drop (2 * k + 2)

/-- R428, R433: a write of a view's register. -/
def State.viewWrite (s : State) (v off : Nat) (x : Dword) : State :=
  if 16 ≤ v then s
  else
    match off with
    | 0x00 => s.viewCfg v x
    | 0x08 => s.modView v (fun w => { w with gaze := x })
    | 0x10 => s.modView v (fun w => { w with bwx := x })
    | 0x18 => s.modView v (fun w => { w with bwy := x })
    | 0x20 => s.modView v (fun w => { w with den := x })
    | _ => if 0x40 ≤ off ∧ off ≤ 0x78 ∧ off % 8 = 0 then s.modView v (fun w => { w with mat := setPair w.mat ((off - 0x40) / 8) x }) else s

/-- R477: a write of the gaze mailbox, at an offset in it and of a size in bytes. -/
def State.gazeWrite (s : State) (off size : Nat) (x : Dword) : State :=
  if size = 8 ∧ off % 16 = 0 ∧ off < 256 ∧ (s.view (off / 16)).en then s.modView (off / 16) (fun w => { w with gaze := x })
  else { s with hub := { s.hub with gzDrop := (s.hub.gzDrop + 1) % 2 ^ 32 } }

/-! ### Link, latches and deadlines (R432, R434 to R436, R446, R447) -/

/-- R431, R432: the link of an output is trained at a rate, on a number of lanes. -/
def State.linkUp (s : State) (o rate lanes : Nat) : State :=
  if 8 ≤ o ∨ 2 < rate ∨ 2 < lanes then s
  else (s.modDispd o (fun d => { d with link := true, rate := rate, lanes := lanes })).startTiming o

/-- R435, R436: STRIP_LATCH: every enabled view of the output is copied for the strip, and the grids that wait for
it are released. -/
def State.stripLatch (s : State) (o strip : Nat) : State :=
  let d := s.disp o
  let x := s.dispd o
  match x.t0 with
  | none => s
  | some t0 =>
    let f := kget 0 strip x.latch
    if !d.en || decide (d.nstrip ≤ strip) || decide (s.clock.ns < d.latchAt f strip t0) then s
    else
      let views := (List.range 16).filter (fun v => (s.view v).en && (s.view v).output == o)
      let snap := views.foldl (fun l v => kset (32 * v + strip) (s.view v) l) x.snap
      let free (g : Grid) : Grid :=
        if g.latchHeld && !g.latchLost && g.rc.latchOut == o && g.rc.latchStrip == strip then { g with latchHeld := false } else g
      { (s.modDispd o (fun x => { x with snap := snap, latch := kset strip (f + 1) x.latch })) with
        grids := s.grids.map (fun e => (e.1, free e.2)) }

/-- R446, R447: the tiles of a strip, in row-major order. -/
def Disp.tiles (d : Disp) (strip : Nat) : List Nat :=
  let r := d.rows strip
  (List.range (r.2 - r.1)).flatMap (fun y => (List.range d.wt).map (fun x => 256 * (r.1 + y) + x))

/-- R447: the LATE record of a strip. -/
def lateBody (f strip o count first : Nat) : List Byte :=
  evBody (f % 2 ^ 32) 2 0 (strip + 32 * o) (leBytes 4 count ++ leBytes 1 (first % 256) ++ leBytes 1 (first / 256))

/-- R114, R115, R446: tiles of the frame store written or read: deadline-class requests at ports of the near tier. -/
def State.storeTiles (s : State) (n : Nat) : State := s.nearAsks 0 n 4096

/-- R408, R446, R447: STRIP_DEADLINE: the accepted tiles of the strip go to the frame store, its frame advances,
and tiles that were not accepted are reported by one record. -/
def State.stripDeadline (s : State) (o strip : Nat) : State :=
  let d := s.disp o
  match (s.dispd o).t0 with
  | none => s
  | some t0 =>
    let f := kget 0 strip (s.dispd o).frame
    let at' := d.deadlineAt f strip t0
    if !d.en || decide (d.nstrip ≤ strip) || decide (s.clock.ns < at') then s
    else
      let mine := (s.dispd o).acc.filter (fun e => e.strip == strip)
      let s := (mine.filter (fun e => e.bytes.isNone)).foldl (fun s e => s.tileRead o e.read) s
      let done := (s.dispd o).acc.filter (fun e => e.strip == strip)
      let missing := (d.tiles strip).filter (fun p => !done.any (fun e => e.pos == p))
      let s := (s.storeTiles (done.length + (d.tiles strip).length)).modDispd o (fun x =>
        { x with store := done.foldl (fun l e => kset e.pos (e.bytes.getD []) l) x.store
                 acc := x.acc.filter (fun e => e.strip != strip)
                 frame := kset strip (f + 1) x.frame })
      match missing with
      | [] => s
      | p :: _ =>
        (s.modDispd o (fun x => { x with lates := min (x.lates + 1) 0xFFFF })).pushEvent d.owner
          { ring := d.ring, time := at', kind := 2, body := lateBody f strip o missing.length p }

/-! ### The rows -/

/-- DISP_CFG_WRITE (R429). -/
def execDispCfgWrite (output : Nat) (v : Dword) (s : State) : Host.Outcome State Fault Refusal :=
  regEvent s (fun s => s.dispCfg output v)

/-- LINK_TRAINED (R432). -/
def execLinkTrained (output rate lanes : Nat) (s : State) : Host.Outcome State Fault Refusal :=
  event s (fun s => s.linkUp output rate lanes)

/-- LINK_LOST (R431). -/
def execLinkLost (output : Nat) (s : State) : Host.Outcome State Fault Refusal :=
  event s (fun s => if output < 8 then s.modDispd output (fun d => { d with link := false }) else s)

/-- STRIP_LATCH (R435). -/
def execStripLatch (output strip : Nat) (s : State) : Host.Outcome State Fault Refusal :=
  event s (fun s => s.stripLatch output strip)

/-- STRIP_DEADLINE (R408). -/
def execStripDeadline (output strip : Nat) (s : State) : Host.Outcome State Fault Refusal :=
  event s (fun s => s.stripDeadline output strip)

/-- SERIALISER_TILE_READ (R409). -/
def execSerialiserTileRead (output read : Nat) (s : State) : Host.Outcome State Fault Refusal :=
  event s (fun s => s.tileRead output read)

/-- GAZE_MAILBOX_WRITE (R477). -/
def execGazeMailboxWrite (offset size : Nat) (v : Dword) (s : State) : Host.Outcome State Fault Refusal :=
  regEvent s (fun s => s.gazeWrite offset size v)

end Sys2Proof.Machine
end

