-- ==== Sys2Proof/Machine/Power.lean ====
section
/-! DEFINITION. Cadence, the governor, issue denial and near-threshold mode (R470 to R474). -/

namespace Sys2Proof.Machine

/-! ### Registers (R470 to R472) -/

/-- R470: a write of `SNUB_CFGd`. -/
def State.snubCfg (s : State) (die : Nat) (v : Dword) : State :=
  let step := fld v 1 13
  if 4 ≤ die ∨ step < 1 ∨ 6912 < step then s else s.modSnub die (fun n => { n with cfg := v &&& 0x3FFF })

/-- R471: a write of `CORE_CAD`. -/
def State.cadWrite (s : State) (core : Nat) (v : Dword) : State :=
  let n := fld v 0 5
  if n < 1 ∨ 16 < n then s else s.modCore core (fun k => { k with cadence := n, cadClk := some s.clock.clk })

/-- R472: a write of `PWR_CFG`. -/
def State.pwrWrite (s : State) (v : Dword) : State :=
  if 1900 < fld v 0 16 then s else { s with hub := { s.hub with pwrCfg := v &&& 0x1FFFFF } }

/-! ### The governor (R472, R473) -/

/-- R472: the floors of all cores, and gating, after a microsecond of a mean power. -/
def State.govern (s : State) (power : Nat) : State :=
  let limit := fld s.hub.pwrCfg 0 16
  let floors (s : State) (f : Nat → Nat) : State :=
    (List.range 144).foldl (fun s c => if f (s.core c).gfloor = (s.core c).gfloor then s
      else s.modCore c (fun k => { k with gfloor := f k.gfloor })) s
  let s := { s with power := power }
  if limit < power then
    if (List.range 144).any (fun c => decide ((s.core c).gfloor < 16)) then floors s (fun n => if n < 16 then n + 1 else n)
    else { s with gated := [0, 1, 2, 3] }
  else if 100 * power ≤ 95 * limit then
    if s.gated.isEmpty then floors s (fun n => if 1 < n then n - 1 else n) else { s with gated := [] }
  else s

/-- R473: the THROTTLE record of a VI on a die. -/
def throttleBody (vi die denied notices : Nat) : List Byte :=
  evBody vi 3 0 die (leBytes 4 denied ++ leBytes 4 notices)

/-- R473: the records of a microsecond, and its counts cleared. -/
def State.throttle (s : State) : State :=
  s.vids.foldl (fun s e =>
    let d := s.vid e.1
    let s := (sortBy (fun x => x.1) (d.denied.filter (fun x => x.2 != 0))).foldl (fun s x =>
      s.pushEvent e.1 { ring := 0, time := s.clock.ns, kind := 3, body := throttleBody e.1 x.1 x.2 d.notices }) s
    s.modVid e.1 (fun d => { d with denied := [], notices := 0 })) s

/-- R473: issue is denied to compute-class VIs on a gated die in this clk. -/
def State.denies (s : State) (core : Nat) : Bool :=
  s.gated.contains (dieOf core) && decide (s.clock.clk % 64 < 4 * fld s.hub.pwrCfg 17 4)

/-- R465, R473: a fragment is denied issue: its team is not of the deadline class, and none of its groups is
exempt. -/
def State.denied (s : State) (t : Team) (f : Frag) : Bool :=
  !t.deadline && s.denies t.core &&
  f.lanes.all (fun e => match t.group? e.1 with | some g => g.exempt == 0 | none => true)

/-- R474: NEAR_THRESHOLD_ENTER: a way that has waited long enough. -/
def State.nearThreshold (s : State) (core way : Nat) : State :=
  let k := s.core core
  if bit s.hub.pwrCfg 16 && decide (256 ≤ kget 0 way k.idle) && !smem way k.nt then
    s.modCore core (fun k => { k with nt := sinsert way k.nt })
  else s

/-! ### The rows -/

/-- GOVERNOR_TICK (R472). -/
def execGovernorTick (power : Nat) (s : State) : Host.Outcome State Fault Refusal :=
  event s (fun s => s.throttle.govern (power % 65536))

/-- NEAR_THRESHOLD_ENTER (R474). -/
def execNearThresholdEnter (core way : Nat) (s : State) : Host.Outcome State Fault Refusal :=
  event s (fun s => s.nearThreshold core way)

end Sys2Proof.Machine
end

