-- ==== Sys2Proof/Machine/Slice.lean ====
section
/-! DEFINITION. What the memory side does of itself: walks, write buffers, homes, probes, tickets, loads that
return, fills and their counters, decoded blocks, token buckets, invalidations, halving sweeps, and the checked
writes of the registers that govern them (R24 to R28, R44 to R46, R52, R53, R58, R63, R103, R112 to R126, R173
to R175). -/

namespace Sys2Proof.Machine

/-! ### Accesses on their way (R24, R58, R126, R173 to R175) -/

/-- R24, R26: TRANSLATION_WALK: a walk of a core for an address of a VI reaches its leaf, and its entries are cached; a
walk that meets a fault, or a migrating leaf (R48), leaves nothing but the log's entry for a read it was refused (R55).
Its reads are performed at their homes (R25). -/
def State.translationWalk (s : State) (vi core : Nat) (addr : Dword) : State :=
  let c := s.vi vi
  let a := fld addr 0 56
  let root := fld c.troot 13 35 * 8192
  if fld addr 56 8 ≠ 0 ∨ !bit c.troot 0 ∨ !(isNear root || isFar root) ∨ a / 2 ^ fld c.cfg 0 6 ≠ 0 then s
  else
    match s.walk vi a .prefetch (bit c.troot 1) (fld c.troot 52 12) [0, 1, 2, 3] root [] with
    | .error f => s.logViol vi addr 4 core f
    | .ok (_, _, ea, seen) =>
      let fresh := seen.filter (fun e => !(s.vid vi).tlb.contains e)
      if s.migrating ea || fresh.isEmpty then s
      else (s.walkReads vi (s.tableTag vi) (seen.map (fun e => e.2.1))).modVid vi (fun d => { d with tlb := d.tlb ++ fresh })

/-- R120, R174: HOME_ACCESS_PERFORM: a store on its way is performed at its home, before older ones to other lines,
unless the queue there is full. -/
def State.homePerform (s : State) (slice : Nat) : State :=
  let here (e : WbEnt) : Bool := s.home e.pa (s.partOf e.vi) == slice && !s.wbFull e
  match (s.cores.filterMap (fun e => (wbNext here e.2.wbuf []).map (fun x => (e.1, x)))).head? with
  | none => s
  | some (c, b, e, r) => (s.modCore c (fun k => { k with wbuf := b ++ r })).perform1 c e

/-- R126: one turn over the ports: of each die its oldest request, until `n` are granted. -/
def ticketTurn : List Nat → Nat → List TickReq → List TickReq × Nat × List TickReq
  | [], n, q => ([], n, q)
  | _, 0, q => ([], 0, q)
  | d :: ds, n + 1, q =>
    match findIdx (fun r => r.die == d) q 0 with
    | none => ticketTurn ds (n + 1) q
    | some (i, r) =>
      let x := ticketTurn ds n (q.take i ++ q.drop (i + 1))
      (r :: x.1, x.2)

/-- R126: up to four grants in a clk: turns, on fuel. -/
def ticketTurns (dies : List Nat) : Nat → Nat → List TickReq → List TickReq × List TickReq
  | 0, _, q => ([], q)
  | f + 1, n, q =>
    let t := ticketTurn dies n q
    if t.1.isEmpty ∨ t.2.1 = 0 then (t.1, t.2.2)
    else
      let x := ticketTurns dies f t.2.1 t.2.2
      (t.1 ++ x.1, x.2)

/-- R126: the grants of a clk, in order, and the requests that are left. -/
def State.ticketsNow (s : State) : List TickReq × List TickReq :=
  ticketTurns ((List.range 4).map (fun i => (s.tickDie + i) % 4)) 4 4 s.tickReq

/-- R126, R127: SC_TICKET_GRANT: the grants of a clk, consecutive and stamped with their homes' counts, and what they are
for performed in that order; the next clk begins with the next die. -/
def State.ticketGrant (s : State) : State :=
  let x := s.ticketsNow
  x.1.foldl State.performTicket { s with
    ticket := s.ticket + w64 x.1.length, tickReq := x.2, tickDie := (s.tickDie + 1) % 4,
    homeCount := x.1.foldl (fun l r => if r.home = 0 then l else kset r.home (kget 0 r.home l + 1) l) s.homeCount }

/-- R58, R197: the results of one pending operation written; a load that met poison stays, to be reported. -/
def Group.loadReturn (g : Group) : Group :=
  match findIdx (fun p => p.poison.isNone) g.pend 0 with
  | none => g
  | some (i, p) => { (g.writePend p.regs p.preds p.scal p.part) with pend := g.pend.take i ++ g.pend.drop (i + 1) }

/-- R175: INVALIDATION_PROBE: the oldest probe takes its line out of the core's L1. -/
def Core.probed (k : Core) : Core :=
  match k.probes with
  | [] => k
  | p :: r => { k with probes := r, l1 := k.l1.filter (fun l => l.line != p) }

/-! ### Fills and hotness (R43 to R46) -/

/-- R120: how many requests of a class a queue holds. -/
def queueDepthOf (queue : Nat) : Nat := if queue < 144 then 32 else 64

/-- R120, R121: a class stalls in a clk in which some queue has all of its entries for the class occupied. -/
def State.stallClk (s : State) : State :=
  s.modSide (fun d =>
    let full (c : Nat) : Bool := d.buckets.any (fun e => e.1 % 4 == c && decide (queueDepthOf (e.1 / 4) ≤ e.2.waits.length))
    { d with tbStall := (List.range 4).foldl (fun l c => if full c then zset c (zget c l + 1) l else l) d.tbStall })

/-- R120: every entry of a class at a memory port is occupied. -/
def State.portFull (s : State) (port cls : Nat) : Bool :=
  decide (64 ≤ (s.bucket (144 + port) cls (0x200 + 32 * port + 8 * cls)).waits.length)

/-- R104: the set of a line (log entry 102). -/
def SLine.setOf (line : Nat) (dec : Option Nat) : Nat :=
  Config.sliceSet line (match dec with | some k => k + 1 | none => 0) % 1024

/-- R105: the lowest-numbered way of those of some lines. -/
def leastWay (l : List SLine) : Option SLine := leastBy (fun e => e.way) l

/-- R105: where a line goes in its set: the way, the line it replaces, and whether every use mark of the set is cleared
first. -/
def victim (ls : List SLine) : Nat × Option SLine × Bool :=
  match (List.range 16).find? (fun w => !ls.any (fun l => l.way == w)) with
  | some w => (w, none, false)
  | none =>
    match leastWay (ls.filter (fun l => l.evict)) with
    | some l => (l.way, some l, false)
    | none =>
      match leastWay (ls.filter (fun l => !l.used)) with
      | some l => (l.way, some l, false)
      | none => (0, leastWay ls, true)

/-- R104, R105: a line taken into a slice; what it replaces leaves, in the class of the access that caused it (R114). -/
def State.install (s : State) (h cls : Nat) (l : SLine) : State :=
  let v := victim ((s.slice h).filter (fun m => m.set == l.set))
  let s := match v.2.1 with | some old => s.lineLeaves cls old | none => s
  s.modSlice h (fun ls =>
    { l with way := v.1 } ::
      (ls.filter (fun m => !(m.set == l.set && m.way == v.1))).map (fun m =>
        if v.2.2 && m.set == l.set then { m with used := false } else m))

/-- R104: the sectors of a fill join the line that the slice holds, or the line is installed; a line of another VI at
the same address leaves first (log entry 102). -/
def State.fillLine (s : State) (f : Fill) : State :=
  let sec := unitSectors f.units
  if (s.slice f.slice).any (fun l => l.isLine f.vi f.line) then
    s.modSlice f.slice (fun ls => ls.map (fun l =>
      if l.isLine f.vi f.line then
        { l with valid := l.valid ||| sec, dirty := l.dirty ||| f.dirty, evict := l.evict || f.evict, used := true }
      else l))
  else
    let other (l : SLine) : Bool := l.line == f.line && l.dec.isNone
    let s := ((s.slice f.slice).filter other).foldl (fun s l => s.lineLeaves f.cls l)
      (s.modSlice f.slice (fun ls => ls.filter (fun l => !other l)))
    s.install f.slice f.cls { vi := f.vi, line := f.line, set := SLine.setOf f.line none, way := 0, valid := sec,
                              dirty := f.dirty, evict := f.evict, key := f.key }

/-- R44: a fill counted while counting is enabled; every 2^SHIFT-th counted one awaits an increment. -/
def State.countFill (s : State) (f : Fill) : State :=
  if bit s.hub.hotCtl 0 && f.counted then
    s.modSide (fun d =>
      let n := kget 0 f.slice d.fills + 1
      { d with fills := kset f.slice n d.fills
               hotPend := if n % 2 ^ fld s.hub.hotCtl 1 4 = 0 then d.hotPend ++ [(f.slice, f.line / 65536)] else d.hotPend })
  else s

/-- R44, R115, R117: SLICE_FILL: a miss takes its fill: the request joins the queue of a memory port, unless that is
full, and the line is installed. -/
def State.sliceFill (s : State) (slice addr : Nat) : State :=
  match findIdx (fun e => e.slice == slice && e.line == addr) s.side.fillPend 0 with
  | none => s
  | some (i, f) =>
    let port := s.portOf f.line
    if s.portFull port f.cls then s
    else
      let n := if f.packUnits = 0 then f.units % 2 + f.units / 2 else f.packUnits
      let s := s.modSide (fun d => { d with fillPend := d.fillPend.take i ++ d.fillPend.drop (i + 1) })
      let s := (s.meterPort port f.cls (64 * n)).countFill f
      if f.packUnits = 0 then s.fillLine f else s

/-- R44, R102: HOT_COUNTER_INCREMENT: the counter of a frame goes up by one and saturates: a system-class request at the
memory port of the counter's frame. -/
def State.hotIncrement (s : State) (slice : Nat) : State :=
  match findIdx (fun e => e.1 == slice) s.side.hotPend 0 with
  | none => s
  | some (i, e) =>
    let a := hotAddr (65536 * e.2)
    let port := s.portOf a
    if s.portFull port 3 then s
    else
      ((s.modSide (fun d => { d with hotPend := d.hotPend.take i ++ d.hotPend.drop (i + 1) })).meterPort port 3 64).put a
        (BitVec.ofNat 8 (min ((s.raw a).toNat + 1) 255))

/-- R45: a write of `HOT_CTL`: EN, SHIFT, and HALVE, which starts a sweep unless one runs. -/
def State.hotCtlWrite (s : State) (v : Dword) : State :=
  let s := { s with hub := { s.hub with hotCtl := v &&& 0x1F } }
  if bit v 8 && s.sweep.isNone then { s with sweep := some 0 } else s

/-- R46: a sweep halves 4,096 counters in a clk. -/
def State.sweepClk (s : State) : State :=
  match s.sweep with
  | none => s
  | some n =>
    if n < 5632 then
      let lo := 0x5FFEA00000 + 4096 * n
      let cells := s.mem.filter (fun c => decide (lo ≤ c.1) && decide (c.1 < lo + 4096))
      (cells.foldl (fun s c => s.put c.1 (BitVec.ofNat 8 ((s.raw c.1).toNat / 2))) s) |> fun s => { s with sweep := some (n + 1) }
    else s

/-- R46: HOT_HALVE_DONE: the sweep has passed every counter. -/
def State.halveDone (s : State) : State := if s.sweep = some 5632 then { s with sweep := none } else s

/-! ### Decoded blocks (R122 to R124) -/

/-- R122: the 32 lines of a decoded block installed in its slice. -/
def State.installBlock (s : State) (d : Decode) (bs : List Byte) : State :=
  (List.range 32).foldl (fun s j =>
    let k := 32 * d.block + j
    let s := s.modSlice d.slice (fun ls => ls.filter (fun l => !l.isDecoded d.vi d.pack k))
    s.install d.slice d.cls
      { vi := d.vi, line := d.pack, dec := some (k, (bs.drop (128 * j)).take 128), set := SLine.setOf d.pack (some k), way := 0,
        valid := 15, evict := d.evict, key := d.key }) s

/-- R122 to R124: BLOCK_DECODE_COMPLETE: the running decode that an access of a VI started is over, and its lines are
installed; an invalid block leaves nothing.  A miss that waits for the decoder waits on. -/
def State.blockDecode (s : State) (vi : Nat) (addr : Dword) : State :=
  match findIdx (fun d => d.vi == vi && d.addr.toNat / 4096 == addr.toNat / 4096) s.side.decodes 0 with
  | none => s
  | some (i, d) =>
    if 4 ≤ ((s.side.decodes.take i).filter (fun e => e.slice == d.slice)).length then s
    else
      let s := s.modSide (fun e => { e with decodes := e.decodes.take i ++ e.decodes.drop (i + 1) })
      match d.bytes with
      | none => s
      | some bs => s.installBlock d bs

/-! ### Token buckets (R116 to R121) -/

/-- The register of a bucket: slices share theirs by class, a port has its own. -/
def tbOffset (queue cls : Nat) : Nat := if queue < 144 then 0x100 + 8 * cls else 0x200 + 32 * (queue - 144) + 8 * cls

/-- R118: a class at a queue in a clk: refilled, and whether its oldest request is admitted. -/
def Bucket.step (b : Bucket) (r : Dword) : Bucket × Bool :=
  let depth := fld r 16 20
  let bal := min (16 * depth) (b.bal + fld r 0 16)
  match b.waits with
  | [] => ({ b with bal := bal }, false)
  | cost :: rest =>
    if 0 < depth ∧ 16 * cost ≤ bal then
      ({ bal := bal - 16 * cost, waits := rest, admitted := b.admitted ++ [cost] }, true)
    else if 0 < depth ∧ depth < cost ∧ bal = 16 * depth then ({ bal := 0, waits := rest, admitted := b.admitted ++ [cost] }, true)
    else ({ b with bal := bal }, false)

/-- R118: a class borrows: its oldest request is admitted and its balance stays. -/
def Bucket.borrow (b : Bucket) : Bucket := { b with waits := b.waits.drop 1, admitted := b.admitted ++ b.waits.take 1 }

/-- R119: the classes in the order they are served. -/
def classOrder : List Nat := [0, 3, 1, 2]

/-- R2, R115: the capacity of a queue in bytes per clk, a port's rounded (log entry 105). -/
def capacityOf (queue : Nat) : Nat :=
  if queue < 144 then 256 else if queue < 152 then 3235 else 176

/-- R119: requests served, oldest first, with so many bytes; what is left of them, and of the bytes. -/
def serveReqs : List Nat → Nat → List Nat × Nat
  | [], cap => ([], cap)
  | c :: r, cap => if c ≤ cap then serveReqs r (cap - c) else ((c - cap) :: r, 0)

/-- R119: the admitted requests of a queue's classes served in the order of the classes. -/
def serveAll : List Nat → Nat → List (Nat × Bucket) → List (Nat × Bucket)
  | [], _, bs => bs
  | c :: cs, cap, bs =>
    let x := serveReqs ((kfind c bs).elim [] (fun b => b.admitted)) cap
    serveAll cs x.2 (bs.map (fun e => if e.1 = c then (e.1, { e.2 with admitted := x.1 }) else e))

/-- R118: the class that may borrow in a clk that is idle: none of the four admits, and the requests admitted already
leave some of the capacity. -/
def lender (cap : Nat) (st : List (Nat × (Bucket × Bool))) (mayBorrow : Nat → Bool) : Option Nat :=
  if st.all (fun e => !e.2.2) && decide (st.foldl (fun n e => n + e.2.1.admitted.sum) 0 < cap) then
    classOrder.find? (fun c => mayBorrow c && (kfind c st).any (fun e => !e.1.waits.isEmpty))
  else none

/-- R118, R119: TOKEN_BUCKET_ADMIT: one clk at a queue: every class refills and may admit, in an idle clk the first
class that may borrow does, and what has been admitted is served. -/
def State.bucketClk (s : State) (queue : Nat) : State :=
  let reg (c : Nat) : Dword := s.tbReg (tbOffset queue c)
  let st := (List.range 4).map (fun c => (c, (s.bucket queue c (tbOffset queue c)).step (reg c)))
  let lend := lender (capacityOf queue) st (fun c => bit (reg c) 36)
  let bs := serveAll classOrder (capacityOf queue)
    (st.map (fun e => (e.1, if lend = some e.1 then e.2.1.borrow else e.2.1)))
  s.modSide (fun d => { d with buckets := bs.foldl (fun l e =>
      if e.2.waits.isEmpty ∧ e.2.admitted.isEmpty ∧ e.2.bal = 16 * fld (reg e.1) 16 20 then kdel (4 * queue + e.1) l
      else kset (4 * queue + e.1) e.2 l) d.buckets })

/-- R116: the queues whose buckets a register rules. -/
def tbQueues (off : Nat) : List (Nat × Nat) :=
  if 0x100 ≤ off ∧ off < 0x120 then (List.range 144).map (fun q => (q, (off - 0x100) / 8))
  else [(144 + (off - 0x200) / 32, off % 32 / 8)]

/-- R116: a write of a bucket's register: its balances stay, to be cut at the next clk. -/
def State.tbWrite (s : State) (off : Nat) (v : Dword) : State :=
  if off % 8 = 0 ∧ ((0x100 ≤ off ∧ off < 0x120) ∨ (0x200 ≤ off ∧ off < 0x400)) then
    let s := (tbQueues off).foldl (fun s q =>
      s.modSide (fun d => { d with buckets := kset (4 * q.1 + q.2) (s.bucket q.1 q.2 off) d.buckets })) s
    { s with hub := { s.hub with tb := kset off (v &&& 0x1FFFFFFFFF) s.hub.tb } }
  else s

/-- R118: balances start anew. -/
def State.refill (s : State) : State :=
  s.modSide (fun d => { d with buckets := d.buckets.map (fun e =>
      (e.1, { e.2 with bal := 16 * fld (s.tbReg (tbOffset (e.1 / 4) (e.1 % 4))) 16 20 })) })

/-! ### Invalidations (R27, R28) -/

/-- R27: a write of `VI_INVAL`. -/
def State.invalWrite (s : State) (vi : Nat) (v : Dword) : State :=
  if bit (s.vi vi).inval 0 then s else s.modVi vi (fun c => { c with inval := v &&& 0x00FFFFFFFFFF0007 })

/-- R28: a cached entry covers part of a range. -/
def tlbMeets (key lo hi : Nat) : Bool :=
  let lvl := key % 4
  let span := 2 ^ (46 - 10 * lvl)
  decide (key / 4 * span < hi) && decide (lo < (key / 4 + 1) * span)

/-- R28: an operation of a VI that waits for its ticket (R127). -/
def TickReq.ofVi (r : TickReq) (vi : Nat) : Bool :=
  match r.op with
  | some o => (match o.place with | .glob v .. => v == vi | .scr .. => false)
  | none => false

/-- R28: VI_INVAL_COMPLETE: no cached entry of the VI for the range is left, the accesses that used one have been
performed, and decoded lines are gone. -/
def State.invalDone (s : State) (vi : Nat) : State :=
  let v := (s.vi vi).inval
  if !bit v 0 || s.tickReq.any (fun r => r.ofVi vi) then s
  else
    let n := fld v 1 2
    let size := 2 ^ (16 + 10 * n)
    let lo := if n = 3 then 0 else fld v 16 40 * 65536 / size * size
    let hi := if n = 3 then 2 ^ 56 else lo + size
    let s := (s.cores.map (fun e => e.1)).foldl (fun s c => s.drainVi c vi) s
    let s := s.modVid vi (fun d => { d with tlb := d.tlb.filter (fun e => !tlbMeets e.1 lo hi) })
    let s := s.dropDecoded (fun v _ => v == vi)
    s.modVi vi (fun c => { c with inval := c.inval &&& ~~~1 })

/-! ### Checked writes (R52, R53, R63, R103, R113) -/

/-- R63: a write of `ST_SPLIT`. -/
def State.splitWrite (s : State) (core : Nat) (v : Dword) : State :=
  let scr := fld v 0 6
  let reg := fld v 6 6
  let ovr := fld v 12 2
  if s.teams.any (fun e => e.2.core == core && e.2.st != .saved) ∨ 144 ≤ core ∨ 32 < scr ∨ reg < 1 ∨ 43 < reg ∨ 2 < ovr
      ∨ 2752 < 64 * scr + 16 * reg * (4 + ovr) then s
  else
    (s.drainIf core (fun _ => true)).modCore core (fun k => { k with split := v &&& 0x3FFF, l1 := [], probes := [] })

/-- R112: the rectangles of two geometries meet. -/
def geomMeets (a b : Dword) : Bool :=
  bit a 18 && bit b 18 &&
  decide (fld a 0 4 ≤ fld b 8 4) && decide (fld b 0 4 ≤ fld a 8 4) && decide (fld a 4 4 ≤ fld b 12 4) && decide (fld b 4 4 ≤ fld a 12 4)

/-- R113: the shape of a geometry passes. -/
def geomOk (v : Dword) : Bool :=
  let w := fld v 8 4 + 1 - fld v 0 4
  let h := fld v 12 4 + 1 - fld v 4 4
  let root := fld v 24 8
  decide (fld v 0 4 ≤ fld v 8 4) && decide (fld v 8 4 ≤ 11) && decide (fld v 4 4 ≤ fld v 12 4) && decide (fld v 12 4 ≤ 11) &&
  (match fld v 16 2 with
   | 1 => decide (3 ≤ w) && decide (3 ≤ h)
   | 2 => decide (2 ≤ w * h) && (h == 1 || h % 2 == 0)
   | 3 => decide (root < 144) && decide (fld v 0 4 ≤ root % 12) && decide (root % 12 ≤ fld v 8 4)
          && decide (fld v 4 4 ≤ root / 12) && decide (root / 12 ≤ fld v 12 4)
   | _ => true)

/-- R113: teams of a partition's VIs are on cores or wait, or their tile-walk commands are at work. -/
def State.partBusy (s : State) (p : Nat) : Bool :=
  s.teams.any (fun e => s.partOf e.2.vi == p)
  || s.grids.any (fun e => s.partOf e.2.vi == p && !e.2.ended && decide (e.2.nextIdx < e.2.rc.teams))
  || s.cores.any (fun e => e.2.started.any (fun c => c.instr.isNone && s.partOf c.vi == p)
       || e.2.deque.any (fun d => !d.2.isEmpty && (match s.grid? d.1 with | some g => s.partOf g.vi == p | none => false)))

/-- R53: the enabled windows of a VI, empty ones left out. -/
def State.frames (s : State) (vi : Nat) : List (Nat × Nat) := (s.windows vi).filter (fun w => decide (w.1 ≤ w.2))

/-- R113: a write of `PART_GEOMp`. -/
def State.geomWrite (s : State) (p : Nat) (v : Dword) : State :=
  let d := s.partd p
  let others := (List.range 64).filter (fun q => q != p)
  let v := v &&& 0xFF07FFFF
  if 64 ≤ p ∨ d.busy ∨ s.partBusy p ∨ !geomOk v
      ∨ others.any (fun q => geomMeets v (s.part q).geom || ((s.partd q).busy && geomMeets v (s.partd q).newGeom)) then s
  else
    let vis := (s.hub.vis.map (fun e => e.1)).filter (fun n => s.partOf n == p)
    let s := s.refill
    (s.modPart p (fun q => { q with geom := q.geom ||| 0x80000 })).modPartd p (fun d =>
      { d with busy := true, newGeom := v, oldFrames := vis.flatMap s.frames })

/-- R113: PART_GEOM_APPLY_DONE: lines are written back and invalidated, and what was to become one is given up; the
member list is the new one, BUSY clears. -/
def State.geomDone (s : State) (p : Nat) : State :=
  let d := s.partd p
  if !d.busy then s
  else
    let mine (vi : Nat) : Bool := s.partOf vi == p
    let s := (s.cores.map (fun e => e.1)).foldl (fun s c => s.drainIf c (fun e => mine e.vi)) s
    let clean (k : Core) : Core := { k with l1 := k.l1.filter (fun l => !mine l.vi) }
    let s := ({ s with cores := s.cores.map (fun (e : Nat × Core) => (e.1, clean e.2)) }).flushLines (fun l => mine l.vi)
    let s := s.modSide (fun d => { d with decodes := d.decodes.filter (fun e => !mine e.vi)
                                          fillPend := d.fillPend.filter (fun f => !mine f.vi) })
    (s.modPart p (fun q => { q with geom := d.newGeom })).modPartd p (fun d => { d with busy := false, oldFrames := [], newGeom := 0 })

/-- R103: two runs of frames share one outside the host aperture. -/
def framesMeet (a b : Nat × Nat) : Bool :=
  let lo := max a.1 b.1
  let hi := min a.2 b.2
  decide (lo ≤ hi) && (decide (lo < 0x40000000) || decide (0x7FFFFFFF < hi))

/-- R103: a write of `VI_PRANGEn_BASE` or `VI_PRANGEn_LIMIT`. -/
def State.prangeWrite (s : State) (vi n : Nat) (limit : Bool) (v : Dword) : State :=
  let c := s.vi vi
  let base := if limit then zget n c.pbase else v &&& 0xFFFFFFFF0001
  let lim := if limit then v &&& 0xFFFFFFFF0000 else zget n c.plimit
  let w := (fld base 16 32, fld lim 16 32)
  let part := s.partOf vi
  let clash :=
    bit base 0 && decide (w.1 ≤ w.2) &&
    ((s.hub.vis.any (fun e => s.partOf e.1 != part && (s.frames e.1).any (framesMeet w)))
     || s.partds.any (fun e => e.1 != part && e.2.busy && e.2.oldFrames.any (framesMeet w)))
  if clash ∨ 8 ≤ n then s
  else s.modVi vi (fun c => { c with pbase := zset n base c.pbase, plimit := zset n lim c.plimit })

/-- R220: the completion record of a grid that is still pending says ABORTED. -/
def EvRec.aborted (e : EvRec) : EvRec :=
  if e.grid.isSome then { e with body := e.body.take 5 ++ [7] ++ e.body.drop 6 } else e

/-- R220: the pending grids of a VI that has been disabled end ABORTED. -/
def State.abortVi (s : State) (vi : Nat) : State :=
  let s := s.modVid vi (fun d => { d with events := d.events.map EvRec.aborted })
  (s.grids.filter (fun e => e.2.vi == vi && !e.2.ended)).foldl (fun s e => (s.freeGrid e.1).endGrid e.1 7) s

/-- R52: a write of `VI_CFG`: a width outside 40 to 56 is kept as it was; clearing EN aborts the pending grids. -/
def State.viCfgWrite (s : State) (vi : Nat) (v : Dword) : State :=
  let old := (s.vi vi).cfg
  let vw := if 40 ≤ fld v 0 6 ∧ fld v 0 6 ≤ 56 then fld v 0 6 else fld old 0 6
  let s := s.modVi vi (fun c => { c with cfg := setFld (v &&& 0x7FFFF7F) 0 6 vw })
  if bit old 6 && !bit v 6 then s.abortVi vi else s

/-! ### The rows -/

/-- TRANSLATION_WALK (R24). -/
def execTranslationWalk (core vi : Nat) (addr : Dword) (s : State) : Host.Outcome State Fault Refusal :=
  event s (fun s => s.translationWalk vi core addr)

/-- HOME_ACCESS_PERFORM (R174). -/
def execHomeAccessPerform (slice : Nat) (s : State) : Host.Outcome State Fault Refusal :=
  event s (fun s => s.homePerform slice)

/-- SC_TICKET_GRANT (R126). -/
def execScTicketGrant (s : State) : Host.Outcome State Fault Refusal :=
  event s (fun s => s.ticketGrant)

/-- LOAD_RETURN (R58). -/
def execLoadReturn (team group : Nat) (s : State) : Host.Outcome State Fault Refusal :=
  event s (fun s => s.modGroup team group Group.loadReturn)

/-- WRITE_BUFFER_DRAIN (R173). -/
def execWriteBufferDrain (core : Nat) (s : State) : Host.Outcome State Fault Refusal :=
  event s (fun s => s.drainOne core)

/-- INVALIDATION_PROBE (R175). -/
def execInvalidationProbe (core : Nat) (s : State) : Host.Outcome State Fault Refusal :=
  event s (fun s => s.modCore core Core.probed)

/-- SLICE_FILL (R44). -/
def execSliceFill (slice : Nat) (addr : Dword) (s : State) : Host.Outcome State Fault Refusal :=
  event s (fun s => s.sliceFill slice addr.toNat)

/-- HOT_COUNTER_INCREMENT (R44). -/
def execHotCounterIncrement (slice : Nat) (s : State) : Host.Outcome State Fault Refusal :=
  event s (fun s => s.hotIncrement slice)

/-- BLOCK_DECODE_COMPLETE (R122). -/
def execBlockDecodeComplete (vi : Nat) (addr : Dword) (s : State) : Host.Outcome State Fault Refusal :=
  event s (fun s => s.blockDecode vi addr)

/-- TOKEN_BUCKET_ADMIT (R118). -/
def execTokenBucketAdmit (queue : Nat) (s : State) : Host.Outcome State Fault Refusal :=
  event s (fun s => s.bucketClk queue)

/-- VI_INVAL (R27). -/
def execViInval (vi : Nat) (v : Dword) (s : State) : Host.Outcome State Fault Refusal :=
  viEvent vi s (fun s => s.invalWrite vi v)

/-- VI_INVAL_COMPLETE (R28). -/
def execViInvalComplete (vi : Nat) (s : State) : Host.Outcome State Fault Refusal :=
  event s (fun s => s.invalDone vi)

/-- HOT_HALVE (R45). -/
def execHotHalve (v : Dword) (s : State) : Host.Outcome State Fault Refusal :=
  regEvent s (fun s => s.hotCtlWrite v)

/-- HOT_HALVE_DONE (R46). -/
def execHotHalveDone (s : State) : Host.Outcome State Fault Refusal :=
  event s (fun s => s.halveDone)

/-- ST_SPLIT_WRITE (R63). -/
def execStSplitWrite (core : Nat) (v : Dword) (s : State) : Host.Outcome State Fault Refusal :=
  regEvent s (fun s => s.splitWrite core v)

/-- PART_GEOM_WRITE (R113). -/
def execPartGeomWrite (part : Nat) (v : Dword) (s : State) : Host.Outcome State Fault Refusal :=
  regEvent s (fun s => s.geomWrite part v)

/-- PART_GEOM_APPLY_DONE (R113). -/
def execPartGeomApplyDone (part : Nat) (s : State) : Host.Outcome State Fault Refusal :=
  event s (fun s => s.geomDone part)

/-- VI_PRANGE_WRITE (R103). -/
def execViPrangeWrite (vi n : Nat) (limit : Bool) (v : Dword) (s : State) : Host.Outcome State Fault Refusal :=
  viEvent vi s (fun s => s.prangeWrite vi n limit v)

/-- VI_CFG_WRITE (R52). -/
def execViCfgWrite (vi : Nat) (v : Dword) (s : State) : Host.Outcome State Fault Refusal :=
  viEvent vi s (fun s => s.viCfgWrite vi v)

/-- TB_WRITE (R116). -/
def execTbWrite (offset : Nat) (v : Dword) (s : State) : Host.Outcome State Fault Refusal :=
  regEvent s (fun s => s.tbWrite offset v)

end Sys2Proof.Machine
end

