-- ==== Sys2Proof/Machine/Registers.lean ====
section
/-! DEFINITION. The control registers: what each reads as and what a write of it does (R10, R18, R27, R32, R45, R51
to R53, R55, R62 to R64, R100, R112, R113, R116, R121, R128, R202, R203, R216, R219, R247, R428 to R433, R453, R458,
R461, R470 to R472, R477, R479, R483, R484). -/

namespace Sys2Proof.Machine

/-! ### The page of a VI (R51, R52, R55, R202, R453, R483) -/

/-- R203, R483: a write of `PEER_CFG`. -/
def ViDyn.peerCfgWrite (d : ViDyn) (v : Dword) : ViDyn :=
  let en := bit d.peerCfg 0
  let lgn := if en then fld d.peerCfg 1 4 else fld v 1 4
  let d := if bit v 0 && !en then { d with peerHead := d.peerTail } else d
  { d with peerCfg := setFld (v &&& 1) 1 4 lgn }

/-- R219: the registers of a ring. -/
def Ring.read (r : Ring) (off : Nat) : Dword :=
  match off with
  | 0x00 => r.base
  | 0x08 => r.cfg ||| w64 (r.lost * 2 ^ 48)
  | 0x10 => r.tail.setWidth 64
  | 0x18 => r.head.setWidth 64
  | _ => 0

/-- What a register of a VI's page reads as. -/
def State.viRead (s : State) (vi off : Nat) : Dword :=
  let c := s.vi vi
  let d := s.vid vi
  if 0x040 ≤ off ∧ off < 0x0C0 then
    (if off % 16 = 0 then zget ((off - 0x40) / 16) c.pbase else if off % 16 = 8 then zget ((off - 0x40) / 16) c.plimit else 0)
  else if 0x200 ≤ off ∧ off < 0x300 then
    let e := kget (0, 0) ((off - 0x200) / 16) d.vlog
    (if off % 16 = 0 then e.1 else if off % 16 = 8 then e.2 else 0)
  else if 0x440 ≤ off ∧ off < 0x4C0 then (d.ring ((off - 0x440) / 32)).read ((off - 0x440) % 32)
  else if 0x640 ≤ off ∧ off < 0x660 then (if off % 8 = 0 then zget ((off - 0x640) / 8) c.brk else 0)
  else if 0x660 ≤ off ∧ off < 0x680 then (if off % 8 = 0 then zget ((off - 0x660) / 8) c.wch else 0)
  else
    match off with
    | 0x000 => c.cfg
    | 0x008 => c.troot
    | 0x010 => c.inval
    | 0x018 => w64 d.hintdeg
    | 0x100 => d.vlogHead.setWidth 64
    | 0x400 => d.lqBase
    | 0x408 => d.lqCfg
    | 0x410 => d.lqTail.setWidth 64
    | 0x418 => d.lqHead.setWidth 64
    | 0x600 => c.trapCfg
    | 0x608 => c.trapEntry
    | 0x610 => c.trapMask
    | 0x618 => c.dbgHalt
    | 0x620 => c.wdog
    | 0x628 => w64 (d.efCount + d.efLast * 2 ^ 32)
    | 0x700 => d.peerBase
    | 0x708 => d.peerCfg
    | 0x710 => d.peerTail.setWidth 64
    | 0x718 => d.peerHead.setWidth 64
    | _ => 0

/-- R219: a write of a ring's register. -/
def State.ringWrite (s : State) (vi k off : Nat) (v : Dword) : State :=
  match off with
  | 0x00 => s.modRing vi k (fun r => { r with base := v &&& 0xFFFFFFFFFFFFE0 })
  | 0x08 => s.evCfg vi k v
  | 0x18 => s.modRing vi k (fun r => { r with head := v.setWidth 32 })
  | _ => s

/-- R167, R483: some write of the host before this one is held, so a write of a tail waits for it (log entry 115). -/
def State.hostWaits (s : State) : Bool :=
  s.held.any (fun m =>
    match m with
    | .access _ _ c _ d => c == 3 && d.isSome
    | .tail _ _ _ => true
    | _ => false)

/-- R203, R483: a write of a tail, of the launch queue or of the peer ring. -/
def State.tailWrite (s : State) (vi off : Nat) (v : Dword) : State :=
  if s.hostWaits then s.later (.tail vi off v)
  else if off = 0x410 then s.lqTailW vi v
  else s.modVid vi (fun d => { d with peerTail := v.setWidth 32 })

/-- A write of a register of a VI's page. -/
def State.viWrite (s : State) (vi off : Nat) (v : Dword) : State :=
  if 64 ≤ vi then s
  else if 0x040 ≤ off ∧ off < 0x0C0 then
    (if off % 16 = 0 then s.prangeWrite vi ((off - 0x40) / 16) false v
     else if off % 16 = 8 then s.prangeWrite vi ((off - 0x40) / 16) true v else s)
  else if 0x440 ≤ off ∧ off < 0x4C0 then s.ringWrite vi ((off - 0x440) / 32) ((off - 0x440) % 32) v
  else if 0x640 ≤ off ∧ off < 0x660 then
    (if off % 8 = 0 then s.modVi vi (fun c => { c with brk := zset ((off - 0x640) / 8) (v &&& 0xFFFFFFFFFFFFFD) c.brk }) else s)
  else if 0x660 ≤ off ∧ off < 0x680 then
    (if off % 8 = 0 then s.modVi vi (fun c => { c with wch := zset ((off - 0x660) / 8) (v &&& 0xFFFFFFFFFFFFFF) c.wch }) else s)
  else
    match off with
    | 0x000 => s.viCfgWrite vi v
    | 0x008 => s.modVi vi (fun c => { c with troot := v &&& 0xFFF0FFFFFFFFE003 })
    | 0x010 => s.invalWrite vi v
    | 0x018 => s.modVid vi (fun d => { d with hintdeg := fld v 0 32 })
    | 0x400 => s.modVid vi (fun d => { d with lqBase := v &&& 0xFFFFFFFFFFFF80 })
    | 0x408 => s.lqCfg vi v
    | 0x410 => s.tailWrite vi off v
    | 0x600 => s.modVi vi (fun c => { c with trapCfg := v &&& 3 })
    | 0x608 => s.modVi vi (fun c => { c with trapEntry := v &&& 0xFFFFFFFFFFFFFC })
    | 0x610 => s.modVi vi (fun c => { c with trapMask := v })
    | 0x618 => s.modVi vi (fun c => { c with dbgHalt := v })
    | 0x620 => s.modVi vi (fun c => { c with wdog := v &&& 0xFFFF })
    | 0x628 => s.modVid vi (fun d => { d with efCount := fld v 0 32 })
    | 0x700 => s.modVid vi (fun d => { d with peerBase := v &&& 0xFFFFFFFFFFFFE0 })
    | 0x708 => s.modVid vi (fun d => d.peerCfgWrite v)
    | 0x710 => s.tailWrite vi off v
    | _ => s

/-! ### The partition manager (R112, R216, R247) -/

/-- R216: the teams of a grid that wait for placement, saved ones among them. -/
def State.waitingTeams (s : State) (g : Grid) : Nat :=
  let ts := s.gridTeams g.id
  let saved := (ts.filter (fun t => t.st == .saved)).length
  if g.rc.graph then saved else g.rc.teams - g.retired - (ts.length - saved)

/-- R216: `DS_WAITp`; counts past their fields wrap (log entry 119). -/
def State.dsWait (s : State) (p : Nat) : Dword :=
  let gs := ((s.grids.map (fun e => e.2)).filter (fun g => g.part == p && !g.ended))
  w64 ((gs.map s.waitingTeams).sum % 2 ^ 24 + gs.length % 256 * 2 ^ 24 + (s.partd p).evict * 2 ^ 32)

/-- What the partition manager's space reads as. -/
def State.pmRead (s : State) (off : Nat) : Dword :=
  if off % 8 ≠ 0 then 0
  else if off < 0x200 then (s.part (off / 8)).geom
  else if 0x800 ≤ off ∧ off < 0xC00 then
    (if off % 16 = 0 then (s.part ((off - 0x800) / 16)).quantum else s.dsWait ((off - 0x800) / 16))
  else if 0xC00 ≤ off ∧ off < 0xE00 then w64 (s.part ((off - 0xC00) / 8)).step
  else if 0x100000 ≤ off ∧ off < 0x140000 then s.viRead ((off - 0x100000) / 4096) (off % 4096)
  else 0

/-- A write in the partition manager's space. -/
def State.pmWrite (s : State) (off : Nat) (v : Dword) : State :=
  if off % 8 ≠ 0 then s
  else if off < 0x200 then s.geomWrite (off / 8) v
  else if 0x800 ≤ off ∧ off < 0xC00 then
    (if off % 16 = 0 ∧ 0x1000 ≤ fld v 0 32 then s.modPart ((off - 0x800) / 16) (fun p => { p with quantum := v &&& 0xFFFFFFFF }) else s)
  else if 0xC00 ≤ off ∧ off < 0xE00 then
    (if bit v 0 then s.modPart ((off - 0xC00) / 8) (fun p => { p with step := fld v 0 8 }) else s)
  else if 0x100000 ≤ off ∧ off < 0x140000 then s.viWrite ((off - 0x100000) / 4096) (off % 4096) v
  else s

/-! ### The memory-control block (R18, R45, R116, R121, R128) -/

/-- What the memory-control block reads as. -/
def State.mcRead (s : State) (off : Nat) : Dword :=
  if off % 8 ≠ 0 then 0
  else if (0x100 ≤ off ∧ off < 0x120) ∨ (0x200 ≤ off ∧ off < 0x400) then s.tbReg off
  else if 0x400 ≤ off ∧ off < 0x420 then zget ((off - 0x400) / 8) s.side.tbStall
  else
    match off with
    | 0x000 => s.hub.hotCtl ||| (if s.sweep.isSome then 0x200 else 0)
    | 0x008 => 0x5FFEA00000
    | 0x010 => w64 (s.hub.fwFirst * 65536)
    | 0x600 => s.ticket
    | _ => 0

/-- A write in the memory-control block. -/
def State.mcWrite (s : State) (off : Nat) (v : Dword) : State :=
  if off = 0 then s.hotCtlWrite v
  else if 0x400 ≤ off ∧ off < 0x420 ∧ off % 8 = 0 then
    s.modSide (fun d => { d with tbStall := zset ((off - 0x400) / 8) v d.tbStall })
  else s.tbWrite off v

/-! ### A core's control block (R62, R64, R100, R461, R471) -/

/-- R64: `ST_STAT`. -/
def State.stStat (s : State) (c : Nat) : Dword :=
  let k := s.core c
  let hs := s.holds c
  let sizes := (freeBlocks k.split hs).map (fun b => b.2)
  let scrmax := if sizes.isEmpty then 15 else clog2 (sizes.foldl max 0 / 4096)
  w64 ((regCapacity k.split - regsHeld hs) + scrmax * 2 ^ 16 + (64 - (hs.map (fun h => h.acc)).sum) * 2 ^ 20 + hs.length * 2 ^ 27)

/-- R461: `CORE_DBG`. -/
def Dbg.read (d : Dbg) : Dword :=
  w64 (b2n d.halt + 2 * b2n d.halted + 4 * d.cause + 2 ^ 8 * d.slot + 2 ^ 12 * d.group + 2 ^ 17 * d.action + 2 ^ 19 * b2n d.step)

/-- What a core's control block reads as. -/
def State.coreRead' (s : State) (c off : Nat) : Dword :=
  let k := s.core c
  match off with
  | 0x040 => k.split
  | 0x048 => s.stStat c
  | 0x050 => w64 (k.corr + k.uncorr * 2 ^ 32)
  | 0x058 => k.dbg.read
  | 0x060 => w64 (k.cadence + k.gfloor * 2 ^ 8)
  | _ => 0

/-- A write in a core's control block. -/
def State.coreWrite (s : State) (c off : Nat) (v : Dword) : State :=
  if 144 ≤ c then s
  else
    match off with
    | 0x040 => s.splitWrite c v
    | 0x050 => s.modCore c (fun k => { k with corr := fld v 0 32, uncorr := fld v 32 32 })
    | 0x058 => s.dbgCtl c v
    | 0x060 => s.cadWrite c v
    | _ => s

/-! ### The display block (R428 to R433) -/

/-- R431: `DISP_STATo`. -/
def DispDyn.stat (d : DispDyn) : Dword :=
  w64 (b2n d.link + 2 * d.rate + 8 * d.lanes + 2 ^ 16 * d.lates + 2 ^ 32 * (kget 0 0 d.frame % 2 ^ 32))

/-- What the display block reads as. -/
def State.dbRead (s : State) (off : Nat) : Dword :=
  if off < 0x200 then
    let o := off / 0x40
    match off % 0x40 with
    | 0x00 => (s.disp o).cfg
    | 0x08 => (s.disp o).time
    | 0x10 => (s.dispd o).stat
    | 0x18 => w64 ((s.dispd o).t0.getD 0)
    | _ => 0
  else if 0x400 ≤ off ∧ off < 0xC00 then
    let v := s.view ((off - 0x400) / 0x80)
    let r := (off - 0x400) % 0x80
    match r with
    | 0x00 => v.cfg
    | 0x08 => v.gaze
    | 0x10 => v.bwx
    | 0x18 => v.bwy
    | 0x20 => v.den
    | _ => if 0x40 ≤ r ∧ r % 8 = 0 then nth 0 v.mat ((r - 0x40) / 4 + 1) ++ nth 0 v.mat ((r - 0x40) / 4) else 0
  else 0

/-- A write in the display block. -/
def State.dbWrite (s : State) (off : Nat) (v : Dword) : State :=
  if off < 0x200 then
    match off % 0x40 with
    | 0x00 => s.dispCfg (off / 0x40) v
    | 0x08 => s.dispTime (off / 0x40) v
    | _ => s
  else if 0x400 ≤ off ∧ off < 0xC00 then s.viewWrite ((off - 0x400) / 0x80) ((off - 0x400) % 0x80) v
  else s

/-! ### The power block (R470, R472) -/

/-- What the power block reads as. -/
def State.pwRead (s : State) (off : Nat) : Dword :=
  if off < 0x20 ∧ off % 8 = 0 then (s.snub (off / 8)).cfg
  else if 0x40 ≤ off ∧ off < 0x60 ∧ off % 8 = 0 then
    let n := s.snub ((off - 0x40) / 8)
    w64 (n.lastW % 2 ^ 16 + n.lastFill % 2 ^ 16 * 2 ^ 16 + n.refused * 2 ^ 32)
  else if off = 0x100 then s.hub.pwrCfg
  else if off = 0x108 then w64 (s.power + (s.gated.map (fun d => 2 ^ (16 + d))).sum)
  else 0

/-- A write in the power block. -/
def State.pwWrite (s : State) (off : Nat) (v : Dword) : State :=
  if off < 0x20 ∧ off % 8 = 0 then s.snubCfg (off / 8) v
  else if off = 0x100 then s.pwrWrite v
  else s

/-! ### The mailbox and the identity registers (R475, R479, R484) -/

/-- Bytes laid into a sparse store. -/
def putAll (m : List (Nat × Byte)) (a : Nat) (bs : List Byte) : List (Nat × Byte) :=
  ((List.range bs.length).zip bs).foldl (fun m e => zset (a + e.1) e.2 m) m

/-- R479: bytes of the command buffer. -/
def State.box (s : State) (o n : Nat) : List Byte := (List.range n).map (fun i => zget (o + i) s.hub.mailbox)

/-- What the command mailbox reads as. -/
def State.ngkRead (s : State) (off : Nat) : Dword :=
  if off < 0x100 then w64 (leNat (s.box (off / 8 * 8) 8))
  else if off = 0x100 then w64 (b2n s.hub.door)
  else if off = 0x108 then w64 s.hub.result
  else 0

/-- R479: a write in the command mailbox: eight bytes of the buffer, or the door. -/
def State.ngkWrite (s : State) (off : Nat) (v : Dword) : State :=
  if off < 0x100 ∧ off % 8 = 0 then { s with hub := { s.hub with mailbox := putAll s.hub.mailbox off (leBytes 8 v.toNat) } }
  else if off = 0x100 ∧ !s.hub.door ∧ bit v 0 then { s with hub := { s.hub with door := true } }
  else s

/-- R477, R484, R517: what the host aperture reads outside the mailbox and the pages of the VIs, by offset. -/
def State.idRead (s : State) (off : Nat) : Dword :=
  match off with
  | 0x000 => w64 (0x01444B5A + Config.stepping % 256 * 2 ^ 32)
  | 0x008 => Config.serial
  | 0x1000 => w64 (s.hub.phase + 8 * s.hub.reason + 2 ^ 16 * (s.hub.svn % 2 ^ 32))
  | 0x20100 => w64 s.hub.gzDrop
  | _ => if 0x20000 ≤ off ∧ off < 0x20100 ∧ off % 16 = 0 then (s.view ((off - 0x20000) / 16)).gaze else 0

/-! ### All of them (R10, R480) -/

/-- R475: the block and the offset in it that an offset of the register aperture names, of those a host access in phase
READY reaches. -/
def apertureBlock (off : Nat) : Option (RegBlock × Nat) :=
  if 0x10000 ≤ off ∧ off < 0x10110 then some (.ngaskaset, off - 0x10000)
  else if 0x100000 ≤ off ∧ off < 0x140000 then some (.vi ((off - 0x100000) / 4096), (off - 0x100000) % 4096)
  else none

/-- What a register reads as. -/
def State.regRead (s : State) (b : RegBlock) (off : Nat) : Dword :=
  match b with
  | .vi n => s.viRead n off
  | .partman => s.pmRead off
  | .memctl => s.mcRead off
  | .core c => s.coreRead' c off
  | .display => s.dbRead off
  | .power => s.pwRead off
  | .ngaskaset => s.ngkRead off
  | .ident => s.idRead off

/-- R10: a write of a register; a reserved bit, a read-only field and an unassigned offset are ignored. -/
def State.regWrite (s : State) (b : RegBlock) (off : Nat) (v : Dword) : State :=
  match b with
  | .vi n => s.viWrite n off v
  | .partman => s.pmWrite off v
  | .memctl => s.mcWrite off v
  | .core c => s.coreWrite c off v
  | .display => s.dbWrite off v
  | .power => s.pwWrite off v
  | .ngaskaset => s.ngkWrite off v
  | .ident => s

/-- R475, R517: what a host read of the register aperture returns; none is an error completion. -/
def State.apertureRead (s : State) (off size : Nat) : Option Dword :=
  if size ≠ 8 ∨ off % 8 ≠ 0 then none
  else if off < 0x10 ∨ off = 0x1000 then some (s.idRead off)
  else if s.hub.phase ≠ 3 then none
  else if (0x20000 ≤ off ∧ off < 0x20100 ∧ off % 16 = 0) ∨ off = 0x20100 then some (s.idRead off)
  else (apertureBlock off).map (fun b => s.regRead b.1 b.2)

/-- R475, R477: what a host write of the register aperture does; none is an error completion, and then it has no
effect.  A write of the gaze mailboxes is dropped and counted there where it is not one that R477 admits. -/
def State.apertureWrite (s : State) (off size : Nat) (v : Dword) : Option State :=
  if s.hub.phase ≠ 3 then none
  else if 0x20000 ≤ off ∧ off < 0x20108 then some (s.gazeWrite (off - 0x20000) size v)
  else if size ≠ 8 ∨ off % 8 ≠ 0 then none
  else (apertureBlock off).map (fun b => s.regWrite b.1 b.2 v)

/-- LQ_TAIL_WRITE (R204). -/
def execLqTailWrite (vi : Nat) (v : Dword) (s : State) : Host.Outcome State Fault Refusal :=
  viEvent vi s (fun s => s.tailWrite vi 0x410 v)

/-- REGISTER_WRITE (R10). -/
def execRegisterWrite (block : RegBlock) (offset : Nat) (v : Dword) (s : State) : Host.Outcome State Fault Refusal :=
  regEvent s (fun s => s.regWrite block offset v)

end Sys2Proof.Machine
end

