-- ==== Sys2Proof/Machine/Host.lean ====
section
/-! DEFINITION. The host and peer ports, the Ngaskaset commands and bring-up (R36 to R38, R475 to R486). -/

namespace Sys2Proof.Machine

/-! ### Accesses from the host and from peers (R476, R482) -/

/-- R144: a held access of the same agent and VI, to bytes that an access reaches: it goes first. -/
def HeldMove.before (m : HeldMove) (vi size cls : Nat) (addr : Dword) : Bool :=
  match m with
  | .access v n c a _ => v == vi && c == cls && decide (a.toNat < addr.toNat + size) && decide (addr.toNat < a.toNat + n)
  | _ => false

/-- R476: an access of a host, or of a peer, to the memory of a VI, unprivileged. -/
def State.portAccess (s : State) (vi size cls : Nat) (addr : Dword) (data : Option (BitVec 128)) : State :=
  if !([1, 2, 4, 8, 16].contains size) || decide (64 ≤ vi) then s
  else
    let m : HeldMove := .access vi size cls addr data
    if s.held.any (fun h => h.before vi size cls addr) then s.later m
    else
    match data with
    | none =>
      let r := s.agentRead { vi := vi, cls := cls } addr size
      match r.1 with
      | .hold => s.later m
      | _ => r.2
    | some v =>
      let r := s.agentWrite { vi := vi, cls := cls } addr (leBytes size v.toNat)
      match r.1 with
      | .hold => s.later m
      | _ => r.2

/-- R482: a port whose link carries requests. -/
def State.peerUp (s : State) (port : Nat) : Option Peer :=
  match kfind port s.hub.peers with
  | some p => if p.remoteBound then some p else none
  | none => none

/-! ### Peer rings (R483) -/

/-- R483: a descriptor breaks its layout. -/
def peerBad (b : List Byte) : Bool :=
  at_ b 0 8 % 16 != 0 || at_ b 8 8 % 16 != 0 || at_ b 16 4 == 0 || at_ b 16 4 % 16 != 0 || decide (32 ≤ at_ b 20 1)
  || !zeroBytes b 21 3 || at_ b 24 8 % 8 != 0

/-- R483: the local half of a copy: the bytes it reads, or the bytes that arrived and are written; a cause where
it fails. -/
def State.peerMove (s : State) (vi : Nat) (d data : List Byte) (ok : Bool) : Eng Unit × State :=
  let n := at_ d 16 4 / 16
  let a := w64 (at_ d 0 8)
  let fault : Nat := (Config.freeWord s.free 0).toNat % 64
  let up : Bool :=
    match s.peerUp (at_ d 20 1 % 16) with
    | some p => p.vi == vi
    | none => false
  if peerBad d || !up || !ok then (.fault fault, s)
  else if at_ d 20 1 / 16 % 2 = 0 then
    let r := s.agentReads { vi := vi, cls := 2 } 16 n a []
    match r.1 with
    | .ok _ => (.ok (), r.2)
    | .fault c => (.fault c, r.2)
    | .hold => (.hold, s)
  else
    let r := (List.range n).foldl (fun (acc : Eng Unit × State) i =>
      match acc.1 with
      | .ok _ => acc.2.agentWrite { vi := vi, cls := 2, pause := i == 0 } (a + w64 (16 * i)) ((data ++ List.replicate (16 * n) 0).drop (16 * i) |>.take 16)
      | _ => acc) (.ok (), s)
    match r.1 with
    | .hold => (.hold, s)
    | x => (x, r.2)

/-- R483: PEER_COPY_COMPLETE: the descriptor at HEAD: its copy, then its FLAG. -/
def State.peerCopy (s : State) (vi : Nat) (data : List Byte) (ok : Bool) : State :=
  let v := s.vid vi
  if !bit v.peerCfg 0 || v.peerHead == v.peerTail || decide (64 ≤ vi) then s
  else
    let held : HeldMove := .copy vi data ok
    let at' := fld v.peerBase 5 51 * 32 + 32 * (v.peerHead.toNat % 2 ^ fld v.peerCfg 1 4)
    let r := s.agentReads { vi := vi, cls := 2 } 16 2 (w64 at') []
    let next (s : State) : State := s.modVid vi (fun d => { d with peerHead := d.peerHead + 1 })
    match r.1 with
    | .hold => s.later held
    | .fault _ => next r.2
    | .ok d =>
      let m := r.2.peerMove vi d data ok
      let flag (x : Dword) (t : State) : State :=
        let w := t.agentWrite { vi := vi, cls := 2, pause := false } (w64 (at_ d 24 8)) (leBytes 8 x.toNat)
        match w.1 with
        | .hold => s.later held
        | _ => next w.2
      match m.1 with
      | .hold => s.later held
      | .ok _ => flag ((v.peerHead + 1).setWidth 64) m.2
      | .fault c => flag (0x8000000000000000 ||| w64 c) m.2

/-! ### Host memory by its address (R481, R485, R486) -/

/-- R16: the physical address of a host address. -/
def hostPa (h : Nat) : Nat := 0x400000000000 + h

/-- A run of host memory lies in the aperture. -/
def hostOk (h n : Nat) : Bool := decide (h + n ≤ 0x400000000000)

/-- Host memory as the controller reads and writes it: never encrypted. -/
def State.hostRead (s : State) (h n : Nat) : List Byte := s.bytesAs 0 (hostPa h) n
def State.hostWrite (s : State) (h : Nat) (bs : List Byte) : State := s.putBytes 0 (hostPa h) bs

/-! ### The mailbox commands (R479 to R482, R485, R486) -/

/-- R479: a command completes: its result, its response, and the interrupt. -/
def State.ngkDone (s : State) (result : Nat) : State :=
  ({ s with hub := { s.hub with result := result, door := false } }).interrupt 256

/-- A response laid into the buffer. -/
def State.respond (s : State) (o : Nat) (bs : List Byte) : State :=
  { s with hub := { s.hub with mailbox := putAll s.hub.mailbox o bs } }

/-- R479: the command that the mailbox is to run, if its code is the one given. -/
def State.ngk (s : State) (code : Nat) (f : State → State) : State :=
  if s.hub.phase = 3 ∧ s.hub.door ∧ leNat (s.box 0 1) = code then f s else s

/-- A field of the buffer. -/
def State.arg (s : State) (o n : Nat) : Nat := leNat (s.box o n)

/-- R480: the block a register command names. -/
def State.argBlock (s : State) : Option RegBlock :=
  match s.arg 1 1 with
  | 0 => some .partman
  | 1 => some .display
  | 2 => if s.arg 2 1 < 144 then some (.core (s.arg 2 1)) else none
  | 3 => some .memctl
  | 4 => some .power
  | _ => none

/-- R480: REG_RD. -/
def State.regRd (s : State) : State :=
  match s.argBlock with
  | none => s.ngkDone 2
  | some b => (s.respond 16 (leBytes 8 (s.regRead b (s.arg 8 8)).toNat)).ngkDone 0

/-- R480: REG_WR. -/
def State.regWr (s : State) : State :=
  match s.argBlock with
  | none => s.ngkDone 2
  | some b => (s.regWrite b (s.arg 8 8) (w64 (s.arg 16 8))).ngkDone 0

/-- R481: KEY_LOAD. -/
def State.keyLoad (s : State) : State :=
  let slot := s.arg 2 2
  let h := s.arg 8 8
  if 4096 ≤ slot ∨ 2 ≤ s.arg 4 1 ∨ 64 ≤ s.arg 5 1 ∨ !hostOk h 1160 then s.ngkDone 2
  else if (kfind slot s.hub.keys).isSome then s.ngkDone 3
  else
    match Config.unwrapPair (s.hostRead h 1160) with
    | none => s.ngkDone 2
    | some pair =>
      let k : KeySlot := { pair := pair, byPart := s.arg 4 1 == 1, owner := s.arg 5 1 }
      ({ s with hub := { s.hub with keys := kset slot k s.hub.keys } }).ngkDone 0

/-- R480: KEY_EMPTY begins; it completes when the slot is empty. -/
def State.keyEmpty (s : State) : State :=
  let slot := s.arg 2 2
  if 4096 ≤ slot then s.ngkDone 2
  else
    match kfind slot s.hub.keys with
    | none => s.ngkDone 0
    | some k => { s with hub := { s.hub with keys := kset slot { k with emptying := true } s.hub.keys } }

/-- R38: an operation under a key pair waits for its ticket (R127). -/
def TickReq.underKey (r : TickReq) (tag : KTag) : Bool :=
  match r.op with
  | some o => (match o.place with | .glob _ _ k _ _ => k == tag | .scr .. => false)
  | none => false

/-- R38: every line under a key pair is written back and invalidated in every slice and L1, and what was to become one
is given up. -/
def State.flushKey (s : State) (tag : KTag) : State :=
  let s := (s.cores.map (fun e => e.1)).foldl (fun s c => s.drainIf c (fun e => e.tag == tag)) s
  let clean (k : Core) : Core := { k with l1 := k.l1.filter (fun l => l.key != tag) }
  (({ s with cores := s.cores.map (fun (e : Nat × Core) => (e.1, clean e.2)) }).flushLines (fun l => l.key == tag)).modSide
    (fun d => { d with decodes := d.decodes.filter (fun e => e.key != tag), fillPend := d.fillPend.filter (fun f => f.key != tag) })

/-- R38: KEY_EMPTY_DONE: every line has been written back and invalidated, and the slot is empty. -/
def State.keyGone (s : State) (slot : Nat) : State :=
  match kfind slot s.hub.keys with
  | none => s
  | some k =>
    if !k.emptying || s.tickReq.any (fun r => r.underKey (s.slotTag slot)) then s
    else
      let s := s.flushKey (s.slotTag slot)
      let s := { s with hub := { s.hub with keys := kdel slot s.hub.keys } }
      if s.hub.door ∧ s.arg 0 1 = 0x11 ∧ s.arg 2 2 = slot then s.ngkDone 0 else s

/-- R486: the 0xC8 bytes of a report that are signed. -/
def State.report (s : State) : List Byte :=
  let geoms := (List.range 64).map (fun p => (s.part p).geom)
  let cfgs := (List.range 64).map (fun v => (s.vi v).cfg)
  let owners := s.hub.keys.flatMap (fun e => [e.1, b2n e.2.byPart, e.2.owner])
  s.box 8 32 ++ sha384 s.hub.running ++ leBytes 4 s.hub.svn ++ leBytes 4 0 ++ leBytes 8 Config.serial.toNat
  ++ sha384 (Config.attestBytes geoms cfgs owners) ++ leBytes 8 s.clock.ns ++ sha384 ((List.range 1184).map Config.encapsKey)

/-- R486: a report with its two signatures: 200, 64 and 3,309 bytes. -/
def signedReport (r : List Byte) : List Byte :=
  r ++ (List.range 64).map (Config.signEd25519 r) ++ (List.range 3309).map (Config.signMldsa r)

/-- R486: ATTEST. -/
def State.attest (s : State) : State :=
  let h := s.arg 40 8
  if hostOk h 3573 then (s.hostWrite h (signedReport s.report)).ngkDone 0 else s.ngkDone 2

/-- R486: ATTEST_KEYS. -/
def State.attestKeys (s : State) : State :=
  let h := s.arg 8 8
  if hostOk h Config.attestKeys.length then (s.hostWrite h Config.attestKeys).ngkDone 0 else s.ngkDone 2

/-- R480: what a debug command names, with its team and group; the result where it names nothing, or a core
that has not halted. -/
def State.dbgTarget (s : State) : Except Nat (Team × Group × Nat × Nat) :=
  match Config.dbgDecode (s.box 0 256) with
  | none => .error 2
  | some (core, slot, g, kind, place) =>
    if !(s.core core).dbg.halted then .error 3
    else
      match (s.teamAt core slot).bind (fun t => (t.group? g).map (fun x => (t, x))) with
      | none => .error 2
      | some (t, x) => .ok (t, x, kind, place)

/-- R480: DBG_RD. -/
def State.debugRd (s : State) : State :=
  match s.dbgTarget with
  | .error e => s.ngkDone e
  | .ok (t, g, kind, place) =>
    match s.dbgGet t g kind place with
    | none => s.ngkDone 2
    | some v => (s.respond 0 ((Config.dbgReply (s.box 0 256) v).take 256)).ngkDone 0

/-- R480: DBG_WR. -/
def State.debugWr (s : State) : State :=
  match s.dbgTarget with
  | .error e => s.ngkDone e
  | .ok (t, g, kind, place) =>
    match s.dbgGet t g kind place with
    | none => s.ngkDone 2
    | some _ => (s.modTeam t.id (fun t => t.dbgSet g.num kind place (Config.dbgValue (s.box 0 256)))).ngkDone 0

/-- R485: why an image is refused: the REASON of the first check that fails. -/
def imageRefused (fused : Nat) (img : List Byte) : Option Nat :=
  if !Config.imageWellFormed img then some 4
  else if !Config.ed25519Ok img then some 1
  else if !Config.mldsaOk img then some 2
  else if Config.imageSvn img < fused then some 3
  else none

/-- R480, R485: FW_UPDATE. -/
def State.fwUpdate (s : State) : State :=
  let h := s.arg 8 8
  let n := s.arg 16 4
  if !hostOk h n then s.ngkDone 2
  else
    let img := s.hostRead h n
    match imageRefused s.hub.fused img with
    | some _ => s.ngkDone 2
    | none => ({ s with hub := { s.hub with image := some img } }).ngkDone 0

/-- R482: PEER_BIND. -/
def State.peerBind (s : State) : State :=
  if 16 ≤ s.arg 2 1 ∨ 64 ≤ s.arg 3 1 ∨ 64 ≤ s.arg 4 1 then s.ngkDone 2
  else
    let port := s.arg 2 1
    let p : Peer := { vi := s.arg 3 1, remoteVi := s.arg 4 1, serial := w64 (s.arg 8 8), remoteBound := s.hub.remoteEnds.contains port }
    ({ s with hub := { s.hub with peers := kset port p s.hub.peers, remoteEnds := sdel port s.hub.remoteEnds } }).ngkDone 0

/-- R480: the assigned command codes. -/
def ngkCodes : List Nat := [0x01, 0x02, 0x10, 0x11, 0x20, 0x21, 0x30, 0x31, 0x40, 0x50]

/-- R480: NGK_UNASSIGNED_COMMAND. -/
def State.ngkBad (s : State) : State :=
  if s.hub.phase = 3 ∧ s.hub.door ∧ !ngkCodes.contains (s.arg 0 1) then s.ngkDone 1 else s

/-- R482: the remote end of a port is bound: the port carries requests once both ends are, whichever is bound first (log
entry 116). -/
def State.remoteBind (s : State) (port : Nat) : State :=
  match kfind port s.hub.peers with
  | some p => { s with hub := { s.hub with peers := kset port { p with remoteBound := true } s.hub.peers } }
  | none => if port < 16 then { s with hub := { s.hub with remoteEnds := sinsert port s.hub.remoteEnds } } else s

/-! ### Bring-up (R484, R485) -/

/-- R478, R484: the phase changes. -/
def State.enter (s : State) (phase reason : Nat) : State :=
  ({ s with hub := { s.hub with phase := phase, reason := reason } }).interrupt 257

/-- What a reset leaves of memory: the host's own, and of the module's any part of what it held. -/
def State.memAfterReset (s : State) : Memory :=
  s.mem.filter (fun c => isHost c.1 || s.pick 15 c.1)

/-- R484: MODULE_RESET: every register at its reset value, phase ROM; what is fused and what is stored for the
next reset stay. -/
def State.moduleReset (s : State) : State :=
  let r := State.reset
  ({ r with
    mem := s.memAfterReset, tags := s.tags.filter (fun e => isHost (64 * e.1)), free := s.free, inbox := s.inbox
    hub := { r.hub with fused := s.hub.fused, image := s.hub.image, irqs := s.hub.irqs } }).enter 1 0

/-- R485: ROM_IMAGE_VERIFY. -/
def State.romVerify (s : State) : State :=
  if s.hub.phase ≠ 1 then s
  else
    let img := s.hub.image.getD Config.romImage
    match imageRefused s.hub.fused img with
    | some r => s.enter 7 r
    | none => { s with hub := { s.hub with running := img, svn := Config.imageSvn img % 2 ^ 32 } }.enter 2 0

/-- R18: where the reserved region may begin: a multiple of 64 MiB below the top, at least one. -/
def fwFirstOk (f : Nat) : Bool := decide (f ≤ 0x5FFC00) && f % 1024 == 0

/-- R484: every block is reset: all but memory, the clock, and what the security controller holds of the firmware. -/
def State.blocksReset (s : State) : State :=
  let r := State.reset
  { r with
    mem := s.mem, tags := s.tags, clock := s.clock, free := s.free, inbox := s.inbox
    hub := { r.hub with fused := s.hub.fused, image := s.hub.image, running := s.hub.running, svn := s.hub.svn,
                        irqs := s.hub.irqs, phase := s.hub.phase } }

/-- R484: FW_BRINGUP_COMPLETE: every block is reset, and READY; or FAILED by memory training (5) or core binding (6). -/
def State.bringup (s : State) (fail first : Nat) : State :=
  if s.hub.phase ≠ 2 then s
  else if fail = 5 ∨ fail = 6 then s.enter 7 fail
  else if fail = 0 ∧ fwFirstOk first then
    let u := s.blocksReset
    { u with hub := { u.hub with fwFirst := first, fused := max u.hub.fused u.hub.svn } }.enter 3 0
  else s

/-! ### The rows -/

/-- HOST_MEMORY_ACCESS (R476). -/
def execHostMemoryAccess (vi size : Nat) (addr : Dword) (data : Option (BitVec 128)) (s : State) :
    Host.Outcome State Fault Refusal :=
  event s (fun s => s.portAccess vi size 3 addr data)

/-- PEER_REQUEST (R482). -/
def execPeerRequest (port size : Nat) (addr : Dword) (data : Option (BitVec 128)) (s : State) :
    Host.Outcome State Fault Refusal :=
  event s (fun s =>
    match s.peerUp port with
    | some p => s.portAccess p.vi size 2 addr data
    | none => s)

/-- PEER_TAIL_WRITE (R483). -/
def execPeerTailWrite (vi : Nat) (v : Dword) (s : State) : Host.Outcome State Fault Refusal :=
  viEvent vi s (fun s => s.tailWrite vi 0x710 v)

/-- PEER_COPY_COMPLETE (R483). -/
def execPeerCopyComplete (vi : Nat) (data : List Byte) (ok : Bool) (s : State) : Host.Outcome State Fault Refusal :=
  event s (fun s => s.peerCopy vi data ok)

/-- REG_RD (R480). -/
def execRegRd (s : State) : Host.Outcome State Fault Refusal :=
  event s (fun s => s.ngk 0x01 State.regRd)

/-- REG_WR (R480). -/
def execRegWr (s : State) : Host.Outcome State Fault Refusal :=
  event s (fun s => s.ngk 0x02 State.regWr)

/-- KEY_LOAD (R481). -/
def execKeyLoad (s : State) : Host.Outcome State Fault Refusal :=
  event s (fun s => s.ngk 0x10 State.keyLoad)

/-- KEY_EMPTY (R480). -/
def execKeyEmpty (s : State) : Host.Outcome State Fault Refusal :=
  event s (fun s => s.ngk 0x11 State.keyEmpty)

/-- KEY_EMPTY_DONE (R38). -/
def execKeyEmptyDone (slot : Nat) (s : State) : Host.Outcome State Fault Refusal :=
  event s (fun s => s.keyGone slot)

/-- ATTEST (R486). -/
def execAttest (s : State) : Host.Outcome State Fault Refusal :=
  event s (fun s => s.ngk 0x20 State.attest)

/-- ATTEST_KEYS (R486). -/
def execAttestKeys (s : State) : Host.Outcome State Fault Refusal :=
  event s (fun s => s.ngk 0x21 State.attestKeys)

/-- DBG_RD (R480). -/
def execDbgRd (s : State) : Host.Outcome State Fault Refusal :=
  event s (fun s => s.ngk 0x30 State.debugRd)

/-- DBG_WR (R480). -/
def execDbgWr (s : State) : Host.Outcome State Fault Refusal :=
  event s (fun s => s.ngk 0x31 State.debugWr)

/-- FW_UPDATE (R485). -/
def execFwUpdate (s : State) : Host.Outcome State Fault Refusal :=
  event s (fun s => s.ngk 0x40 State.fwUpdate)

/-- PEER_BIND (R482). -/
def execPeerBind (s : State) : Host.Outcome State Fault Refusal :=
  event s (fun s => s.ngk 0x50 State.peerBind)

/-- NGK_UNASSIGNED_COMMAND (R480). -/
def execNgkUnassignedCommand (s : State) : Host.Outcome State Fault Refusal :=
  event s (fun s => s.ngkBad)

/-- MODULE_RESET (R484). -/
def execModuleReset (s : State) : Host.Outcome State Fault Refusal :=
  .next { s with free := s.free + 1 }.moduleReset

/-- ROM_IMAGE_VERIFY (R485). -/
def execRomImageVerify (s : State) : Host.Outcome State Fault Refusal :=
  event s (fun s => s.romVerify)

/-- FW_BRINGUP_COMPLETE (R484). -/
def execFwBringupComplete (fail first : Nat) (s : State) : Host.Outcome State Fault Refusal :=
  event s (fun s => s.bringup fail first)

/-- PEER_REMOTE_BIND (R482). -/
def execPeerRemoteBind (port : Nat) (s : State) : Host.Outcome State Fault Refusal :=
  event s (fun s => s.remoteBind port)

end Sys2Proof.Machine
end

