-- ==== Sys2Proof/Machine/Scalar.lean ====
section
/-! DEFINITION. Scalar instructions: performed once for each home group that the fragment carries and
that has an active lane (R319, R320). -/

namespace Sys2Proof.Machine

/-- R320: a scalar instruction of two sources. -/
def Ctx.scal2 (c : Ctx) (f : Ty → Dword → Dword → Dword) (s : State) : State :=
  let n := tyRegs c.o.ty
  c.perScal n (fun gc => f c.o.ty (c.sA gc n) (c.sB gc n)) s

/-- R320: a scalar shift; the amount is 32 bits. -/
def Ctx.scalShift (c : Ctx) (f : Ty → Dword → Nat → Dword) (s : State) : State :=
  let n := tyRegs c.o.ty
  c.perScal n (fun gc => f c.o.ty (c.sA gc n) ((c.sB gc 1).toNat % 2 ^ 32)) s

/-- R320: `SSHR` is arithmetic for signed types. -/
def sshrVal (t : Ty) (a : Dword) (k : Nat) : Dword :=
  if tySigned t then shraVal t a k else shrlVal t a k

/-- R320: `SSEL`. -/
def Ctx.sselBody (c : Ctx) (s : State) : State :=
  let n := tyRegs c.o.ty
  c.perScal n (fun gc => iselVal c.o.ty (c.sA gc n) (c.sB gc n) (c.sC gc n)) s

/-- R320: `SCMP`: the result goes to the predicate bit of every active lane. -/
def Ctx.scmpBody (c : Ctx) (cc : Cc) (s : State) : State :=
  let n := tyRegs c.o.ty
  c.perPred (fun gc _ => icmpVal c.o.ty cc (c.sA gc n) (c.sB gc n)) s

/-- SMOV_SHORT (R320). -/
def execSmovShort (o : SOps) (s : State) : Host.Outcome State Fault Refusal :=
  issue (.smovShort o) s (fun c => c.perScal (tyRegs c.o.ty) (fun gc => c.sA gc (tyRegs c.o.ty)))

/-- SMOV (R320). -/
def execSmov (o : XOps) (s : State) : Host.Outcome State Fault Refusal :=
  issue (.smov o) s (fun c => c.perScal (tyRegs c.o.ty) (fun gc => c.sA gc (tyRegs c.o.ty)))

/-- SMOVI_SHORT (R320). -/
def execSmoviShort (o : SOps) (s : State) : Host.Outcome State Fault Refusal :=
  issue (.smoviShort o) s (fun c => c.perScal (tyRegs c.o.ty) (fun _ => c.imm))

/-- SMOVI (R320). -/
def execSmovi (o : XOps) (s : State) : Host.Outcome State Fault Refusal :=
  issue (.smovi o) s (fun c => c.perScal (tyRegs c.o.ty) (fun _ => c.imm))

/-- SADD_SHORT (R320). -/
def execSaddShort (o : SOps) (s : State) : Host.Outcome State Fault Refusal :=
  issue (.saddShort o) s (fun c => c.scal2 iaddVal)

/-- SADD (R320). -/
def execSadd (o : XOps) (s : State) : Host.Outcome State Fault Refusal :=
  issue (.sadd o) s (fun c => c.scal2 iaddVal)

/-- SSUB_SHORT (R320). -/
def execSsubShort (o : SOps) (s : State) : Host.Outcome State Fault Refusal :=
  issue (.ssubShort o) s (fun c => c.scal2 isubVal)

/-- SSUB (R320). -/
def execSsub (o : XOps) (s : State) : Host.Outcome State Fault Refusal :=
  issue (.ssub o) s (fun c => c.scal2 isubVal)

/-- SMUL_SHORT (R320). -/
def execSmulShort (o : SOps) (s : State) : Host.Outcome State Fault Refusal :=
  issue (.smulShort o) s (fun c => c.scal2 imulVal)

/-- SMUL (R320). -/
def execSmul (o : XOps) (s : State) : Host.Outcome State Fault Refusal :=
  issue (.smul o) s (fun c => c.scal2 imulVal)

/-- SAND_SHORT (R320). -/
def execSandShort (o : SOps) (s : State) : Host.Outcome State Fault Refusal :=
  issue (.sandShort o) s (fun c => c.scal2 andVal)

/-- SAND (R320). -/
def execSand (o : XOps) (s : State) : Host.Outcome State Fault Refusal :=
  issue (.sand o) s (fun c => c.scal2 andVal)

/-- SOR_SHORT (R320). -/
def execSorShort (o : SOps) (s : State) : Host.Outcome State Fault Refusal :=
  issue (.sorShort o) s (fun c => c.scal2 orVal)

/-- SOR (R320). -/
def execSor (o : XOps) (s : State) : Host.Outcome State Fault Refusal :=
  issue (.sor o) s (fun c => c.scal2 orVal)

/-- SXOR_SHORT (R320). -/
def execSxorShort (o : SOps) (s : State) : Host.Outcome State Fault Refusal :=
  issue (.sxorShort o) s (fun c => c.scal2 xorVal)

/-- SXOR (R320). -/
def execSxor (o : XOps) (s : State) : Host.Outcome State Fault Refusal :=
  issue (.sxor o) s (fun c => c.scal2 xorVal)

/-- SSHL_SHORT (R320). -/
def execSshlShort (o : SOps) (s : State) : Host.Outcome State Fault Refusal :=
  issue (.sshlShort o) s (fun c => c.scalShift shlVal)

/-- SSHL (R320). -/
def execSshl (o : XOps) (s : State) : Host.Outcome State Fault Refusal :=
  issue (.sshl o) s (fun c => c.scalShift shlVal)

/-- SSHR_SHORT (R320). -/
def execSshrShort (o : SOps) (s : State) : Host.Outcome State Fault Refusal :=
  issue (.sshrShort o) s (fun c => c.scalShift sshrVal)

/-- SSHR (R320). -/
def execSshr (o : XOps) (s : State) : Host.Outcome State Fault Refusal :=
  issue (.sshr o) s (fun c => c.scalShift sshrVal)

/-- SCMP (R320). -/
def execScmp (cc : Cc) (o : XOps) (s : State) : Host.Outcome State Fault Refusal :=
  issue (.scmp cc o) s (fun c => c.scmpBody cc)

/-- SSEL (R320). -/
def execSsel (o : XOps) (s : State) : Host.Outcome State Fault Refusal :=
  issue (.ssel o) s (fun c => c.sselBody)

end Sys2Proof.Machine
end

