-- ==== Sys2Proof/Machine/Select.lean ====
section
/-! DEFINITION. Fragment selection and ageing (R186, R217, R218). -/

namespace Sys2Proof.Machine

/-- R186: the regions that a fragment stands in, the deepest first, with the rank of its path in each; on fuel,
for the entries of a team are finitely many. -/
def Team.chain (t : Team) : Nat → Option Nat → Nat → List (Nat × Nat)
  | 0, _, _ => []
  | _ + 1, none, _ => []
  | n + 1, some r, k =>
    (r, k) :: (match t.region? r with
      | some x => Team.chain t n x.parent x.ppath
      | none => [])

/-- R186: the first fragment has path precedence over the second, decided at their deepest common region. -/
def Team.precedes (t : Team) (f h : Frag) : Bool :=
  let n := t.regions.length + 1
  let b := t.chain n h.region h.rank
  match (t.chain n f.region f.rank).findSome? (fun e => (kfind e.1 b).map (fun k => (e.2, k))) with
  | some (x, y) => decide (x < y)
  | none => false

/-- R174, R190: a fragment whose next instruction cannot issue in this clk: it could not before, or a `.sc` instruction
of a group it carries waits for its tickets. -/
def Team.isBlocked (t : Team) (f : Frag) : Bool :=
  f.blocked || f.lanes.any (fun e => match t.group? e.1 with | some g => g.sc.isSome | none => false)

/-- R190, R217: a fragment is READY on a way, not BLOCKED, and its team issues.  Whether its next instruction can issue
in this clk the turn of the agents has found out before (`State.tryWay`). -/
def State.readyOn (s : State) (way : Nat) (t : Team) (f : Frag) : Bool :=
  f.way == way && f.st == .ready && !t.isBlocked f && !s.barred t

/-- R217, R218, R473: the candidates of a way, those that are denied issue removed. -/
def State.candidates (s : State) (core way : Nat) : List (Team × Frag) :=
  (s.teams.filter (fun (e : Nat × Team) => e.2.core == core)).flatMap (fun e =>
    (e.2.frags.filter (fun f => s.readyOn way e.2 f && !s.denied e.2 f)).map (fun f => (e.2, f)))

/-- R218 key 4: the fragment issued on this way in the previous clk, and has not just yielded (R331). -/
def State.justIssued (s : State) (core way : Nat) (t : Team) (f : Frag) : Bool :=
  let k := s.core core
  kfind way k.last == some (t.id, f.id) && kfind way k.lastClk == some (s.clock.clk - 1) && decide (0 < s.clock.clk)
  && !f.yielded

/-- R218: the keys of a candidate, in order; a smaller list goes first. -/
def State.selectKeys (s : State) (core way : Nat) (all : List (Team × Frag)) (c : Team × Frag) : List Nat :=
  [b2n (!c.1.deadline), b2n (!c.2.promoted), if c.2.promoted then 2 ^ 64 - c.2.starve else 0,
   b2n (all.any (fun h => h.1.id == c.1.id && c.1.precedes h.2 c.2)), b2n (!s.justIssued core way c.1 c.2),
   c.1.stamp, (c.2.lanes.foldl (fun n e => min n e.1) 64)]

/-- Lists in dictionary order. -/
def keysLt : List Nat → List Nat → Bool
  | [], [] => false
  | [], _ :: _ => true
  | _ :: _, [] => false
  | a :: l, b :: r => decide (a < b) || (a == b && keysLt l r)

/-- The element whose keys come first. -/
def keysLeast {α : Type} (keys : α → List Nat) : List α → Option α
  | [] => none
  | x :: xs =>
    match keysLeast keys xs with
    | none => some x
    | some y => if keysLt (keys y) (keys x) then some y else some x

/-- R218: the fragment that a way selects. -/
def State.selected (s : State) (core way : Nat) : Option (Team × Frag) :=
  let all := s.candidates core way
  keysLeast (s.selectKeys core way all) all

/-- R217, R218: WAY_ISSUE_SELECT: a way selects a fragment in this clk, once, and the other candidates age. -/
def State.select (s : State) (core way : Nat) : State :=
  if s.cur.isSome || kfind way (s.core core).lastClk == some s.clock.clk then s
  else
    match s.selected core way with
    | none => s
    | some (t, f) =>
      let others := ((s.candidates core way).filter (fun c => c.1.id != t.id || c.2.id != f.id)).map (fun c => (c.1.id, c.2.id))
      { ((s.pass others true).modCore core (fun k =>
          { k with last := kdel way k.last, lastClk := kset way s.clock.clk k.lastClk,
                   was := kset way { last := kfind way k.last, lastClk := kfind way k.lastClk, others := others,
                                     nt := k.nt.contains way, idle := kfind way k.idle } k.was }))
        with cur := some { team := t.id, frag := f.id } }

/-- R217: FRAGMENT_PROMOTE. -/
def State.promote (s : State) (tid fid : Nat) : State :=
  s.modTeam tid (fun t =>
    match t.frag? fid with
    | some f => if 256 ≤ f.starve then t.setFrag { f with promoted := true } else t
    | none => t)

/-! ### The rows -/

/-- WAY_ISSUE_SELECT (R218). -/
def execWayIssueSelect (core way : Nat) (s : State) : Host.Outcome State Fault Refusal :=
  event s (fun s => s.select core way)

/-- FRAGMENT_PROMOTE (R217). -/
def execFragmentPromote (team frag : Nat) (s : State) : Host.Outcome State Fault Refusal :=
  event s (fun s => s.promote team frag)

end Sys2Proof.Machine
end

