-- ==== Sys2Proof/Machine/Splice.lean ====
section
/-! DEFINITION. The splice of a team: `SPLICE`, the meeting, the drain, the scrub and the growth (R97, R223 to
R231, R420). -/

namespace Sys2Proof.Machine

/-- R225: `SPLICE` and `SPLICE.REL`: each group arrives and waits. -/
def Ctx.spliceBody (c : Ctx) (rel : Bool) (s : State) : State :=
  let j := fld c.o.d 0 3
  let nsucc := match s.grid? c.team.grid with | some g => g.succs.length | none => 0
  c.runGroups (fun _ s =>
    if c.frag.region.isSome then (.trap { cause := .joinMismatch }, s)
    else if nsucc ≤ j then (.trap { cause := .spliceDenied }, s)
    else
      (.ok () { c.again with st := .splice j rel },
        s.modTeam c.team.id (fun t => if t.splice = .none then { t with splice := .gathering } else t)))
    (fun _ s => s) s

/-- R225: the entry a group has named at the meeting. -/
def Team.spliceAt (t : Team) (g : Nat) : Option (Nat × Bool) :=
  t.frags.findSome? (fun f =>
    match f.st with
    | .splice j rel => if f.lanes.any (fun e => e.1 == g && e.2 != 0) then some (j, rel) else none
    | _ => none)

/-- R226: the shape rule. -/
def Team.shapeOk (t : Team) (x : Succ) : Bool :=
  let wp := ceilDiv t.regsN 8
  let ws := ceilDiv x.regs 8
  let bp := t.scrSize / 4096
  let bs := scrBlock x.scr / 4096
  x.tlanes == t.lanes
  && (List.range 32).all (fun k => !bit x.regmask k || (decide (k < wp) && decide (k < ws)))
  && (x.scrcount == 0 || (decide (x.scrfirst + x.scrcount ≤ bp) && decide (x.scrfirst + x.scrcount ≤ bs)))
  && (!x.privi || decide (t.privN ≤ ceilDiv x.priv 256))
  && (List.range 64).all (fun k => !bit x.accmask k || (decide (k < t.accN) && decide (k < x.acc)))

/-- R225: every arrived group stops for a cause, with the mask of the groups that arrived. -/
def State.spliceFail (s : State) (tid : Nat) (cause : Cause) (mask : Word) : State :=
  match s.team? tid with
  | none => s
  | some t =>
    (t.frags.filter (fun f => match f.st with | .splice _ _ => true | _ => false)).foldl
      (fun s f => s.trapAll tid f f.word s.free { cause := cause, mask0 := mask })
      (s.setTeam { t with splice := .none })

/-- R225: SPLICE_MEETING_COMPLETE: every group has arrived or finished. -/
def State.spliceMeet (s : State) (tid : Nat) : State :=
  match s.team? tid with
  | none => s
  | some t =>
    let arrived := t.groups.filterMap (fun e => (t.spliceAt e.1).map (fun x => (e.1, x)))
    let done (g : Nat × Group) : Bool := g.2.finished || (t.spliceAt g.1).isSome
    if t.splice != .gathering || t.dead || !t.onCore || arrived.isEmpty || !t.groups.all done then s
    else
      let mask := maskOf (fun g => arrived.any (fun a => a.1 == g))
      match arrived with
      | [] => s
      | (_, j, rel) :: r =>
        if t.groups.any (fun e => e.2.finished) || r.any (fun a => a.2 != (j, rel)) then s.spliceFail tid .splicePartial mask
        else
          match s.successor t j with
          | none => s.spliceFail tid .spliceDenied mask
          | some x =>
            if t.shapeOk x then s.setTeam { t with splice := .draining j rel } else s.spliceFail tid .spliceShape mask

/-- R227: a head command of a draining team that no group can resolve any more. -/
def State.drainStuck (s : State) (t : Team) (q : Nat) : Option Cmd :=
  match (s.core t.core).queue q with
  | [] => none
  | c :: _ =>
    if c.team != t.id then none
    else
      match t.head c, c.sbar with
      | .startHeld, some (b, _) =>
        let need := match kfind b t.bars with | some bar => bar.count - bar.arr | none => 1
        if s.startedAt t b < need then some c else none
      | .guardHeld, _ => if t.guard (c.guard.getD 0) = .pending then some c else none
      | _, _ => none

/-- R227: nothing of the predecessor is left to complete. -/
def State.drained (s : State) (t : Team) : Bool :=
  let k := s.core t.core
  let mine (l : List Cmd) : Bool := l.any (fun c => c.team == t.id)
  !mine k.started && !mine k.qmx && !mine k.qcp && t.saved.isEmpty && t.reqs.isEmpty && t.reqDone.isEmpty
  && t.reads.isEmpty && t.subs.all (fun e => e.2.reserved == 0) && !s.tickReq.any (fun r => r.team == t.id)

/-- R228: a group at SCRUBBING. -/
def Group.scrub (g : Group) (t : Team) (x : Succ) : Group :=
  let ws := ceilDiv x.regs 8
  let keep (k : Nat) : Bool := decide (k / 256 < ws) && bit x.regmask (k / 256)
  let fmt := match t.frags.find? (fun f => f.lanes.any (fun e => e.1 == g.num)) with | some f => f.fmt | none => g.fmt
  { num := g.num, way := g.way, exec := startLanes x.tlanes g.num, launched := startLanes x.tlanes g.num,
    win := min g.win ws, regs := g.regs.filter (fun e => keep e.1),
    opfRegs := [g.regs.filter (fun e => keep e.1)], bound := g.bound.filter (fun k => keep (256 * k)),
    regPoison := g.regPoison.filter keep, fmt := if x.fmti then fmt else 0,
    priv := if x.privi then g.priv else [], privW := if x.privi then g.privW else [],
    privPoison := if x.privi then g.privPoison else [], perf := g.perf }

/-- R228: a team at SCRUBBING: what the successor does not inherit is unbound or unwritten. -/
def Team.scrub (t : Team) (x : Succ) (j : Nat) (rel : Bool) : Team :=
  let inScr (o : Nat) : Bool := decide (x.scrfirst ≤ o / 4096) && decide (o / 4096 < x.scrfirst + x.scrcount)
  let bs := min t.scrSize (scrBlock x.scr)
  { t with
    splice := .growing j rel
    groups := t.groups.map (fun e => (e.1, e.2.scrub t x)), frags := [], regions := [], nextRegion := 0
    regsN := min t.regsN (8 * ceilDiv x.regs 8), privN := min t.privN (ceilDiv x.priv 256), accN := min t.accN x.acc
    barsN := min t.barsN x.bars, scrSize := bs
    scr := t.scr.filter (fun e => inScr e.1), scrW := t.scrW.filter (fun g => inScr (4096 * g))
    scrPoison := t.scrPoison.filter (fun w => inScr (8 * w))
    acc := t.acc.filter (fun e => bit x.accmask (e.1 / 16384)), accW := t.accW.filter (fun r => bit x.accmask (r / 128))
    accPoison := t.accPoison.filter (fun e => bit x.accmask (e / 16384)), accOld := []
    bars := [], guards := [], tagwin := 0, binding := none, subs := [], qsat := 0, qnan := 0, fsat := 0 }

/-- R227, R231: SPLICE_DRAIN_DONE: commands that nobody can resolve are discarded; when all is done, SCRUBBING.  On a
halted core the drain lasts; a group that a WATCHDOG has stopped meanwhile is scrubbed with the others (log entry 113). -/
def State.spliceDrain (s : State) (tid : Nat) : State :=
  match s.team? tid with
  | none => s
  | some t =>
    match t.splice with
    | .draining j rel =>
      if t.dead || (s.core t.core).dbg.halt then s
      else
        match (s.drainStuck t 0).map (fun c => (0, c)) |>.orElse (fun _ => (s.drainStuck t 1).map (fun c => (1, c))) with
        | some (q, c) => ((s.modCore t.core (fun k => k.setQueue q ((k.queue q).drop 1))).inTurn t.core c
            (fun s => s.deliver c 1 0 0)).heads t.core
        | none =>
          if !s.drained t then s
          else
            match s.successor t j with
            | none => s
            | some x =>
              let s := if rel then s.drainVi t.core t.vi else s
              (s.setTeam (t.scrub x j rel)).modCore t.core
                (fun k => { k with planes := k.planes.filter (fun p => p.2.owner != tid) })
    | _ => s

/-- R164, R229: SPLICE_GROWTH_RETRY: a held slot grows in place and its successor starts, where every resource fits; its
groups see what the predecessor and its commands wrote. -/
def State.spliceGrow (s : State) (tid : Nat) : State :=
  match s.team? tid with
  | none => s
  | some t =>
    match t.splice with
    | .growing j _ =>
      if t.dead || t.st != .resident then s
      else
        match s.successor t j with
        | none => s
        | some x =>
          let others := ((s.teamsOn t.core).filter (fun u => u.id != tid)).map Team.hold
          match growTo (s.core t.core).split others t.hold { x.demand with offs := t.offsets } with
          | none => s
          | some h => (s.setTeam (t.startSuccessor x j h)).dropL1 t.core t.vi
    | _ => s

/-! ### The rows -/

/-- SPLICE_SHORT (R225). -/
def execSpliceShort (o : SOps) (s : State) : Host.Outcome State Fault Refusal :=
  issue (.spliceShort o) s (fun c => c.spliceBody false)

/-- SPLICE (R225). -/
def execSplice (o : XOps) (s : State) : Host.Outcome State Fault Refusal :=
  issue (.splice o) s (fun c => c.spliceBody false)

/-- SPLICE_REL_SHORT (R225). -/
def execSpliceRelShort (o : SOps) (s : State) : Host.Outcome State Fault Refusal :=
  issue (.spliceRelShort o) s (fun c => c.spliceBody true)

/-- SPLICE_REL (R225). -/
def execSpliceRel (o : XOps) (s : State) : Host.Outcome State Fault Refusal :=
  issue (.spliceRel o) s (fun c => c.spliceBody true)

/-- SPLICE_MEETING_COMPLETE (R225). -/
def execSpliceMeetingComplete (team : Nat) (s : State) : Host.Outcome State Fault Refusal :=
  event s (fun s => s.spliceMeet team)

/-- SPLICE_DRAIN_DONE (R227). -/
def execSpliceDrainDone (team : Nat) (s : State) : Host.Outcome State Fault Refusal :=
  event s (fun s => s.spliceDrain team)

/-- SPLICE_GROWTH_RETRY (R229). -/
def execSpliceGrowthRetry (team : Nat) (s : State) : Host.Outcome State Fault Refusal :=
  event s (fun s => s.spliceGrow team)

end Sys2Proof.Machine
end

