-- ==== Sys2Proof/Machine/Dispatch.lean ====
section
/-! DEFINITION. One arm for each constructor of `Instr`: a direct call of its meaning. -/

namespace Sys2Proof.Machine

def exec (i : Instr) (s : State) : Host.Outcome State Fault Refusal :=
  match i with
  | .iaddShort o => Sys2Proof.Machine.execIaddShort o s
  | .iadd o => Sys2Proof.Machine.execIadd o s
  | .isubShort o => Sys2Proof.Machine.execIsubShort o s
  | .isub o => Sys2Proof.Machine.execIsub o s
  | .imulShort o => Sys2Proof.Machine.execImulShort o s
  | .imul o => Sys2Proof.Machine.execImul o s
  | .imulhShort o => Sys2Proof.Machine.execImulhShort o s
  | .imulh o => Sys2Proof.Machine.execImulh o s
  | .imad o => Sys2Proof.Machine.execImad o s
  | .imadw o => Sys2Proof.Machine.execImadw o s
  | .idivShort o => Sys2Proof.Machine.execIdivShort o s
  | .idiv o => Sys2Proof.Machine.execIdiv o s
  | .iminShort o => Sys2Proof.Machine.execIminShort o s
  | .imin o => Sys2Proof.Machine.execImin o s
  | .imaxShort o => Sys2Proof.Machine.execImaxShort o s
  | .imax o => Sys2Proof.Machine.execImax o s
  | .iabsShort o => Sys2Proof.Machine.execIabsShort o s
  | .iabs o => Sys2Proof.Machine.execIabs o s
  | .inegShort o => Sys2Proof.Machine.execInegShort o s
  | .ineg o => Sys2Proof.Machine.execIneg o s
  | .notShort o => Sys2Proof.Machine.execNotShort o s
  | .not o => Sys2Proof.Machine.execNot o s
  | .popcShort o => Sys2Proof.Machine.execPopcShort o s
  | .popc o => Sys2Proof.Machine.execPopc o s
  | .clzShort o => Sys2Proof.Machine.execClzShort o s
  | .clz o => Sys2Proof.Machine.execClz o s
  | .brevShort o => Sys2Proof.Machine.execBrevShort o s
  | .brev o => Sys2Proof.Machine.execBrev o s
  | .andShort o => Sys2Proof.Machine.execAndShort o s
  | .and o => Sys2Proof.Machine.execAnd o s
  | .orShort o => Sys2Proof.Machine.execOrShort o s
  | .or o => Sys2Proof.Machine.execOr o s
  | .xorShort o => Sys2Proof.Machine.execXorShort o s
  | .xor o => Sys2Proof.Machine.execXor o s
  | .andnShort o => Sys2Proof.Machine.execAndnShort o s
  | .andn o => Sys2Proof.Machine.execAndn o s
  | .shlShort o => Sys2Proof.Machine.execShlShort o s
  | .shl o => Sys2Proof.Machine.execShl o s
  | .shrlShort o => Sys2Proof.Machine.execShrlShort o s
  | .shrl o => Sys2Proof.Machine.execShrl o s
  | .shraShort o => Sys2Proof.Machine.execShraShort o s
  | .shra o => Sys2Proof.Machine.execShra o s
  | .rotlShort o => Sys2Proof.Machine.execRotlShort o s
  | .rotl o => Sys2Proof.Machine.execRotl o s
  | .bfx o => Sys2Proof.Machine.execBfx o s
  | .bfi o => Sys2Proof.Machine.execBfi o s
  | .icmp cc o => Sys2Proof.Machine.execIcmp cc o s
  | .isel o => Sys2Proof.Machine.execIsel o s
  | .leaShort o => Sys2Proof.Machine.execLeaShort o s
  | .lea o => Sys2Proof.Machine.execLea o s
  | .faddShort o => Sys2Proof.Machine.execFaddShort o s
  | .fadd o => Sys2Proof.Machine.execFadd o s
  | .fsubShort o => Sys2Proof.Machine.execFsubShort o s
  | .fsub o => Sys2Proof.Machine.execFsub o s
  | .fmulShort o => Sys2Proof.Machine.execFmulShort o s
  | .fmul o => Sys2Proof.Machine.execFmul o s
  | .ffma o => Sys2Proof.Machine.execFfma o s
  | .fminShort o => Sys2Proof.Machine.execFminShort o s
  | .fmin o => Sys2Proof.Machine.execFmin o s
  | .fmaxShort o => Sys2Proof.Machine.execFmaxShort o s
  | .fmax o => Sys2Proof.Machine.execFmax o s
  | .fcmp cc o => Sys2Proof.Machine.execFcmp cc o s
  | .fdivShort o => Sys2Proof.Machine.execFdivShort o s
  | .fdiv o => Sys2Proof.Machine.execFdiv o s
  | .fabsShort o => Sys2Proof.Machine.execFabsShort o s
  | .fabs o => Sys2Proof.Machine.execFabs o s
  | .fnegShort o => Sys2Proof.Machine.execFnegShort o s
  | .fneg o => Sys2Proof.Machine.execFneg o s
  | .frcpShort o => Sys2Proof.Machine.execFrcpShort o s
  | .frcp o => Sys2Proof.Machine.execFrcp o s
  | .frsqShort o => Sys2Proof.Machine.execFrsqShort o s
  | .frsq o => Sys2Proof.Machine.execFrsq o s
  | .fsqrtShort o => Sys2Proof.Machine.execFsqrtShort o s
  | .fsqrt o => Sys2Proof.Machine.execFsqrt o s
  | .fexp2Short o => Sys2Proof.Machine.execFexp2Short o s
  | .fexp2 o => Sys2Proof.Machine.execFexp2 o s
  | .flog2Short o => Sys2Proof.Machine.execFlog2Short o s
  | .flog2 o => Sys2Proof.Machine.execFlog2 o s
  | .fsinShort o => Sys2Proof.Machine.execFsinShort o s
  | .fsin o => Sys2Proof.Machine.execFsin o s
  | .fcosShort o => Sys2Proof.Machine.execFcosShort o s
  | .fcos o => Sys2Proof.Machine.execFcos o s
  | .froundShort o => Sys2Proof.Machine.execFroundShort o s
  | .fround o => Sys2Proof.Machine.execFround o s
  | .fclassShort o => Sys2Proof.Machine.execFclassShort o s
  | .fclass o => Sys2Proof.Machine.execFclass o s
  | .cvt o => Sys2Proof.Machine.execCvt o s
  | .hfma2 o => Sys2Proof.Machine.execHfma2 o s
  | .dot4 o => Sys2Proof.Machine.execDot4 o s
  | .movShort o => Sys2Proof.Machine.execMovShort o s
  | .mov o => Sys2Proof.Machine.execMov o s
  | .moviShort o => Sys2Proof.Machine.execMoviShort o s
  | .movi o => Sys2Proof.Machine.execMovi o s
  | .bcastShort o => Sys2Proof.Machine.execBcastShort o s
  | .bcast o => Sys2Proof.Machine.execBcast o s
  | .movsShort o => Sys2Proof.Machine.execMovsShort o s
  | .movs o => Sys2Proof.Machine.execMovs o s
  | .shfl mode o => Sys2Proof.Machine.execShfl mode o s
  | .vote op o => Sys2Proof.Machine.execVote op o s
  | .redux op o => Sys2Proof.Machine.execRedux op o s
  | .scan op excl o => Sys2Proof.Machine.execScan op excl o s
  | .smovShort o => Sys2Proof.Machine.execSmovShort o s
  | .smov o => Sys2Proof.Machine.execSmov o s
  | .smoviShort o => Sys2Proof.Machine.execSmoviShort o s
  | .smovi o => Sys2Proof.Machine.execSmovi o s
  | .saddShort o => Sys2Proof.Machine.execSaddShort o s
  | .sadd o => Sys2Proof.Machine.execSadd o s
  | .ssubShort o => Sys2Proof.Machine.execSsubShort o s
  | .ssub o => Sys2Proof.Machine.execSsub o s
  | .smulShort o => Sys2Proof.Machine.execSmulShort o s
  | .smul o => Sys2Proof.Machine.execSmul o s
  | .sandShort o => Sys2Proof.Machine.execSandShort o s
  | .sand o => Sys2Proof.Machine.execSand o s
  | .sorShort o => Sys2Proof.Machine.execSorShort o s
  | .sor o => Sys2Proof.Machine.execSor o s
  | .sxorShort o => Sys2Proof.Machine.execSxorShort o s
  | .sxor o => Sys2Proof.Machine.execSxor o s
  | .sshlShort o => Sys2Proof.Machine.execSshlShort o s
  | .sshl o => Sys2Proof.Machine.execSshl o s
  | .sshrShort o => Sys2Proof.Machine.execSshrShort o s
  | .sshr o => Sys2Proof.Machine.execSshr o s
  | .scmp cc o => Sys2Proof.Machine.execScmp cc o s
  | .ssel o => Sys2Proof.Machine.execSsel o s
  | .bra o => Sys2Proof.Machine.execBra o s
  | .brd o => Sys2Proof.Machine.execBrd o s
  | .join o => Sys2Proof.Machine.execJoin o s
  | .jmpi o => Sys2Proof.Machine.execJmpi o s
  | .call o => Sys2Proof.Machine.execCall o s
  | .calliShort o => Sys2Proof.Machine.execCalliShort o s
  | .calli o => Sys2Proof.Machine.execCalli o s
  | .retShort o => Sys2Proof.Machine.execRetShort o s
  | .ret o => Sys2Proof.Machine.execRet o s
  | .land o => Sys2Proof.Machine.execLand o s
  | .exitShort o => Sys2Proof.Machine.execExitShort o s
  | .exit o => Sys2Proof.Machine.execExit o s
  | .execrShort o => Sys2Proof.Machine.execExecrShort o s
  | .execr o => Sys2Proof.Machine.execExecr o s
  | .execwShort o => Sys2Proof.Machine.execExecwShort o s
  | .execw o => Sys2Proof.Machine.execExecw o s
  | .nop o => Sys2Proof.Machine.execNop o s
  | .yield o => Sys2Proof.Machine.execYield o s
  | .ffence o => Sys2Proof.Machine.execFfence o s
  | .ldShort o => Sys2Proof.Machine.execLdShort o s
  | .ld o => Sys2Proof.Machine.execLd o s
  | .stShort o => Sys2Proof.Machine.execStShort o s
  | .st o => Sys2Proof.Machine.execSt o s
  | .lduShort o => Sys2Proof.Machine.execLduShort o s
  | .ldu o => Sys2Proof.Machine.execLdu o s
  | .prefShort o => Sys2Proof.Machine.execPrefShort o s
  | .pref o => Sys2Proof.Machine.execPref o s
  | .ldt o => Sys2Proof.Machine.execLdt o s
  | .stt o => Sys2Proof.Machine.execStt o s
  | .ldacc o => Sys2Proof.Machine.execLdacc o s
  | .stacc o => Sys2Proof.Machine.execStacc o s
  | .tlook o => Sys2Proof.Machine.execTlook o s
  | .tlookClm o => Sys2Proof.Machine.execTlookClm o s
  | .tfill o => Sys2Proof.Machine.execTfill o s
  | .tevict o => Sys2Proof.Machine.execTevict o s
  | .tinv o => Sys2Proof.Machine.execTinv o s
  | .atom o => Sys2Proof.Machine.execAtom o s
  | .atomcas o => Sys2Proof.Machine.execAtomcas o s
  | .red o => Sys2Proof.Machine.execRed o s
  | .fence o => Sys2Proof.Machine.execFence o s
  | .opfence o => Sys2Proof.Machine.execOpfence o s
  | .barinit o => Sys2Proof.Machine.execBarinit o s
  | .baraShort o => Sys2Proof.Machine.execBaraShort o s
  | .bara o => Sys2Proof.Machine.execBara o s
  | .barwShort o => Sys2Proof.Machine.execBarwShort o s
  | .barw o => Sys2Proof.Machine.execBarw o s
  | .barawShort o => Sys2Proof.Machine.execBarawShort o s
  | .baraw o => Sys2Proof.Machine.execBaraw o s
  | .waitc o => Sys2Proof.Machine.execWaitc o s
  | .gsetShort o => Sys2Proof.Machine.execGsetShort o s
  | .gset o => Sys2Proof.Machine.execGset o s
  | .gclrShort o => Sys2Proof.Machine.execGclrShort o s
  | .gclr o => Sys2Proof.Machine.execGclr o s
  | .xch o => Sys2Proof.Machine.execXch o s
  | .qpushShort o => Sys2Proof.Machine.execQpushShort o s
  | .qpush o => Sys2Proof.Machine.execQpush o s
  | .qpopShort o => Sys2Proof.Machine.execQpopShort o s
  | .qpop o => Sys2Proof.Machine.execQpop o s
  | .qstatShort o => Sys2Proof.Machine.execQstatShort o s
  | .qstat o => Sys2Proof.Machine.execQstat o s
  | .qstatSatShort o => Sys2Proof.Machine.execQstatSatShort o s
  | .qstatSat o => Sys2Proof.Machine.execQstatSat o s
  | .mldw o => Sys2Proof.Machine.execMldw o s
  | .mswapShort o => Sys2Proof.Machine.execMswapShort o s
  | .mswap o => Sys2Proof.Machine.execMswap o s
  | .mma o => Sys2Proof.Machine.execMma o s
  | .mmaJ o => Sys2Proof.Machine.execMmaJ o s
  | .mmas o => Sys2Proof.Machine.execMmas o s
  | .mhad o => Sys2Proof.Machine.execMhad o s
  | .mqnt o => Sys2Proof.Machine.execMqnt o s
  | .accz o => Sys2Proof.Machine.execAccz o s
  | .acccvt o => Sys2Proof.Machine.execAcccvt o s
  | .subscribe o => Sys2Proof.Machine.execSubscribe o s
  | .publish o => Sys2Proof.Machine.execPublish o s
  | .mcad o => Sys2Proof.Machine.execMcad o s
  | .vout o => Sys2Proof.Machine.execVout o s
  | .pout o => Sys2Proof.Machine.execPout o s
  | .msetcnt o => Sys2Proof.Machine.execMsetcnt o s
  | .vamp o => Sys2Proof.Machine.execVamp o s
  | .rayl o => Sys2Proof.Machine.execRayl o s
  | .rayq o => Sys2Proof.Machine.execRayq o s
  | .sample o => Sys2Proof.Machine.execSample o s
  | .samplev o => Sys2Proof.Machine.execSamplev o s
  | .tilebind o => Sys2Proof.Machine.execTilebind o s
  | .tiledone o => Sys2Proof.Machine.execTiledone o s
  | .tilerel o => Sys2Proof.Machine.execTilerel o s
  | .emitShort o => Sys2Proof.Machine.execEmitShort o s
  | .emit o => Sys2Proof.Machine.execEmit o s
  | .emitqShort o => Sys2Proof.Machine.execEmitqShort o s
  | .emitq o => Sys2Proof.Machine.execEmitq o s
  | .launchShort o => Sys2Proof.Machine.execLaunchShort o s
  | .launch o => Sys2Proof.Machine.execLaunch o s
  | .spliceShort o => Sys2Proof.Machine.execSpliceShort o s
  | .splice o => Sys2Proof.Machine.execSplice o s
  | .spliceRelShort o => Sys2Proof.Machine.execSpliceRelShort o s
  | .spliceRel o => Sys2Proof.Machine.execSpliceRel o s
  | .trapShort o => Sys2Proof.Machine.execTrapShort o s
  | .trap o => Sys2Proof.Machine.execTrap o s
  | .bkptShort o => Sys2Proof.Machine.execBkptShort o s
  | .bkpt o => Sys2Proof.Machine.execBkpt o s
  | .icinvShort o => Sys2Proof.Machine.execIcinvShort o s
  | .icinv o => Sys2Proof.Machine.execIcinv o s
  | .timeShort o => Sys2Proof.Machine.execTimeShort o s
  | .time o => Sys2Proof.Machine.execTime o s
  | .perfShort o => Sys2Proof.Machine.execPerfShort o s
  | .perf o => Sys2Proof.Machine.execPerf o s
  | .rdsrShort o => Sys2Proof.Machine.execRdsrShort o s
  | .rdsr o => Sys2Proof.Machine.execRdsr o s
  | .wrsrShort o => Sys2Proof.Machine.execWrsrShort o s
  | .wrsr o => Sys2Proof.Machine.execWrsr o s
  | .mflagShort o => Sys2Proof.Machine.execMflagShort o s
  | .mflag o => Sys2Proof.Machine.execMflag o s
  | .wayIssueSelect core way => Sys2Proof.Machine.execWayIssueSelect core way s
  | .fragmentPromote team frag => Sys2Proof.Machine.execFragmentPromote team frag s
  | .divergenceMeetingComplete team frag => Sys2Proof.Machine.execDivergenceMeetingComplete team frag s
  | .memberArrivalComplete team group => Sys2Proof.Machine.execMemberArrivalComplete team group s
  | .xchPair team group => Sys2Proof.Machine.execXchPair team group s
  | .mmaJForm team frag => Sys2Proof.Machine.execMmaJForm team frag s
  | .qpushEnter core queue => Sys2Proof.Machine.execQpushEnter core queue s
  | .qpopUnblock team frag => Sys2Proof.Machine.execQpopUnblock team frag s
  | .barrierWaitRelease team frag => Sys2Proof.Machine.execBarrierWaitRelease team frag s
  | .waitcReactivate team frag => Sys2Proof.Machine.execWaitcReactivate team frag s
  | .publishReserve team frag => Sys2Proof.Machine.execPublishReserve team frag s
  | .subscribeCloseComplete team frag => Sys2Proof.Machine.execSubscribeCloseComplete team frag s
  | .tilebindProceed team frag => Sys2Proof.Machine.execTilebindProceed team frag s
  | .spliceMeetingComplete team => Sys2Proof.Machine.execSpliceMeetingComplete team s
  | .spliceDrainDone team => Sys2Proof.Machine.execSpliceDrainDone team s
  | .spliceGrowthRetry team => Sys2Proof.Machine.execSpliceGrowthRetry team s
  | .copy core => Sys2Proof.Machine.execCopy core s
  | .copy2d core => Sys2Proof.Machine.execCopy2d core s
  | .copy3d core => Sys2Proof.Machine.execCopy3d core s
  | .mcast core => Sys2Proof.Machine.execMcast core s
  | .publishCommand core => Sys2Proof.Machine.execPublishCommand core s
  | .migrate core => Sys2Proof.Machine.execMigrate core s
  | .migrateCopy core cmd => Sys2Proof.Machine.execMigrateCopy core cmd s
  | .matrixCommand core => Sys2Proof.Machine.execMatrixCommand core s
  | .snubInjectionGrant die => Sys2Proof.Machine.execSnubInjectionGrant die s
  | .snubWindowBoundary die => Sys2Proof.Machine.execSnubWindowBoundary die s
  | .engineCommandComplete core cmd => Sys2Proof.Machine.execEngineCommandComplete core cmd s
  | .meshletRaster core req => Sys2Proof.Machine.execMeshletRaster core req s
  | .rayRequestTrace core req => Sys2Proof.Machine.execRayRequestTrace core req s
  | .intersectionRequestComplete core req => Sys2Proof.Machine.execIntersectionRequestComplete core req s
  | .rayqTraceDone team group => Sys2Proof.Machine.execRayqTraceDone team group s
  | .translationWalk core vi addr => Sys2Proof.Machine.execTranslationWalk core vi addr s
  | .homeAccessPerform slice => Sys2Proof.Machine.execHomeAccessPerform slice s
  | .scTicketGrant => Sys2Proof.Machine.execScTicketGrant s
  | .loadReturn team group => Sys2Proof.Machine.execLoadReturn team group s
  | .writeBufferDrain core => Sys2Proof.Machine.execWriteBufferDrain core s
  | .invalidationProbe core => Sys2Proof.Machine.execInvalidationProbe core s
  | .sliceFill slice addr => Sys2Proof.Machine.execSliceFill slice addr s
  | .hotCounterIncrement slice => Sys2Proof.Machine.execHotCounterIncrement slice s
  | .blockDecodeComplete vi addr => Sys2Proof.Machine.execBlockDecodeComplete vi addr s
  | .tokenBucketAdmit queue => Sys2Proof.Machine.execTokenBucketAdmit queue s
  | .viInval vi v => Sys2Proof.Machine.execViInval vi v s
  | .viInvalComplete vi => Sys2Proof.Machine.execViInvalComplete vi s
  | .hotHalve v => Sys2Proof.Machine.execHotHalve v s
  | .hotHalveDone => Sys2Proof.Machine.execHotHalveDone s
  | .stSplitWrite core v => Sys2Proof.Machine.execStSplitWrite core v s
  | .partGeomWrite part v => Sys2Proof.Machine.execPartGeomWrite part v s
  | .partGeomApplyDone part => Sys2Proof.Machine.execPartGeomApplyDone part s
  | .viPrangeWrite vi n limit v => Sys2Proof.Machine.execViPrangeWrite vi n limit v s
  | .viCfgWrite vi v => Sys2Proof.Machine.execViCfgWrite vi v s
  | .tbWrite offset v => Sys2Proof.Machine.execTbWrite offset v s
  | .lqCfgWrite vi v => Sys2Proof.Machine.execLqCfgWrite vi v s
  | .lqTailWrite vi v => Sys2Proof.Machine.execLqTailWrite vi v s
  | .launchRecordConsume vi => Sys2Proof.Machine.execLaunchRecordConsume vi s
  | .gridAccept vi => Sys2Proof.Machine.execGridAccept vi s
  | .teamPlace part => Sys2Proof.Machine.execTeamPlace part s
  | .eviction part => Sys2Proof.Machine.execEviction part s
  | .preemptSaveComplete team => Sys2Proof.Machine.execPreemptSaveComplete team s
  | .teamRetire team => Sys2Proof.Machine.execTeamRetire team s
  | .graphTeamStart core grid => Sys2Proof.Machine.execGraphTeamStart core grid s
  | .stealAttempt core grid => Sys2Proof.Machine.execStealAttempt core grid s
  | .eventRecordWrite vi ring => Sys2Proof.Machine.execEventRecordWrite vi ring s
  | .eventRingCountInterrupt vi ring => Sys2Proof.Machine.execEventRingCountInterrupt vi ring s
  | .eventRingTimeInterrupt vi ring => Sys2Proof.Machine.execEventRingTimeInterrupt vi ring s
  | .evCfgWrite vi ring v => Sys2Proof.Machine.execEvCfgWrite vi ring v s
  | .dispCfgWrite output v => Sys2Proof.Machine.execDispCfgWrite output v s
  | .linkTrained output rate lanes => Sys2Proof.Machine.execLinkTrained output rate lanes s
  | .stripLatch output strip => Sys2Proof.Machine.execStripLatch output strip s
  | .stripDeadline output strip => Sys2Proof.Machine.execStripDeadline output strip s
  | .serialiserTileRead output read => Sys2Proof.Machine.execSerialiserTileRead output read s
  | .gazeMailboxWrite offset size v => Sys2Proof.Machine.execGazeMailboxWrite offset size v s
  | .governorTick power => Sys2Proof.Machine.execGovernorTick power s
  | .nearThresholdEnter core way => Sys2Proof.Machine.execNearThresholdEnter core way s
  | .watchdog team group => Sys2Proof.Machine.execWatchdog team group s
  | .coreDbgHalt core v => Sys2Proof.Machine.execCoreDbgHalt core v s
  | .coreDbgResume core v => Sys2Proof.Machine.execCoreDbgResume core v s
  | .hostMemoryAccess vi size addr data => Sys2Proof.Machine.execHostMemoryAccess vi size addr data s
  | .peerTailWrite vi v => Sys2Proof.Machine.execPeerTailWrite vi v s
  | .peerCopyComplete vi data ok => Sys2Proof.Machine.execPeerCopyComplete vi data ok s
  | .peerRequest port size addr data => Sys2Proof.Machine.execPeerRequest port size addr data s
  | .regRd => Sys2Proof.Machine.execRegRd s
  | .regWr => Sys2Proof.Machine.execRegWr s
  | .keyLoad => Sys2Proof.Machine.execKeyLoad s
  | .keyEmpty => Sys2Proof.Machine.execKeyEmpty s
  | .keyEmptyDone slot => Sys2Proof.Machine.execKeyEmptyDone slot s
  | .attest => Sys2Proof.Machine.execAttest s
  | .attestKeys => Sys2Proof.Machine.execAttestKeys s
  | .dbgRd => Sys2Proof.Machine.execDbgRd s
  | .dbgWr => Sys2Proof.Machine.execDbgWr s
  | .fwUpdate => Sys2Proof.Machine.execFwUpdate s
  | .peerBind => Sys2Proof.Machine.execPeerBind s
  | .ngkUnassignedCommand => Sys2Proof.Machine.execNgkUnassignedCommand s
  | .moduleReset => Sys2Proof.Machine.execModuleReset s
  | .romImageVerify => Sys2Proof.Machine.execRomImageVerify s
  | .fwBringupComplete fail first => Sys2Proof.Machine.execFwBringupComplete fail first s
  | .registerWrite block offset v => Sys2Proof.Machine.execRegisterWrite block offset v s
  | .softError site unc => Sys2Proof.Machine.execSoftError site unc s
  | .linkLost output => Sys2Proof.Machine.execLinkLost output s
  | .peerRemoteBind port => Sys2Proof.Machine.execPeerRemoteBind port s

end Sys2Proof.Machine
end

