-- ==== Sys2Proof/Machine/Placed.lean ====
section
/-! DEFINITION. A machine on which one fragment of one team is about to issue the instruction at its
address: what the launch of a grid of one team leaves, with its code in memory (R19 to R21, R205, R206). -/

namespace Sys2Proof.Machine

/-- Where the placed instruction stands. -/
def placedPc : Dword := 0x20000

/-- The VI of the placed team: enabled, 56-bit addresses, its root table at 0x10000, and one range window
over the first 64 GiB of the near tier (R52, R53). -/
def placedVi : ViCfg := { cfg := 0x78, troot := 0x10001, pbase := [(0, 1)], plimit := [(0, 0xFFFFF0000)] }

/-- The home group of the placed team: all lanes on, a window of 32 granules. -/
def placedGroup : Group := { num := 0, way := 0, exec := 0xFFFFFFFF, launched := 0xFFFFFFFF, win := 32 }

/-- Its fragment. -/
def placedFrag : Frag := { id := 0, way := 0, lanes := [(0, 0xFFFFFFFF)], fmt := 0, hm := false, pc := placedPc }

/-- The placed team, on core 0. -/
def placedTeam : Team :=
  { id := 2, grid := 1, vi := 0, index := 0, x := 0, y := 0, z := 0, cluster := 0, rank := 0, core := 0,
    slot := 0, stamp := 0, since := 0, deadline := false, lanes := 32, regsN := 256, scrSize := 65536,
    scrBase := 0, privN := 16, accN := 4, barsN := 16, groups := [(0, placedGroup)], frags := [placedFrag],
    nextFrag := 1 }

/-- Its grid. -/
def placedGrid : Grid :=
  { id := 1, vi := 0, part := 0, nextIdx := 1,
    rc := { entry := placedPc, tlanes := 32, gx := 1, gy := 1, gz := 1, cw := 1, ch := 1, tpc := 1, regs := 256,
            acc := 4, bars := 16, scr := 65536, priv := 4096 } }

/-- Bytes laid out in memory from an address. -/
def layBytes (m : Memory) (a : Nat) : List Byte → Memory
  | [] => m
  | b :: bs => layBytes (m.write a b) (a + 1) bs

/-- `s` with the placed grid, team and code: a root table whose first entry leads to a table whose first
entry is a leaf over physical address 0, both bits of use set. -/
def State.placed (s : State) (code : List Byte) : State :=
  { s with
    mem := layBytes (layBytes (layBytes s.mem 0x10000 (leBytes 8 0x12001)) 0x12000 (leBytes 8 0xC1F)) 0x20000 code
    hub := { s.hub with vis := kset 0 placedVi s.hub.vis }
    teams := kset 2 placedTeam s.teams
    grids := kset 1 placedGrid s.grids
    nextId := 3
    inbox := []
    cur := some { team := 2, frag := 0 } }

end Sys2Proof.Machine
end

