-- ==== Sys2Proof/Machine/Sched.lean ====
section
/-! DEFINITION. The turn of the internal agents: which of the event rows of the module are taken, and when, while
no fragment has been selected (R9, R217).  In each clk: what happens once in every clk; then every way with a
candidate issues; then every other agent has a turn; then the clk passes. -/

namespace Sys2Proof.Machine

/-- A move of an agent. -/
abbrev Move := State → Host.Outcome State Fault Refusal

/-- A move taken. -/
def State.take (s : State) (m : Move) : State :=
  match m s with
  | .next t => t
  | _ => s

/-- Moves taken in order. -/
def State.takeAll (s : State) (l : List Move) : State := l.foldl State.take s

/-! ### What happens once in every clk -/

/-- `l` begun at its `n`th place, so that over the clk each comes first in turn (log entry 11). -/
def rotate {α : Type} (n : Nat) (l : List α) : List α := l.drop (n % l.length) ++ l.take (n % l.length)

/-- R118: each slice and port that holds a bucket admits what it can.  The model makes this before the ways issue in an
even clk and before the other agents move in an odd one, so that neither always takes the freed queue places (log entry
11). -/
def State.admitMoves (s : State) : List Move :=
  (s.side.buckets.map (fun (e : Nat × Bucket) => e.1 / 4)).eraseDups.map execTokenBucketAdmit

/-- A die on which injections are to be granted. -/
def State.dieBusy (s : State) (die : Nat) : Bool :=
  (s.snub die).floor != 0 || s.cores.any (fun (e : Nat × Core) => dieOf e.1 == die && !e.2.started.isEmpty)

/-- R9: what the 1 GHz counter counts in a core clk of 850 MHz: one or two, and which is free, for the counter is
independent of the core clock (log entry 97). -/
def State.nsIn (s : State) : Nat :=
  let n := 20 * (s.clock.clk + 1) / 17 - 20 * s.clock.clk / 17
  if s.pick 15 (2 ^ 64 + s.clock.clk) then 3 - n else n

/-- R9, R472: this clk is the first of a microsecond of the 1 GHz counter. -/
def Clock.microsecond (c : Clock) : Bool := c.was / 1000 != c.ns / 1000

/-- The moves made once in each clk. -/
def State.clkMoves (s : State) : List Move :=
  s.teams.flatMap (fun (e : Nat × Team) =>
    (e.2.frags.filter (fun f => decide (256 ≤ f.starve) && !f.promoted)).map (fun f => execFragmentPromote e.1 f.id))
  ++ [0, 1, 2, 3].map execSnubWindowBoundary
  ++ ([0, 1, 2, 3].filter s.dieBusy).map execSnubInjectionGrant
  ++ [execScTicketGrant]
  ++ (if s.clock.clk % 2 = 0 then s.admitMoves else [])
  ++ (if s.clock.microsecond then [execGovernorTick ((Config.freeWord s.free 5).toNat % 65536)] else [])
  ++ s.cores.flatMap (fun (e : Nat × Core) => e.2.idle.map (fun w => execNearThresholdEnter e.1 w.1))
  ++ s.teams.flatMap (fun (e : Nat × Team) => e.2.groups.map (fun g => execWatchdog e.1 g.1))
  ++ s.dispds.flatMap (fun (e : Nat × DispDyn) => (List.range 32).map (fun k => execStripDeadline e.1 k))
  ++ s.dispds.flatMap (fun (e : Nat × DispDyn) => (List.range 32).map (fun k => execStripLatch e.1 k))

/-! ### The other agents -/

/-- The moves of a fragment that waits. -/
def fragMoves (tid fid : Nat) : List Move :=
  [execDivergenceMeetingComplete tid fid, execMmaJForm tid fid, execQpopUnblock tid fid, execBarrierWaitRelease tid fid,
   execWaitcReactivate tid fid, execPublishReserve tid fid, execSubscribeCloseComplete tid fid,
   execTilebindProceed tid fid]

/-- The moves of a home group. -/
def groupMoves (tid g : Nat) : List Move :=
  [execMemberArrivalComplete tid g, execXchPair tid g, execRayqTraceDone tid g]

/-- R58: long-class results become certain at a switch marker (R198); those that no marker waits for do so in a clk
that is a multiple of 64. -/
def State.loadMoves (s : State) : List Move :=
  if s.clock.clk % 64 = 0 then s.teams.flatMap (fun (e : Nat × Team) => e.2.groups.map (fun g => execLoadReturn e.1 g.1))
  else []

/-- The moves of a team. -/
def teamMoves (t : Team) : List Move :=
  t.groups.flatMap (fun e => groupMoves t.id e.1)
  ++ (t.frags.filter (fun f => f.st != .ready)).flatMap (fun f => fragMoves t.id f.id)
  ++ [execSpliceMeetingComplete t.id, execSpliceDrainDone t.id, execSpliceGrowthRetry t.id]
  ++ t.reqs.flatMap (fun r => [execMeshletRaster t.core r.id, execRayRequestTrace t.core r.id])
  ++ t.reqDone.map (fun r => execIntersectionRequestComplete t.core r.1)
  ++ t.reads.map (fun r => execSerialiserTileRead r.1 r.2)
  ++ [fun s => event s (fun s => s.endLost t.id), execPreemptSaveComplete t.id, execTeamRetire t.id]

/-- The moves of a core. -/
def coreMoves (c : Nat) (k : Core) : List Move :=
  [execQpushEnter c 0, execQpushEnter c 1]
  ++ (if k.qmx.isEmpty then [] else [execMatrixCommand c])
  ++ (if k.qcp.isEmpty && k.started.isEmpty then []
      else [execCopy c, execCopy2d c, execCopy3d c, execMcast c, execPublishCommand c, execMigrate c])
  ++ (k.started.filter (fun x => x.mig.isSome)).map (fun x => execMigrateCopy c x.id)
  ++ (k.started.filter (fun x => x.fin)).map (fun x => execEngineCommandComplete c x.id)
  ++ k.wbuf.map (fun _ => execWriteBufferDrain c)
  ++ k.probes.map (fun _ => execInvalidationProbe c)

/-- R38, R479 to R486: the moves of Ngaskaset. -/
def State.ngkMoves (s : State) : List Move :=
  (if s.hub.phase = 1 then [execRomImageVerify] else [])
  ++ (if s.hub.door then
        [execRegRd, execRegWr, execKeyLoad, execKeyEmpty, execAttest, execAttestKeys, execDbgRd, execDbgWr, execFwUpdate,
         execPeerBind, execNgkUnassignedCommand]
      else [])
  ++ (s.hub.keys.filter (fun (e : Nat × KeySlot) => e.2.emptying)).map (fun e => execKeyEmptyDone e.1)

/-- R173: the slices that the stores in the cores' buffers go to. -/
def State.storeHomes (s : State) : List Nat :=
  (s.cores.flatMap (fun (e : Nat × Core) => e.2.wbuf.map (fun b => s.home b.pa (s.partOf b.vi)))).eraseDups

/-- The moves of the memory system. -/
def State.memMoves (s : State) : List Move :=
  s.storeHomes.map execHomeAccessPerform
  ++ s.side.fillPend.map (fun f => execSliceFill f.slice (w64 f.line))
  ++ s.side.hotPend.map (fun e => execHotCounterIncrement e.1)
  ++ s.side.decodes.map (fun d => execBlockDecodeComplete d.vi d.addr)
  ++ (s.hub.vis.filter (fun (e : Nat × ViCfg) => e.2.inval != 0)).map (fun e => execViInvalComplete e.1)
  ++ (if s.sweep.isSome then [execHotHalveDone] else [])
  ++ (s.partds.filter (fun (e : Nat × PartDyn) => e.2.busy)).map (fun e => execPartGeomApplyDone e.1)

/-- R244: the first core of its partition that can start a team of a work graph from its deque. -/
def State.graphCore (s : State) (g : Grid) : Option Nat :=
  if s.gridHeld g then none
  else (s.partCores g.part).find? (fun c => !(kget [] g.id (s.core c).deque).isEmpty && (s.graphFits c g).isSome)

/-- R212, R244: the work graph, with its core, that comes before every head of the partition that can be placed. -/
def State.graphFirst (s : State) (part : Nat) : Option (Nat × Nat) :=
  let gs := s.gridOrder part
  let ended := match (s.partd part).evicting with | some e => s.evictionOver e.teams | none => false
  if ended || !gs.any (fun g => g.rc.graph) then none
  else
    match gs.find? (fun g =>
      (g.rc.graph && (s.graphCore g).isSome) || (!s.roomFor g (s.head g) && (s.headPlace g (s.head g)).any (fun e => !e.2.isEmpty))) with
    | some g => if g.rc.graph then (s.graphCore g).map (fun c => (c, g.id)) else none
    | none => none

/-- R212: placements of a partition, one after the other, for as long as one can be made; on fuel.  The teams that a work
graph's cores start from their deques come in the order of the grids too (log entry 117). -/
def State.placeAll : Nat → Nat → State → State
  | 0, _, s => s
  | n + 1, p, s =>
    let t := match s.graphFirst p with
      | some (c, gid) => s.take (execGraphTeamStart c gid)
      | none => s.take (execTeamPlace p)
    if (t.partd p).stamp = (s.partd p).stamp then t else State.placeAll n p t

/-- The partitions that have grids. -/
def State.gridParts (s : State) : List Nat := (s.grids.map (fun (e : Nat × Grid) => e.2.part)).eraseDups

/-- The moves that take in launches, place and report. -/
def State.launchMoves (s : State) : List Move :=
  s.vids.flatMap (fun (e : Nat × ViDyn) => [execLaunchRecordConsume e.1, execGridAccept e.1])
  ++ [fun s => .next (s.gridParts.foldl (fun s p => (s.placeAll 2304 p).take (execEviction p)) s)]
  ++ s.grids.flatMap (fun (e : Nat × Grid) =>
      if e.2.rc.graph then (s.partCores e.2.part).map (fun c => execStealAttempt c e.1) else [])

/-- R221, R222: the records that wait for their rings, and the rings' interrupts. -/
def State.eventMoves (s : State) : List Move :=
  s.vids.flatMap (fun (e : Nat × ViDyn) =>
    e.2.events.flatMap (fun r => [execEventRecordWrite e.1 r.ring, execEventRingCountInterrupt e.1 r.ring])
    ++ e.2.rings.flatMap (fun r => [execEventRingCountInterrupt e.1 r.1, execEventRingTimeInterrupt e.1 r.1]))

/-- R48: an access that a migration held is made again. -/
def HeldMove.again (m : HeldMove) : Move := fun s =>
  event s (fun s =>
    match m with
    | .access vi size cls addr data => s.portAccess vi size cls addr data
    | .copy vi data ok => s.peerCopy vi data ok
    | .tail vi off v => s.tailWrite vi off v
    | .resume core v => s.dbgResume core v)

/-- The cores that hold anything or that a team is bound to. -/
def State.busyCores (s : State) : List Nat :=
  (s.cores.map (fun (e : Nat × Core) => e.1) ++ s.teams.map (fun (e : Nat × Team) => e.2.core)).eraseDups

/-- The moves of every other agent; the records of a clk are written when all of them are known (R221). -/
def State.agentMoves (s : State) : List Move :=
  (if s.clock.clk % 2 = 0 then [] else s.admitMoves)
  ++ (rotate s.clock.clk s.teams).flatMap (fun (e : Nat × Team) => teamMoves e.2)
  ++ (rotate s.clock.clk s.busyCores).flatMap (fun c => coreMoves c (s.core c))
  ++ s.loadMoves ++ s.memMoves ++ s.held.map HeldMove.again ++ s.ngkMoves ++ s.launchMoves
  ++ [fun s => .next (s.takeAll s.eventMoves)]

/-! ### The clk passes -/

/-- R461, R463, R423, R473: what a clk counts for a team: that its core is halted, or its groups' watchdogs and the
issue withheld. -/
def State.clkTeam (s : State) (t : Team) : Team :=
  if (s.core t.core).dbg.halt && t.onCore then { t with haltClk := t.haltClk + 1 }
  else if s.barred t then t
  else
    let withheld (w : Nat) : Bool := s.teams.any (fun (e : Nat × Team) =>
      e.2.core == t.core && e.2.vi == t.vi && e.2.frags.any (fun f => s.readyOn w e.2 f && s.denied e.2 f))
    { t with groups := t.groups.map (fun e =>
        let g := if e.2.finished then e.2 else { e.2 with wdog := e.2.wdog + 1 }
        (e.1, if withheld g.way then g.perfAdd 4 1 else g)) }

/-- R473: a VI was denied issue on a die in this clk. -/
def State.deniedOn (s : State) (vi die : Nat) : Bool :=
  s.teams.any (fun (e : Nat × Team) =>
    e.2.vi == vi && dieOf e.2.core == die && !s.barred e.2 && e.2.frags.any (fun f => f.st == .ready && s.denied e.2 f))

/-- R473. -/
def State.clkVi (s : State) (vi : Nat) (d : ViDyn) : ViDyn :=
  [0, 1, 2, 3].foldl (fun d die =>
    if s.deniedOn vi die then { d with denied := kset die (kget 0 die d.denied + 1) d.denied } else d) d

/-- R474: a way that issued nothing because every READY fragment waits on a long-class result. -/
def State.longWait (s : State) (core way : Nat) : Bool :=
  let fs := s.teams.flatMap (fun (e : Nat × Team) =>
    if e.2.core == core then (e.2.frags.filter (s.readyOn way e.2)).map (fun f => (e.2, f)) else [])
  kfind way (s.core core).lastClk != some s.clock.clk && !fs.isEmpty &&
  fs.all (fun x => x.2.lanes.any (fun l => match x.1.group? l.1 with | some g => !g.pend.isEmpty | none => false))

/-- R474: the ways' counts of waiting clk. -/
def State.clkCore (s : State) (c : Nat) (k : Core) : Core :=
  let ways := ((s.teams.filter (fun (e : Nat × Team) => e.2.core == c)).flatMap (fun (e : Nat × Team) =>
    e.2.groups.map (fun g => g.2.way))).eraseDups
  { k with idle := (ways.filter (s.longWait c)).foldl (fun l w => kset w (kget 0 w k.idle + 1) l) [] }

/-- R190: in the next clk every fragment may try again. -/
def Team.unblocked (t : Team) : Team := { t with frags := t.frags.map (fun f => { f with blocked := false }) }

/-- R9: a clk passes: what it counts, the deadlocks of blocked pushes (R356), and the clock. -/
def State.tick (s : State) : State :=
  let s1 := s.sweepClk.stallClk
  let s2 := s1.teams.foldl (fun (s : State) (e : Nat × Team) => s.deadlock e.1) s1
  { s2 with
    teams := s2.teams.map (fun (e : Nat × Team) => (e.1, (s2.clkTeam e.2).unblocked))
    vids := (if s2.gated.isEmpty then s2.vids
             else (s2.teams.map (fun (e : Nat × Team) => e.2.vi)).eraseDups.foldl (fun l vi =>
               if [0, 1, 2, 3].any (s2.deniedOn vi) then kset vi (s2.clkVi vi (s2.vid vi)) l else l) s2.vids)
    cores := s2.cores.map (fun (e : Nat × Core) => (e.1, s2.clkCore e.1 e.2))
    clock := { clk := s2.clock.clk + 1, ns := s2.clock.ns + s2.nsIn, was := s2.clock.ns }
    rot := 0 }

/-! ### The turn -/

/-- The ways of a core that have a team's group. -/
def State.busyWays (s : State) : List (Nat × Nat) :=
  (s.teams.flatMap (fun (e : Nat × Team) => e.2.groups.map (fun g => (e.2.core, g.2.way)))).eraseDups

/-- R217: a way that may still issue in this clk; which way comes first turns with the clk (log entry 11). -/
def State.wayDue (s : State) : Option (Nat × Nat) :=
  (rotate s.clock.clk s.busyWays).find? (fun w =>
    kfind w.2 (s.core w.1).lastClk != some s.clock.clk && (s.selected w.1 w.2).isSome)

/-- R190, R217: the next instruction of a fragment cannot issue now: what its issue would leave says so. -/
def State.cannot (s : State) (t : Team) (f : Frag) : Bool :=
  let tried : Option State :=
    match ({ s with cur := some { team := t.id, frag := f.id } }).front { team := t.id, frag := f.id } with
    | .stop s' => some s'
    | .run i s' => (match exec i s' with | .next s'' => some s'' | _ => none)
  match (tried.bind (fun s' => s'.team? t.id)).bind (fun t' => t'.frag? f.id) with
  | some f' => f'.blocked
  | none => false

/-- R190, R217: of several fragments that a way could select those whose next instruction cannot issue in this clk are
BLOCKED, so that they are no candidates (log entry 108). -/
def State.tryWay (s : State) (core way : Nat) : State :=
  let l := s.candidates core way
  if l.length ≤ 1 then s
  else (l.filter (fun c => s.cannot c.1 c.2)).foldl (fun u c =>
    u.modTeam c.1.id (fun t => match t.frag? c.2.id with | some f => t.setFrag { f with blocked := true } | none => t)) s

/-- What happens when no fragment has been selected: `rot` says which turn it is. -/
def State.turn (s : State) : State :=
  match s.rot with
  | 0 => { (s.takeAll s.clkMoves) with rot := 1 }
  | 1 =>
    match s.wayDue with
    | some (c, w) => (s.tryWay c w).take (execWayIssueSelect c w)
    | none => { s with rot := 2 }
  | _ =>
    let t := { s with held := [] }.takeAll s.agentMoves
    sealMem t t.tick

end Sys2Proof.Machine
end

