-- ==== Sys2Proof/Machine/Step.lean ====
section
/-! DEFINITION. One step of the module: a move of another agent that is due, else the instruction of the
fragment that a way has selected, else the next internal agent's turn. -/

namespace Sys2Proof.Machine

def step (s : State) : Host.Outcome State Fault Refusal :=
  match s.inbox with
  | i :: r => exec i { s with inbox := r }
  | [] =>
    match s.cur with
    | some c =>
      match s.front c with
      | .stop s' => .next s'
      | .run i s' => exec i s'
    | none => .next s.turn

/-- `s` with an instruction placed where `step` fetches next: see `State.placed`. -/
def State.withFetchWord (s : State) (nbits w : Nat) : State :=
  s.placed (leBytes 20 (w % 2 ^ nbits))

end Sys2Proof.Machine
end

