-- ==== Sys2Proof/Safety.lean ====
section
/-! DEFINITION. The terms claims use: what holds between steps, when an instruction is about to issue, and what it
means that it ran and left the rest of the machine alone. -/

namespace Sys2Proof.Safety

open Sys2Proof.Machine

/-- The step answers a next state. -/
def Completes (s : State) : Prop := ∃ t, step s = .next t

/-- Physical memory in canonical form. -/
def Settled (s : State) : Prop := Memory.wf s.mem = true

/-- A fragment of one home group is about to execute an instruction that its fields admit: it has been selected to
issue; no long-class result of the group is pending and none of its registers is poisoned; its core does not step;
and the instruction raises none of the causes of R255 steps 3 to 8. -/
structure Issues (i : Instr) (s : State) (t : Team) (f : Frag) (g : Group) (m : Word) : Prop where
  selected : s.cur = some { team := t.id, frag := f.id }
  team : s.team? t.id = some t
  frag : t.frag? f.id = some f
  lanes : f.lanes = [(g.num, m)]
  carried : m ≠ 0
  group : t.group? g.num = some g
  settled : g.pend = []
  clean : g.regPoison = []
  running : (s.core t.core).dbg.step = false
  row : (form i).isSome
  fields : fieldCause i f.hm = none
  live : s.liveCause t f i = none

/-- The fields of the instruction as an extended form (R251, R266). -/
def ops (i : Instr) : XOps :=
  match form i with
  | some fm => fm.x
  | none => normShort .bZero .b32 { sw := false, lit := none, d := 0, a := 0, b := 0 }

/-- The place a literal of the instruction takes (R266). -/
def litPos (i : Instr) : LitPos :=
  match form i with
  | some fm => fm.spec.lit
  | none => .none

/-- What the instruction sees of the machine: its fields, the fragment and the team as they stand. -/
def ctx (i : Instr) (s : State) (t : Team) (f : Frag) : Ctx :=
  { i := i, o := ops i, lit := litPos i, core := t.core, team := t, frag := f, len := lenOf (firstWord i),
    word := firstWord i, free := s.free }

/-- R180: the lanes of the group that are active for the instruction. -/
def active (i : Instr) (g : Group) (m : Word) : Word := g.active m (ops i)

/-- The home group with its active lanes. -/
def gctx (i : Instr) (g : Group) (m : Word) : GCtx := { g := g, carried := m, act := active i g m }

/-- The address after the instruction (R250). -/
def after (i : Instr) (f : Frag) : Dword := f.pc + w64 (lenOf (firstWord i))

/-- The state in which the effect of an instruction begins: its issue counted, its wait over (R198). -/
def begins (i : Instr) (s : State) (t : Team) (f : Frag) : State :=
  match form i with
  | some fm => ((s.quiet.begun t f).waited fm t.id f (firstWord i) s.free).1
  | none => s.quiet.begun t f

/-- The team as its effect begins. -/
def teamNow (i : Instr) (s : State) (t : Team) (f : Frag) : Team := ((begins i s t f).team? t.id).getD t

/-- What the instruction sees of the machine as its effect begins. -/
def sees (i : Instr) (s : State) (t : Team) (f : Frag) : Ctx :=
  { i := i, o := ops i, lit := litPos i, core := (teamNow i s t f).core, team := teamNow i s t f, frag := f.counted,
    len := lenOf (firstWord i), word := firstWord i, free := s.free }

/-- The home group as its effect begins: one more instruction counted (R423). -/
def seen (i : Instr) (g : Group) (m : Word) : GCtx := { g := g.perfAdd 0 1, carried := m, act := active i g m }

/-- A run of bytes under a key pair: its first address, its length, the pair. -/
abbrev Run := Nat × Nat × KTag

/-- A byte that writes of some runs leave as it is: it lies in none of them, and its encryption unit is already under
the key pair of each run that meets the unit (R37). -/
def Untouched (s : State) (ws : List Run) (a : Nat) : Prop :=
  ∀ w ∈ ws, ¬ (w.1 ≤ a ∧ a < w.1 + w.2.1) ∧
    (w.1 / 64 ≤ a / 64 → a / 64 ≤ (w.1 + w.2.1) / 64 → zget (a / 64) s.tags = w.2.2)

/-- The runs of a core's buffered stores. -/
def buffered (s : State) (c : Nat) : List Run := (s.core c).wbuf.map (fun e => (e.pa, e.bytes.length, e.tag))

/-- The entries of the page table whose bits an access to some places may set (R23). -/
def leaves (l : List Tgt) : List Run :=
  l.filterMap (fun t => match t with | .glob x => some (x.ea, 8, x.etag) | _ => none)

/-- The entry of the page table whose A bit the check of a jump target may set (R23, R322). -/
def targetEntry (v : State) (vi : Nat) (hm : Bool) (a : Dword) : List Run :=
  match v.translate vi a .fetch 4 hm with
  | .ok x => [(x.ea, 8, x.etag)]
  | .error _ => []

/-- The same of several targets, touched one after the other. -/
def targetEntries (vi : Nat) (hm : Bool) : List Dword → State → List Run
  | [], _ => []
  | a :: r, v => targetEntry v vi hm a ++ targetEntries vi hm r (v.targetTouch vi hm a)

/-- R23, R326: the A bits of the targets of a group's lanes set. -/
def touched (vi : Nat) (hm : Bool) (l : List (Nat × Dword)) (v : State) : State :=
  l.foldl (fun s e => s.targetTouch vi hm e.2) v

/-- The places in memory that stores of a size to some places write. -/
def places (s : State) (size : Nat) (l : List Tgt) : List Run :=
  l.filterMap (fun t => match t with | .glob x => some (x.pa, size, s.keyTag x.leaf) | _ => none)

/-- What accesses to memory by a core for a VI may change besides teams: memory in the runs `ws`, and what lies between
the core and memory: caches, write buffers, probes, cached translations, metering, fills, tickets. -/
structure Accessed (c vi : Nat) (ws : List Run) (v w : State) : Prop where
  rest : w = { v with teams := w.teams, cores := w.cores, vids := w.vids, tags := w.tags, memPoison := w.memPoison,
                      side := w.side, tickReq := w.tickReq, out := w.out }
  cores : ∀ k, w.core k = { v.core k with
    l1 := (w.core k).l1, wbuf := (w.core k).wbuf, probes := (w.core k).probes }
  buffers : ∀ k, k ≠ c → (w.core k).wbuf = (v.core k).wbuf
  vids : ∀ k, w.vid k = { v.vid k with tlb := (w.vid k).tlb, hintdeg := (w.vid k).hintdeg }
  others : ∀ k, k ≠ vi → w.vid k = v.vid k
  bytes : ∀ a, Untouched v ws a → w.raw a = v.raw a ∧ zget (a / 64) w.tags = zget (a / 64) v.tags

/-- The state in which the effect of an event row begins. -/
def now (s : State) : State := { s with out := [], free := s.free + 1 }

/-- How a fragment that has completed its instruction goes on. -/
def goesOn (i : Instr) (f : Frag) : Next := { pc := after i f, fmt := f.fmt, hm := f.hm }

/-- How a fragment that waits at its instruction stands. -/
def waitsIn (f : Frag) (st : FState) : Next := { st := st, pc := f.pc, fmt := f.fmt, hm := f.hm }

/-- The fragment has gone on, or waits, as `n` says; the other fragments of its team are as they were, and so are the
other home groups, the hub and the clock. -/
structure Moved (s : State) (t : Team) (f : Frag) (g : Group) (n : Next) (s' : State) (t' : Team) (f' : Frag)
    (g' : Group) : Prop where
  team : s'.team? t.id = some t'
  frag : t'.frag? f.id = some f'
  group : t'.group? g.num = some g'
  at_ : f'.pc = n.pc ∧ f'.st = n.st ∧ f'.fmt = n.fmt ∧ f'.hm = n.hm ∧ f'.lanes = f.lanes
    ∧ f'.region = f.region ∧ f'.rank = f.rank
  frags : ∀ k, k ≠ f.id → t'.frag? k = t.frag? k
  groups : ∀ k, k ≠ g.num → t'.group? k = t.group? k
  hub : s'.hub = s.hub
  clock : s'.clock = s.clock
  cur : s'.cur = none

/-- The outcome of an instruction that acts on nothing but its home group: the fragment goes on at an address; of the
group change only what `g'` says; the other groups, fragments and teams, memory and every other part of the machine
are as they were, but for the record of which fragment each way issued last (R217) and the count of free values. -/
structure Ran (s : State) (t : Team) (f : Frag) (g : Group) (pc : Dword) (s' : State) (t' : Team) (f' : Frag)
    (g' : Group) : Prop where
  team : s'.team? t.id = some t'
  frag : t'.frag? f.id = some f'
  group : t'.group? g.num = some g'
  at_ : f'.pc = pc ∧ f'.st = .ready ∧ f'.lanes = f.lanes ∧ f'.fmt = f.fmt ∧ f'.hm = f.hm
    ∧ f'.region = f.region ∧ f'.rank = f.rank
  memory : ∀ a, Memory.read s'.mem a = Memory.read s.mem a
  machine : s' = { s with teams := s'.teams, cores := s'.cores, cur := none, free := s.free + 1, out := [] }
  cores : ∀ c, s'.core c = { s.core c with
    last := (s'.core c).last, lastClk := (s'.core c).lastClk, nt := (s'.core c).nt, idle := (s'.core c).idle }
  teams : ∀ k, k ≠ t.id → s'.team? k = s.team? k
  teamRest : t' = { t with groups := t'.groups, frags := t'.frags }
  groups : ∀ k, k ≠ g.num → t'.group? k = t.group? k
  frags : ∀ k, k ≠ f.id → t'.frag? k = t.frag? k

/-- Outside the team nothing has changed but the record of which fragment each way issued last and the count of free
values. -/
structure Outside (s : State) (t : Team) (s' : State) : Prop where
  memory : ∀ a, Memory.read s'.mem a = Memory.read s.mem a
  machine : s' = { s with
    teams := s'.teams, cores := s'.cores, cur := none, free := s.free + 1, out := [] }
  cores : ∀ c, s'.core c = { s.core c with
    last := (s'.core c).last, lastClk := (s'.core c).lastClk, nt := (s'.core c).nt, idle := (s'.core c).idle }
  teams : ∀ k, k ≠ t.id → s'.team? k = s.team? k

/-- What an instruction that accesses memory for a team leaves: memory has changed in the runs `ws` only; besides
teams only caches, write buffers, probes, cached translations, the count of R32, metering, fills and tickets have
changed, and what every issue changes. -/
structure Reaches (s : State) (t : Team) (ws : List Run) (s' : State) : Prop where
  machine : s' = { s with
    teams := s'.teams, cores := s'.cores, vids := s'.vids, mem := s'.mem, tags := s'.tags, memPoison := s'.memPoison,
    side := s'.side, tickReq := s'.tickReq, cur := none, free := s.free + 1, out := [] }
  cores : ∀ k, s'.core k = { s.core k with
    l1 := (s'.core k).l1, wbuf := (s'.core k).wbuf, probes := (s'.core k).probes,
    last := (s'.core k).last, lastClk := (s'.core k).lastClk, nt := (s'.core k).nt, idle := (s'.core k).idle }
  buffers : ∀ k, k ≠ t.core → (s'.core k).wbuf = (s.core k).wbuf
  vids : ∀ k, s'.vid k = { s.vid k with tlb := (s'.vid k).tlb, hintdeg := (s'.vid k).hintdeg }
  others : ∀ k, k ≠ t.vi → s'.vid k = s.vid k
  memory : ∀ a, Untouched s ws a → Memory.read s'.mem a = Memory.read s.mem a

/-- Of a team only home groups and fragments have changed. -/
def GroupsOnly (t t' : Team) : Prop := t' = { t with groups := t'.groups, frags := t'.frags }

/-- Of a home group that waits nothing has changed but the count of its issues. -/
def WaitsOnly (g g' : Group) : Prop := g' = g.perfAdd 0 1

/-- Of a home group only vector registers have changed, and its counts (R423: one
more instruction issued; R457, R463, R465). -/
def RegsOnly (g g' : Group) : Prop :=
  g' = { g.perfAdd 0 1 with
    regs := g'.regs, bound := g'.bound, wdog := 0, exempt := g.exempt - 1, skip := skipNext g.skip }

/-- Of a home group only predicates have changed, and its counts. -/
def PredsOnly (g g' : Group) : Prop :=
  g' = { g.perfAdd 0 1 with preds := g'.preds, wdog := 0, exempt := g.exempt - 1, skip := skipNext g.skip }

/-- Of a home group only scalar registers have changed, and its counts. -/
def ScalsOnly (g g' : Group) : Prop :=
  g' = { g.perfAdd 0 1 with scal := g'.scal, wdog := 0, exempt := g.exempt - 1, skip := skipNext g.skip }

/-- Of a home group only the long-class results not yet certain have changed, and its counts. -/
def PendOnly (g g' : Group) : Prop :=
  g' = { g.perfAdd 0 1 with pend := g'.pend, wdog := 0, exempt := g.exempt - 1, skip := skipNext g.skip }

/-- Of a home group nothing has changed but its counts. -/
def CountsOnly (g g' : Group) : Prop :=
  g' = { g.perfAdd 0 1 with wdog := 0, exempt := g.exempt - 1, skip := skipNext g.skip }

/-- R196: the long-class results that writes by lane leave pending. -/
def pending (ws : LaneWrites) : List Pend := if ws.isEmpty then [] else [{ regs := keyed ws }]

end Sys2Proof.Safety
end

