-- ==== Sys2Proof/Certificates/Slice0/Obligations.lean ====
section
/-! DEFINITION. The statements for the provers.  Those about one instruction are made for a fragment that carries one
home group (`Safety.Issues`), the form in which every instruction acts home group by home group (R191, R297). -/

namespace Sys2Proof.Claims

open Sys2Proof.Machine Sys2Proof.Safety

/-! ### Integer, move and lane instructions that write registers (R296 to R307, R314) -/

/-- What a result of `n` registers at `d` in the lanes of a mask leaves in the registers of a home group. -/
def LaneResult (g g' : Group) (act : Word) (d n : Nat) (v : Nat → Dword) : Prop :=
  ∀ r l, l < 32 → g'.reg r l = if bit act l then (kfind r (destWords d n (v l))).getD (g.reg r l) else g.reg r l

/-- R301 to R305: the instructions of two sources, with what they compute. -/
def int2Of : Instr → Option (Ty → Dword → Dword → Dword)
  | .iaddShort _ | .iadd _ => some iaddVal
  | .isubShort _ | .isub _ => some isubVal
  | .imulShort _ | .imul _ => some imulVal
  | .imulhShort _ | .imulh _ => some imulhVal
  | .iminShort _ | .imin _ => some iminVal
  | .imaxShort _ | .imax _ => some imaxVal
  | .andShort _ | .and _ => some andVal
  | .orShort _ | .or _ => some orVal
  | .xorShort _ | .xor _ => some xorVal
  | .andnShort _ | .andn _ => some andnVal
  | _ => none

/-- R301, R314: the instructions of one source. -/
def int1Of : Instr → Option (Ty → Dword → Dword)
  | .iabsShort _ | .iabs _ => some iabsVal
  | .inegShort _ | .ineg _ => some inegVal
  | .notShort _ | .not _ => some notVal
  | .brevShort _ | .brev _ => some brevVal
  | .movShort _ | .mov _ => some (fun _ a => a)
  | _ => none

/-- R301, R305, R306: the instructions of three sources. -/
def int3Of : Instr → Option (Ty → Dword → Dword → Dword → Dword)
  | .imad _ => some imadVal
  | .bfx _ => some bfxVal
  | .bfi _ => some bfiVal
  | .isel _ => some iselVal
  | _ => none

/-- R304: the shifts; the amount is 32 bits. -/
def shiftOf : Instr → Option (Ty → Dword → Nat → Dword)
  | .shlShort _ | .shl _ => some shlVal
  | .shrlShort _ | .shrl _ => some shrlVal
  | .shraShort _ | .shra _ => some shraVal
  | .rotlShort _ | .rotl _ => some rotlVal
  | _ => none

/-- R301: the counts, which write 32 bits. -/
def countOf : Instr → Option (Ty → Dword → Dword)
  | .popcShort _ | .popc _ => some popcVal
  | .clzShort _ | .clz _ => some clzVal
  | _ => none

/-- What a short-class lane instruction writes in each lane: how many registers, and their value. -/
def laneOf (i : Instr) (c : Ctx) (gc : GCtx) : Option (Nat × (Nat → Dword)) :=
  let n := tyRegs c.o.ty
  match int2Of i, int1Of i, int3Of i, shiftOf i, countOf i with
  | some v, _, _, _, _ => some (n, fun l => v c.o.ty (c.srcA gc n l) (c.srcB gc n l))
  | _, some v, _, _, _ => some (n, fun l => v c.o.ty (c.srcA gc n l))
  | _, _, some v, _, _ => some (n, fun l => v c.o.ty (c.srcA gc n l) (c.srcB gc n l) (c.srcC gc n l))
  | _, _, _, some v, _ => some (n, fun l => v c.o.ty (c.srcA gc n l) ((c.srcB gc 1 l).toNat % 2 ^ 32))
  | _, _, _, _, some v => some (1, fun l => v c.o.ty (c.srcA gc n l))
  | _, _, _, _, _ =>
    match i with
    | .imadw _ => some (2, fun l => imadwVal c.o.ty (c.srcA gc 1 l) (c.srcB gc 1 l) (c.srcC gc 2 l))
    | .leaShort _ => some (2, fun l => leaVal c.o.ty (fld c.o.w3 0 3) (c.srcA gc 2 l) (c.srcB gc n l))
    | .lea _ => some (2, fun l => leaVal c.o.ty (fld c.o.w3 0 3) (c.srcA gc 2 l) (c.srcB gc n l))
    | .moviShort _ => some (n, fun _ => c.imm)
    | .movi _ => some (n, fun _ => c.imm)
    | .bcastShort _ => some (1, fun _ => (gc.g.reg c.o.a.toNat (fld c.o.b 0 5)).setWidth 64)
    | .bcast _ => some (1, fun _ => (gc.g.reg c.o.a.toNat (fld c.o.b 0 5)).setWidth 64)
    | _ => none

/-- What an instruction that reads the clock, a group's counters or a special register writes in each lane (R423,
R424); counter 0 has counted the instruction itself. -/
def readOf (i : Instr) (s : State) (c : Ctx) (gc : GCtx) : Option (Nat × (Nat → Dword)) :=
  let sr := some (if sr64 c.o.a.toNat then 2 else 1, fun l => s.srRead c.team c.frag gc.g l c.o.a.toNat)
  let k := fld c.o.a 0 4
  let pf := some (2, fun _ : Nat => if k = 1 then w64 (c.team.residence s.clock.clk) else zget k (gc.g.perfAdd 0 1).perf)
  match i with
  | .perfShort _ => pf
  | .perf _ => pf
  | .timeShort _ => some (2, fun _ => w64 s.clock.ns)
  | .time _ => some (2, fun _ => w64 s.clock.ns)
  | .rdsrShort _ => sr
  | .rdsr _ => sr
  | _ => none

/-- R303: the division, which is long-class. -/
def divOf (c : Ctx) (gc : GCtx) (l : Nat) : Dword :=
  idivVal c.o.ty (c.srcA gc (tyRegs c.o.ty) l) (c.srcB gc (tyRegs c.o.ty) l)

/-! ### Floating-point instructions (R308 to R313) -/

/-- The short-class floating instructions, with what they compute in a lane. -/
def floatOf (i : Instr) (c : Ctx) : Option (GCtx → Nat → Word × Exc) :=
  match i with
  | .faddShort _ | .fadd _ => some (c.f2 FFmt.add)
  | .fsubShort _ | .fsub _ => some (c.f2 FFmt.sub)
  | .fmulShort _ | .fmul _ => some (c.f2 FFmt.mul)
  | .ffma _ => some (c.f3 FFmt.fma)
  | .fminShort _ | .fmin _ => some (c.f2 (fminmaxVal false))
  | .fmaxShort _ | .fmax _ => some (c.f2 (fminmaxVal true))
  | .fabsShort _ | .fabs _ => some (c.f1 fabsVal)
  | .fnegShort _ | .fneg _ => some (c.f1 fnegVal)
  | .froundShort _ | .fround _ => some (c.f1 froundVal)
  | .fclassShort _ | .fclass _ => some (c.f1 fclassVal)
  | .hfma2 _ => some c.hfma2Lane
  | .dot4 _ => some c.dot4Lane
  | _ => none

/-- The long-class floating instructions. -/
def longFloatOf (i : Instr) (c : Ctx) : Option (GCtx → Nat → Word × Exc) :=
  match i with
  | .fdivShort _ | .fdiv _ => some (c.f2 FFmt.div)
  | .frcpShort _ | .frcp _ => some (c.f1 frcpVal)
  | .frsqShort _ | .frsq _ => some (c.f1 frsqVal)
  | .fsqrtShort _ | .fsqrt _ => some (c.f1 fsqrtVal)
  | .fexp2Short _ | .fexp2 _ => some (c.f1 fexp2Val)
  | .flog2Short _ | .flog2 _ => some (c.f1 flog2Val)
  | .fsinShort _ | .fsin _ => some (c.f1 fsinVal)
  | .fcosShort _ | .fcos _ => some (c.f1 fcosVal)
  | _ => none

/-- R285: no active lane raises an exception that `fmt` enables. -/
def Untrapped {α : Type} (f : Frag) (act : Word) (v : Nat → α × Exc) : Prop :=
  ∀ l, bit act l = true → l < 32 → (v l).2 &&& fmtEnabled f.fmt = 0

/-- The comparison of two floating operands in a lane. -/
def fcmpOf (cc : FCc) (c : Ctx) (gc : GCtx) (l : Nat) : Bool × Exc :=
  c.ffmt.fcmp c.env.ftz cc (c.srcA gc 1 l).toNat (c.srcB gc 1 l).toNat

/-- What a predicate result in the lanes of a mask leaves in the predicates of a home group: `p0` takes no write. -/
def PredResult (g g' : Group) (act : Word) (d : Nat) (v : Nat → Bool) : Prop :=
  ∀ q l, l < 32 → bit (g'.pred q) l = if q = d ∧ q ≠ 0 ∧ bit act l = true then v l else bit (g.pred q) l

/-! ### Scalar instructions (R319, R320) -/

/-- The scalar instructions of two sources. -/
def scal2Of : Instr → Option (Ty → Dword → Dword → Dword)
  | .saddShort _ | .sadd _ => some iaddVal
  | .ssubShort _ | .ssub _ => some isubVal
  | .smulShort _ | .smul _ => some imulVal
  | .sandShort _ | .sand _ => some andVal
  | .sorShort _ | .sor _ => some orVal
  | .sxorShort _ | .sxor _ => some xorVal
  | _ => none

/-- What a scalar instruction writes: how many registers, and their value. -/
def scalOf (i : Instr) (c : Ctx) (gc : GCtx) : Option (Nat × Dword) :=
  let n := tyRegs c.o.ty
  match scal2Of i with
  | some v => some (n, v c.o.ty (c.sA gc n) (c.sB gc n))
  | none =>
    match i with
    | .smovShort _ | .smov _ => some (n, c.sA gc n)
    | .smoviShort _ | .smovi _ => some (n, c.imm)
    | .sshlShort _ | .sshl _ => some (n, shlVal c.o.ty (c.sA gc n) ((c.sB gc 1).toNat % 2 ^ 32))
    | .sshrShort _ | .sshr _ => some (n, sshrVal c.o.ty (c.sA gc n) ((c.sB gc 1).toNat % 2 ^ 32))
    | .ssel _ => some (n, iselVal c.o.ty (c.sA gc n) (c.sB gc n) (c.sC gc n))
    | .movsShort _ | .movs _ => some (1, (gc.g.reg c.o.a.toNat (fld c.o.b 0 5)).setWidth 64)
    | _ => none

/-- What a result of `n` scalars at `d` leaves in the scalars of a home group: nothing where no lane is active. -/
def ScalResult (g g' : Group) (act : Word) (d n : Nat) (v : Dword) : Prop :=
  ∀ k, g'.scalar k = if act = 0 then g.scalar k else (kfind k (destWords d n v)).getD (g.scalar k)

end Sys2Proof.Claims

section
open Sys2Proof Sys2Proof.Machine Sys2Proof.Safety Sys2Proof.Claims

/-- R180, R296 to R307, R314: every short-class integer, bit, address and move instruction of a fragment with one home
group completes: the registers D of the active lanes take its result, and nothing else changes but the fragment's
address and the counts of an issue. -/
def Obligations.LaneInstructionsComplete : Prop :=
  ∀ (i : Instr) (s : State) (t : Team) (f : Frag) (g : Group) (m : Word) (n : Nat) (v : Nat → Dword),
    Issues i s t f g m → laneOf i (ctx i s t f) (gctx i g m) = some (n, v) →
    ∃ s' t' f' g', exec i s = .next s' ∧ Ran s t f g (after i f) s' t' f' g' ∧ RegsOnly g g' ∧
      LaneResult g g' (active i g m) (ops i).d.toNat n v

/-- R423, R424: `TIME`, `PERF` and `RDSR` complete: the active lanes take the clock, the counter or the special
register in D, and nothing else changes. -/
def Sys2Proof.Claims.CounterReadsComplete : Prop :=
  ∀ (i : Instr) (s : State) (t : Team) (f : Frag) (g : Group) (m : Word) (n : Nat) (v : Nat → Dword),
    Issues i s t f g m → readOf i s (ctx i s t f) (gctx i g m) = some (n, v) →
    ∃ s' t' f' g', exec i s = .next s' ∧ Ran s t f g (after i f) s' t' f' g' ∧ RegsOnly g g' ∧
      LaneResult g g' (active i g m) (ops i).d.toNat n v

/-- R285, R308, R309, R312, R313: every short-class floating instruction completes where no active lane raises an
enabled exception: the registers D of the active lanes take its result, and nothing else changes. -/
def Sys2Proof.Claims.FloatInstructionsComplete : Prop :=
  ∀ (i : Instr) (s : State) (t : Team) (f : Frag) (g : Group) (m : Word) (v : GCtx → Nat → Word × Exc),
    Issues i s t f g m → floatOf i (ctx i s t f) = some v → Untrapped f (active i g m) (v (gctx i g m)) →
    ∃ s' t' f' g', exec i s = .next s' ∧ Ran s t f g (after i f) s' t' f' g' ∧ RegsOnly g g' ∧
      ∀ r l, l < 32 → g'.reg r l =
        if bit (active i g m) l ∧ r = (ops i).d.toNat then (v (gctx i g m) l).1 else g.reg r l

/-- R196, R285, R308: every long-class floating instruction completes where no active lane raises an enabled
exception: its results are pending for the registers D of the active lanes, and nothing else changes. -/
def Sys2Proof.Claims.LongFloatInstructionsComplete : Prop :=
  ∀ (i : Instr) (s : State) (t : Team) (f : Frag) (g : Group) (m : Word) (v : GCtx → Nat → Word × Exc),
    Issues i s t f g m → longFloatOf i (ctx i s t f) = some v → Untrapped f (active i g m) (v (gctx i g m)) →
    ∃ s' t' f' g', exec i s = .next s' ∧ Ran s t f g (after i f) s' t' f' g' ∧ PendOnly g g' ∧
      g'.pend = pending ((lanesOf (active i g m)).map (fun l => (l, [((ops i).d.toNat, (v (gctx i g m) l).1)])))

/-- R285, R310, R311: `FCMP` writes predicate D and `CVT` the registers D of the active lanes, and nothing else
changes, where no active lane raises an enabled exception. -/
def Sys2Proof.Claims.FloatComparisonAndConversionComplete : Prop :=
  (∀ (cc : FCc) (o : XOps) (s : State) (t : Team) (f : Frag) (g : Group) (m : Word),
    Issues (.fcmp cc o) s t f g m →
    Untrapped f (active (.fcmp cc o) g m) (fcmpOf cc (ctx (.fcmp cc o) s t f) (gctx (.fcmp cc o) g m)) →
    ∃ s' t' f' g', exec (.fcmp cc o) s = .next s' ∧ Ran s t f g (after (.fcmp cc o) f) s' t' f' g' ∧ PredsOnly g g' ∧
      PredResult g g' (active (.fcmp cc o) g m) (fld (ops (.fcmp cc o)).d 0 3) (fun l =>
        (fcmpOf cc (ctx (.fcmp cc o) s t f) (gctx (.fcmp cc o) g m) l).1)) ∧
  (∀ (o : XOps) (s : State) (t : Team) (f : Frag) (g : Group) (m : Word),
    Issues (.cvt o) s t f g m →
    Untrapped f (active (.cvt o) g m) ((ctx (.cvt o) s t f).cvtLane (gctx (.cvt o) g m)) →
    ∃ s' t' f' g', exec (.cvt o) s = .next s' ∧ Ran s t f g (after (.cvt o) f) s' t' f' g' ∧ RegsOnly g g' ∧
      LaneResult g g' (active (.cvt o) g m) (ops (.cvt o)).d.toNat (tyRegs (ops (.cvt o)).ty) (fun l =>
        ((ctx (.cvt o) s t f).cvtLane (gctx (.cvt o) g m) l).1))

/-- R314, R319, R320: every scalar instruction completes: where a lane is active the scalars D take its result, `SCMP`
writes predicate D in the active lanes, and nothing else changes. -/
def Obligations.ScalarInstructionsComplete : Prop :=
  (∀ (i : Instr) (s : State) (t : Team) (f : Frag) (g : Group) (m : Word) (n : Nat) (v : Dword),
    Issues i s t f g m → scalOf i (ctx i s t f) (gctx i g m) = some (n, v) →
    ∃ s' t' f' g', exec i s = .next s' ∧ Ran s t f g (after i f) s' t' f' g' ∧ ScalsOnly g g' ∧
      ScalResult g g' (active i g m) (ops i).d.toNat n v) ∧
  (∀ (cc : Cc) (o : XOps) (s : State) (t : Team) (f : Frag) (g : Group) (m : Word),
    Issues (.scmp cc o) s t f g m →
    ∃ s' t' f' g', exec (.scmp cc o) s = .next s' ∧ Ran s t f g (after (.scmp cc o) f) s' t' f' g' ∧ PredsOnly g g' ∧
      PredResult g g' (active (.scmp cc o) g m) (fld (ops (.scmp cc o)).d 0 3) (fun _ =>
        icmpVal (ops (.scmp cc o)).ty cc
          ((ctx (.scmp cc o) s t f).sA (gctx (.scmp cc o) g m) (tyRegs (ops (.scmp cc o)).ty))
          ((ctx (.scmp cc o) s t f).sB (gctx (.scmp cc o) g m) (tyRegs (ops (.scmp cc o)).ty))))

/-- R285, R308 to R313: the floating instructions complete where no active lane raises an enabled exception.  The model's
choices in it: log entries 36 and 86. -/
def Obligations.FloatingPointCompletes : Prop := FloatInstructionsComplete ∧ LongFloatInstructionsComplete ∧ FloatComparisonAndConversionComplete

/-! ### Control flow (R321 to R332) -/

/-- An instruction whose effect is on its team alone answers a next state: its fragment stands as `n` says, nothing
outside the team has changed, and `Q` says what has changed of the team. -/
def Sys2Proof.Claims.Goes (i : Instr) (s : State) (t : Team) (f : Frag) (g : Group) (n : Next)
    (Q : State → Team → Frag → Group → Prop) : Prop :=
  ∃ s' t' f' g', exec i s = .next s' ∧ Moved s t f g n s' t' f' g' ∧ Outside s t s' ∧ Q s' t' f' g'

/-- R328, R331: `NOP` and `LAND` complete and change nothing; `YIELD` completes and its fragment is passed over in the
next clk. -/
def Sys2Proof.Claims.NopLandYieldComplete : Prop :=
  (∀ (i : Instr) (s : State) (t : Team) (f : Frag) (g : Group) (m : Word),
    Issues i s t f g m → (∃ o, i = .nop o) ∨ (∃ o, i = .land o) →
    Goes i s t f g (goesOn i f) (fun _ t' _ g' => GroupsOnly t t' ∧ CountsOnly g g')) ∧
  (∀ (o : SOps) (s : State) (t : Team) (f : Frag) (g : Group) (m : Word), Issues (.yield o) s t f g m →
    Goes (.yield o) s t f g (goesOn (.yield o) f)
      (fun _ t' f' g' => GroupsOnly t t' ∧ CountsOnly g g' ∧ f'.yielded = true))

/-- R323: whether a home group takes the branch. -/
def Sys2Proof.Claims.taken (i : Instr) (g : Group) (m : Word) : Prop :=
  ((ops i).pred = 0 ∧ (ops i).pneg = false) ∨ active i g m ≠ 0

/-- R23, R322: an instruction goes to a target: the check sets the A bit of the target's leaf entry, and outside the team
nothing else of memory changes. -/
def Sys2Proof.Claims.Jumps (i : Instr) (s : State) (t : Team) (f : Frag) (g : Group) (target : Dword)
    (Q : Team → Group → Prop) : Prop :=
  ∃ s' t' f' g', exec i s = .next s' ∧ Moved s t f g { goesOn i f with pc := target } s' t' f' g' ∧
    Reaches s t (targetEntry (begins i s t f) t.vi f.hm target) s' ∧
    s' = { sealStep s ((begins i s t f).targetTouch t.vi f.hm target) with teams := s'.teams } ∧
    (∀ k, k ≠ t.id → s'.team? k = s.team? k) ∧ Q t' g'

/-- R48, R322: no page of the target's translation migrates, and the target passes its check. -/
def Sys2Proof.Claims.TargetPasses (v : State) (t : Team) (f : Frag) (ind land : Bool) (target : Dword) : Prop :=
  v.targetHeld t.vi f.hm ind target = false ∧ ∃ u, v.targetBad t.vi t.core f.hm ind land target = (none, u)

/-- R322, R323: `BRA` goes to its target where the group takes it and the target passes its check, else to the next
instruction; nothing else changes. -/
def Obligations.BranchCompletes : Prop :=
  ∀ (o : XOps) (s : State) (t : Team) (f : Frag) (g : Group) (m : Word), Issues (.bra o) s t f g m →
    (¬ taken (.bra o) g m → Goes (.bra o) s t f g (goesOn (.bra o) f)
      (fun _ t' _ g' => GroupsOnly t t' ∧ CountsOnly g g')) ∧
    (taken (.bra o) g m → TargetPasses (begins (.bra o) s t f) t f false false (offAddr f.pc (ops (.bra o)).w3) →
      Jumps (.bra o) s t f g (offAddr f.pc (ops (.bra o)).w3) (fun t' g' => GroupsOnly t t' ∧ CountsOnly g g'))

/-- R327: the calls and returns: whether they link, whether their target is indirect, whether it must be a landing
point, and the target. -/
def Sys2Proof.Claims.transferOf (i : Instr) (c : Ctx) (gc : GCtx) : Option (Bool × Bool × Bool × Dword) :=
  match i with
  | .call _ => some (true, false, false, offAddr c.frag.pc c.o.w3)
  | .calliShort _ | .calli _ => some (true, true, true, c.srcA gc 2 (lowBit 0 gc.carried))
  | .retShort _ | .ret _ => some (false, true, false, c.srcA gc 2 (lowBit 0 gc.carried))
  | _ => none

/-- R322, R327: `CALL`, `CALLI` and `RET` go to a target that passes its check; the calls leave the address after
them in the pair D of every carried lane. -/
def Obligations.CallsComplete : Prop :=
  ∀ (i : Instr) (s : State) (t : Team) (f : Frag) (g : Group) (m : Word) (link ind land : Bool) (target : Dword),
    Issues i s t f g m → transferOf i (ctx i s t f) (gctx i g m) = some (link, ind, land, target) →
    TargetPasses (begins i s t f) t f ind land target →
    Jumps i s t f g target (fun t' g' => GroupsOnly t t' ∧
      (link = false → CountsOnly g g') ∧
      (link = true → RegsOnly g g' ∧ LaneResult g g' m (ops i).d.toNat 2 (fun _ => after i f)))

/-- R330: `EXECR` writes the mask of the carried lanes that `exec` enables in register D of every carried lane;
`EXECW` makes each carried lane that has not exited take its bit of its own A as its `exec` bit. -/
def Sys2Proof.Claims.ExecMaskInstructionsComplete : Prop :=
  (∀ (i : Instr) (s : State) (t : Team) (f : Frag) (g : Group) (m : Word), Issues i s t f g m →
    (∃ o, i = .execrShort o) ∨ (∃ o, i = .execr o) →
    Goes i s t f g (goesOn i f) (fun _ t' _ g' => GroupsOnly t t' ∧ RegsOnly g g' ∧
      LaneResult g g' m (ops i).d.toNat 1 (fun _ => (g.exec &&& m).setWidth 64))) ∧
  (∀ (i : Instr) (s : State) (t : Team) (f : Frag) (g : Group) (m : Word), Issues i s t f g m →
    (∃ o, i = .execwShort o) ∨ (∃ o, i = .execw o) →
    Goes i s t f g (goesOn i f) (fun _ t' _ g' => GroupsOnly t t' ∧
      CountsOnly { g with exec := g'.exec } g' ∧
      ∀ l, l < 32 → bit g'.exec l = if bit m l then
        bit ((ctx i s t f).srcA (gctx i g m) 1 l) l && bit g.launched l && !bit g.exited l else bit g.exec l))

/-- R329: `EXIT` ends the active lanes: they leave `exec` and the fragment, which goes on with its other lanes or, with
none left, ceases to exist; a group none of whose lanes is left gives up its registers and private memory (R68, R89);
here of a team that is in no divergent region and no fragment of which is held. -/
def Sys2Proof.Claims.ExitCompletes : Prop :=
  ∀ (i : Instr) (s : State) (t : Team) (f : Frag) (g : Group) (m : Word), Issues i s t f g m →
    (∃ o, i = .exitShort o) ∨ (∃ o, i = .exit o) → t.regions = [] →
    (∀ k ∈ t.frags, ∀ j arr n, k.st ≠ .held j arr n) →
    ∃ s' t' g', exec i s = .next s' ∧ Outside s t s' ∧ s'.team? t.id = some t' ∧ GroupsOnly t t' ∧
      t'.group? g.num = some g' ∧ (∀ k, k ≠ g.num → t'.group? k = t.group? k) ∧
      (∀ k, k ≠ f.id → t'.frag? k = t.frag? k) ∧
      CountsOnly { g with exited := g.exited ||| active i g m, exec := g.exec &&& ~~~(active i g m) }.release g' ∧
      (if m &&& ~~~(active i g m) = 0 then t'.frag? f.id = none
       else ∃ f', t'.frag? f.id = some f' ∧ f'.pc = after i f ∧ f'.st = .ready ∧ f'.fmt = f.fmt ∧ f'.hm = f.hm ∧
         f'.lanes = [(g.num, m &&& ~~~(active i g m))] ∧ f'.region = f.region ∧ f'.rank = f.rank)

/-- R184: `JOIN` of the region the fragment is in, where other lanes of the region have yet to arrive: the fragment
waits, joined, and its lanes are counted as arrived; here of a team in that region only, no fragment of which is
held. -/
def Sys2Proof.Claims.JoinArrives : Prop :=
  ∀ (o : SOps) (s : State) (t : Team) (f : Frag) (g : Group) (m : Word) (r : Region), Issues (.join o) s t f g m →
    t.regions = [r] → f.region = some r.id → r.jaddr = f.pc → t.meetsElsewhere f none = false →
    (∀ k ∈ t.frags, ∀ j arr n, k.st ≠ .held j arr n) →
    gsubset r.meet (gunion r.arr [(g.num, m)]) = false →
    Goes (.join o) s t f g (waitsIn f (.joined (firstWord (.join o)))) (fun _ t' _ g' => WaitsOnly g g' ∧
      t' = { t with groups := t'.groups, frags := t'.frags,
                    regions := [{ r with arr := gunion r.arr [(g.num, m)] }] })

/-- R184, R188: `JOIN` where the last lanes of the region arrive: the region closes, and the lanes of the region that
have not exited go on together after the `JOIN` in the enclosing path; here a region of one home group that is the
team's only one. -/
def Sys2Proof.Claims.JoinCloses : Prop :=
  ∀ (o : SOps) (s : State) (t : Team) (f : Frag) (g : Group) (m mm : Word) (r : Region), Issues (.join o) s t f g m →
    t.regions = [r] → f.region = some r.id → r.jaddr = f.pc → r.meet = [(g.num, mm)] → r.fmts = [(g.num, f.fmt)] →
    t.meetsElsewhere f none = false → (∀ k ∈ t.frags, ∀ j arr n, k.st ≠ .held j arr n) →
    (∀ k ∈ t.frags, k.id < t.nextFrag) → g.way < 8 → mm &&& g.alive ≠ 0 →
    gsubset r.meet (gunion r.arr [(g.num, m)]) = true →
    ∃ s' t' f' g', exec (.join o) s = .next s' ∧ Outside s t s' ∧ s'.team? t.id = some t' ∧
      t'.regions = [] ∧ t'.group? g.num = some g' ∧ CountsOnly g g' ∧
      (∀ k, k ≠ g.num → t'.group? k = t.group? k) ∧
      t'.frags = t.frags.filter (fun k => k.region != some r.id) ++ [f'] ∧ f'.pc = r.jaddr + 4 ∧ f'.st = .ready ∧
      f'.lanes = [(g.num, mm &&& g.alive)] ∧ f'.region = r.parent ∧ f'.rank = r.ppath ∧ f'.fmt = f.fmt ∧
      f'.hm = g.hm ∧ f'.way = g.way

/-- The active lanes of a group that take a target, keyed as R182 has them; the others fall through. -/
def Sys2Proof.Claims.targetsOf (g : Nat) (act : Word) (target : Nat → Option Dword) : List (Nat × Dword) :=
  (lanesOf act).filterMap (fun l => (target l).map (fun a => (32 * g + l, a)))

/-- R182 to R187: a meeting of one home group that completes with active lanes: a region is entered, and for each
target, more lanes first, a fragment of the lanes that chose it. -/
def Sys2Proof.Claims.Diverged (t : Team) (f : Frag) (g : Group) (m act : Word) (jmpi : Bool) (join : Dword)
    (target : Nat → Dword) (t' : Team) (g' : Group) : Prop :=
  t'.group? g.num = some g' ∧ (∀ k, k ≠ g.num → t'.group? k = t.group? k) ∧
  (∃ r, t'.regions = t.regions ++ [r] ∧ r.id = t.nextRegion ∧ r.jaddr = join ∧ r.kind = jmpi ∧ r.parent = f.region ∧
    r.ppath = f.rank ∧ r.meet = [(g.num, m)] ∧
    r.paths = (paths [(g.num, act)] (fun k => target (k % 32))).length ∧
    ∀ l, l < 32 → bit (glanes r.arr g.num) l = (bit m l && !bit act l)) ∧
  (∀ k p, (paths [(g.num, act)] (fun k => target (k % 32)))[k]? = some p →
    ∃ h ∈ t'.frags, h.region = some t.nextRegion ∧ h.rank = k ∧ h.pc = p.1 ∧ h.lanes = p.2 ∧ h.st = .ready ∧
      h.fmt = f.fmt ∧ h.way = g.way) ∧
  ∀ h ∈ t'.frags, h.region = some t.nextRegion ∨ (h ∈ t.frags ∧ h.id ≠ f.id)

/-- R324, R326: the target a lane takes at a divergence instruction, none where it falls through, and the address of its
`JOIN`. -/
def Sys2Proof.Claims.meetOf (i : Instr) (c : Ctx) (gc : GCtx) : Option (Bool × (Nat → Option Dword) × Dword) :=
  match i with
  | .brd _ => some (false,
      fun l => if bit (gc.g.pred (fld c.o.b 0 3)) l != bit c.o.b 3 then some (offAddr c.frag.pc c.o.w3) else none,
      offAddr c.frag.pc ((c.o.lit.getD 0).setWidth 32))
  | .jmpi _ => some (true, fun l => some (gc.g.val c.free 2 c.o.a.toNat l), offAddr c.frag.pc c.o.w3)
  | _ => none

/-- R23, R48, R322, R326: no page of the targets' translations migrates, and every target passes its check; `w` is the
state after the walk reads. -/
def Sys2Proof.Claims.TargetsPass (v : State) (t : Team) (g : Group) (jmpi : Bool) (l : List (Nat × Dword)) (w : State) :
    Prop :=
  (∀ e ∈ l, v.targetHeld t.vi g.hm jmpi e.2 = false) ∧ v.checkWalk t.vi t.core g.hm jmpi jmpi l = ({}, w)

/-- R182, R324, R326: `BRD` and `JMPI` of a fragment that is its whole path complete at once: where a lane is active and
every target passes its check, the path diverges into a region, and the A bits of the targets' leaf entries are set. -/
def Sys2Proof.Claims.DivergenceCompletes : Prop :=
  ∀ (i : Instr) (s : State) (t : Team) (f : Frag) (g : Group) (m : Word) (jmpi : Bool)
    (target : Nat → Option Dword) (join : Dword) (w : State), Issues i s t f g m → meetOf i (ctx i s t f) (gctx i g m) = some (jmpi, target, join) →
    t.path f = [f] → active i g m ≠ 0 → t.regions.length < stackLimit → g.way < 8 →
    (∀ k ∈ t.frags, k.id < t.nextFrag ∧ k.region ≠ some t.nextRegion) →
    let l := takenTargets g.num (active i g m) (fun k => (target (k % 32)).isSome)
      (fun k => (target (k % 32)).getD (after i f))
    TargetsPass (begins i s t f) t g jmpi l w →
    ∃ s' t' g', exec i s = .next s' ∧ s'.team? t.id = some t' ∧
      Reaches s t (targetEntries t.vi g.hm (l.map (fun e => e.2)) w) s' ∧
      s' = { sealStep s (touched t.vi g.hm l w) with teams := s'.teams } ∧
      (∀ k, k ≠ t.id → s'.team? k = s.team? k) ∧ CountsOnly g g' ∧
      Diverged t f g m (active i g m) jmpi join (fun l => (target l).getD (after i f)) t' g'

/-- R328, R330, R331: `NOP`, `LAND`, `YIELD`, `EXECR` and `EXECW` complete. -/
def Sys2Proof.Claims.PathInstructionsComplete : Prop := NopLandYieldComplete ∧ ExecMaskInstructionsComplete

/-- R184, R188: `JOIN` waits for the other lanes of its region, and the last arrival closes the region. -/
def Obligations.JoinCompletes : Prop := JoinArrives ∧ JoinCloses

/-- R187, R328, R330, R331: `EXIT`, `NOP`, `LAND`, `YIELD`, `EXECR` and `EXECW` complete. -/
def Obligations.PathsAndMasksComplete : Prop := ExitCompletes ∧ PathInstructionsComplete

/-- R182: a meeting of a fragment that is its whole path completes in a step of its own as it does at once: the path
diverges into a region, and outside the team nothing changes but what the check of the targets does. -/
def Sys2Proof.Claims.MeetingCompletes : Prop :=
  ∀ (s : State) (t : Team) (f : Frag) (g : Group) (m act : Word) (i : Instr)
    (target : Nat → Option Dword) (join next : Dword) (w : State), s.team? t.id = some t → t.frag? f.id = some f → f.lanes = [(g.num, m)] →
    t.group? g.num = some g → f.st = .meeting i [(g.num, act)] (targetsOf g.num act target) join next →
    t.path f = [f] → act ≠ 0 → act &&& ~~~m = 0 → t.regions.length < stackLimit → g.way < 8 →
    (s.core t.core).dbg.step = false → (∀ k ∈ t.frags, k.id < t.nextFrag ∧ k.region ≠ some t.nextRegion) →
    let l := takenTargets g.num act (fun k => (target (k % 32)).isSome) (fun k => (target (k % 32)).getD next)
    TargetsPass (now s) t g (i matches .jmpi _) l w →
    ∃ s' t' g', exec (.divergenceMeetingComplete t.id f.id) s = .next s' ∧ s'.team? t.id = some t' ∧
      s' = { sealMem s (touched t.vi g.hm l w) with teams := s'.teams } ∧
      (∀ a, Untouched s (targetEntries t.vi g.hm (l.map (fun e => e.2)) w) a → Memory.read s'.mem a = Memory.read s.mem a) ∧
      (∀ k, k ≠ t.id → s'.team? k = s.team? k) ∧ g' = g.complete ∧
      Diverged t f g m act (i matches .jmpi _) join (fun l => (target l).getD next) t' g'

/-! ### Member-masked lane instructions (R193, R194, R315 to R318) -/

/-- What the lanes of the group supply: nothing but the carried lanes. -/
def Sys2Proof.Claims.supplied (m : Word) (v : Nat → Dword) (l : Nat) : Dword := if bit m l then v l else 0

/-- R285, R318: a reduction or scan leaves its results pending, unless an active lane raises an enabled exception. -/
def Sys2Proof.Claims.combined (fmt : Word) (ty : Ty) (d : Nat) (act : Word) (r : Nat → Nat × Exc) : Option Pend :=
  if ty = .f32 ∧ (lanesOf act).any (fun l => (r l).2 &&& fmtEnabled fmt != 0) then none
  else some { regs := keyed ((lanesOf act).map (fun l => (l, [(d, w32 (r l).1)]))) }

/-- R316 to R318: what a member-masked instruction leaves pending, from what the carried lanes supply. -/
def Sys2Proof.Claims.memberOf (i : Instr) (c : Ctx) (gc : GCtx) (named : Word) : Option Pend :=
  let a := supplied gc.carried (fun l => c.srcA gc 1 l)
  let b := supplied gc.carried (fun l => c.srcB gc 1 l)
  let num (l : Nat) : Nat := (a l).toNat % 2 ^ 32
  match i with
  | .shfl mode o => some (memberRegs o.d.toNat gc.act (fun l => shflVal mode named a ((b l).toNat % 2 ^ 32) l))
  | .vote op o =>
    let ones := maskOf (fun l => bit gc.act l && bit (gc.g.pred (fld o.a 0 3)) l)
    match op with
    | .any => some (memberPreds (fld o.d 0 3) gc.act (ones != 0))
    | .all => some (memberPreds (fld o.d 0 3) gc.act (ones == gc.act))
    | .ballot => some (memberRegs o.d.toNat gc.act (fun _ => ones.setWidth 64))
  | .redux op o => combined c.frag.fmt o.ty o.d.toNat gc.act (fun _ =>
      combine op o.ty (fEnv c.frag.fmt) ((lanesOf gc.act).map num))
  | .scan op excl o => combined c.frag.fmt o.ty o.d.toNat gc.act (fun l =>
      combine op o.ty (fEnv c.frag.fmt)
        ((lanesOf gc.act).filter (fun k => decide (k < l) || (!excl && decide (k = l))) |>.map num))
  | _ => none

/-- R193, R316 to R318: `SHFL`, `VOTE`, `REDUX` and `SCAN` of a fragment that carries every named lane complete: the
results of the active lanes are pending; here of a team no other fragment of which is held. -/
def Sys2Proof.Claims.MemberInstructionsComplete : Prop :=
  ∀ (i : Instr) (s : State) (t : Team) (f : Frag) (g : Group) (m : Word) (p : Pend), Issues i s t f g m →
    (∀ k ∈ t.frags, ∀ j arr n, k.st ≠ .held j arr n) →
    namedLanes (memberMask i) (active i g m) g.launched &&& ~~~m = 0 → active i g m &&& ~~~g.launched = 0 →
    memberOf i (ctx i s t f) (gctx i g m) (namedLanes (memberMask i) (active i g m) g.launched) = some p →
    Goes i s t f g (goesOn i f) (fun _ t' _ g' => GroupsOnly t t' ∧ PendOnly g g' ∧ g'.pend = [p])

/-- R193: where a named lane has yet to arrive, the fragment is held as arrived, and nothing else changes; the lanes that have not arrived may still do so: they have not exited, and the team is in no region. -/
def Sys2Proof.Claims.MemberInstructionsWait : Prop :=
  ∀ (i : Instr) (s : State) (t : Team) (f : Frag) (g : Group) (m : Word), Issues i s t f g m →
    ((∃ mode o, i = .shfl mode o) ∨ (∃ op o, i = .vote op o) ∨ (∃ op o, i = .redux op o) ∨
      (∃ op ex o, i = .scan op ex o) ∨ (∃ o, i = .xch o)) →
    (∀ k ∈ t.frags, ∀ j arr n, k.st ≠ .held j arr n) → t.regions = [] → g.exited = 0 →
    namedLanes (memberMask i) (active i g m) g.launched &&& ~~~m ≠ 0 →
    ∃ arr, arr.group = g.num ∧ arr.lanes = m ∧ arr.act = active i g m ∧
      Goes i s t f g (waitsIn f (.held i [arr] (after i f))) (fun _ t' _ g' => GroupsOnly t t' ∧ WaitsOnly g g')

/-- R193: the fragments of a group that wait at one instruction, which together carry every named lane: the results are
pending for the group, and each of them goes on. -/
def Sys2Proof.Claims.MemberArrivalCompletes : Prop :=
  ∀ (s : State) (t : Team) (g : Group) (f0 : Frag) (i : Instr) (arr : List Arrival) (next : Dword) (p : Pend)
    (named : Word), s.team? t.id = some t → t.group? g.num = some g → f0 ∈ t.frags → f0.st = .held i arr next →
    (s.core t.core).dbg.step = false → (t.frags.map (fun f => f.id)).Nodup →
    ((∃ mode o, i = .shfl mode o) ∨ (∃ op o, i = .vote op o) ∨ (∃ op o, i = .redux op o) ∨ (∃ op ex o, i = .scan op ex o)) →
    (∀ k ∈ t.frags, (∃ m, m ≠ 0 ∧ k.lanes = [(g.num, m)] ∧ k.pc = f0.pc ∧
        ∃ a, k.st = .held i [a] next ∧ a.group = g.num ∧ a.lanes = m) ∨ (∀ j a n, k.st ≠ .held j a n)) →
    t.memberReady g.num (t.gather i f0.pc g.num) i = some named →
    memberPerform i f0.fmt named (t.gather i f0.pc g.num) = .ok p →
    (∀ e ∈ t.gather i f0.pc g.num, e.1.fmt = f0.fmt) →
    ∃ s' t' g', exec (.memberArrivalComplete t.id g.num) s = .next s' ∧ s'.team? t.id = some t' ∧
      s' = { s with teams := s'.teams, free := s.free + 1, out := [] } ∧ (∀ k, k ≠ t.id → s'.team? k = s.team? k) ∧
      GroupsOnly t t' ∧ t'.group? g.num = some g' ∧ g'.pend = g.pend ++ [p] ∧
      (∀ k, k ≠ g.num → t'.group? k = t.group? k) ∧
      ∀ k ∈ t.frags, ∃ k', t'.frag? k.id = some k' ∧
        if k.st matches .held _ _ _ then k'.st = .ready ∧ k'.pc = next ∧ k'.lanes = k.lanes else k' = k

/-- R193, R363: `XCH` of a fragment that carries every named lane: the group waits for its partner with the values of its
active lanes. -/
def Sys2Proof.Claims.ExchangeArrives : Prop :=
  ∀ (o : XOps) (s : State) (t : Team) (f : Frag) (g : Group) (m : Word), Issues (.xch o) s t f g m →
    (∀ k ∈ t.frags, ∀ j arr n, k.st ≠ .held j arr n) →
    namedLanes (memberMask (.xch o)) (active (.xch o) g m) g.launched &&& ~~~m = 0 →
    active (.xch o) g m &&& ~~~g.launched = 0 →
    ∃ s' t' f' g' x, exec (.xch o) s = .next s' ∧ Moved s t f g (waitsIn f (.xch (after (.xch o) f))) s' t' f' g' ∧
      s' = { s with teams := s'.teams, cores := s'.cores, cur := none, free := s.free + 1, out := [], nextId := s.nextId + 1 } ∧
      g'.xch = some x ∧ x.seq = s.nextId ∧ x.tag = o.b.toNat ∧ x.role = o.c.toNat % 64 ∧ x.dst = o.d.toNat ∧
      x.act = active (.xch o) g m ∧ x.pc = f.pc ∧
      x.vals = (lanesOf (active (.xch o) g m)).map (fun l =>
        (l, (ctx (.xch o) s t f).srcA (gctx (.xch o) g m) (tyRegs (ops (.xch o)).ty) l)) ∧
      g' = { g.perfAdd 0 1 with xch := g'.xch }

/-- R182, R324, R326: `BRD` and `JMPI` complete at once, or as a meeting in a step of its own. -/
def Obligations.DivergenceAndMeetingComplete : Prop := DivergenceCompletes ∧ MeetingCompletes

/-- R193, R316 to R318: the instructions over named lanes complete, or wait for the lanes named, whose arrival completes them.
The model's choices in it: log entries 36, 88 and 109. -/
def Obligations.MemberInstructionsRun : Prop := MemberInstructionsComplete ∧ MemberInstructionsWait ∧ MemberArrivalCompletes

/-! ### Loads, stores, tile memory, accumulators, tags, atomics, fences (R31, R77 to R93, R174, R335 to R345) -/

/-- An instruction that accesses memory answers a next state: the effect `v`, with its writes applied to memory, after
which the fragment has gone on as `n` says; memory has changed in the runs `ws` only. -/
def Sys2Proof.Claims.Lands (i : Instr) (s : State) (t : Team) (f : Frag) (g : Group) (n : Next) (ws : List Run)
    (v : State) : Prop :=
  ∃ s' t' f' g' tv gv, exec i s = .next s' ∧ Moved s t f g n s' t' f' g' ∧ Reaches s t ws s' ∧
    s' = { sealStep s v with teams := s'.teams } ∧ v.team? t.id = some tv ∧ tv.group? g.num = some gv ∧
    g' = gv.complete ∧ GroupsOnly tv t' ∧ ∀ k, k ≠ t.id → s'.team? k = v.team? k

/-- R48, R56, R57, R120: every lane of the access of a home group passes its checks: no lane faults, no page is
migrating, no watchpoint matches and no queue that the access needs is full; `hits` are the lanes with their addresses
and places. -/
def Sys2Proof.Claims.Located (i : Instr) (s : State) (t : Team) (f : Frag) (g : Group) (m : Word) (kind : AKind)
    (size : Nat) (lanes : List (Nat × Dword)) (hits : List (Nat × Dword × Tgt)) : Prop :=
  (sees i s t f).locateAll (seen i g m) kind size lanes (begins i s t f) = (.ok hits (goesOn i f), begins i s t f)

/-- The places of the lanes. -/
def Sys2Proof.Claims.placesOf (hits : List (Nat × Dword × Tgt)) : List Tgt := hits.map (fun e => e.2.2)

/-- R336: the addresses of the active lanes of an access. -/
def Sys2Proof.Claims.addrsOf (i : Instr) (s : State) (t : Team) (f : Frag) (g : Group) (m : Word) :
    List (Nat × Dword) := (lanesOf (active i g m)).map (fun l => (l, (sees i s t f).addr (seen i g m) l))

/-- R338: what a load leaves: the values of the lanes' places pending, and an acquire performed. -/
def Sys2Proof.Claims.loadEffect (c : Ctx) (gc : GCtx) (hits : List (Nat × Dword × Tgt))
    (words : GCtx → List (Nat × Dword × Option (List Byte)) → Option Pend) (u : State) : State :=
  let v := c.loadAll (acquires c.order && decide (2 ≤ c.scope)) (accBytes c.o) [(gc, hits)] words
    (u.hint c [(gc, hits)] false)
  if acquires c.order then v.acquire c.core c.team.vi c.scope else v

/-- R338: `LD` completes where every active lane's access passes its checks, `LDU` where that of the lowest active lane
does, whose value every active lane takes. -/
def Sys2Proof.Claims.LoadsComplete : Prop :=
  ∀ (i : Instr) (s : State) (t : Team) (f : Frag) (g : Group) (m : Word) (hits : List (Nat × Dword × Tgt)),
    Issues i s t f g m →
    ((∃ o, i = .ldShort o) ∨ (∃ o, i = .ld o) →
      Located i s t f g m .load (accBytes (ops i)) (addrsOf i s t f g m) hits →
      Lands i s t f g (goesOn i f) (leaves (placesOf hits) ++ buffered s t.core)
        (loadEffect (sees i s t f) (seen i g m) hits
          (fun _ r => loadPend r (loadWords (ops i).ty (ops i).d.toNat)) (begins i s t f))) ∧
    ((∃ o, i = .lduShort o) ∨ (∃ o, i = .ldu o) →
      Located i s t f g m .load (accBytes (ops i)) ((addrsOf i s t f g m).take 1) hits →
      Lands i s t f g (goesOn i f) (leaves (placesOf hits) ++ buffered s t.core)
        (loadEffect (sees i s t f) (seen i g m) hits
          (fun gc r => loadPend (r.flatMap (fun e => match e.2.2 with
            | none => [e]
            | some _ => (lanesOf gc.act).map (fun l => (l, e.2.1, e.2.2))))
            (loadWords (ops i).ty (ops i).d.toNat)) (begins i s t f)))

/-- The bytes of a place that accesses find as they stand: bytes of a scratch block, of a lane's private memory, or of
physical memory. -/
def Sys2Proof.Claims.bytesAt (s : State) (g : Group) (lane size : Nat) (x : Tgt) : List Byte :=
  match x with
  | .scr k off => match s.team? k with | some u => u.scrRead off size | none => List.replicate size 0
  | .priv off => g.privRead lane off size
  | .regw _ => []
  | .glob x => (List.range size).map (fun k => Memory.read s.mem (x.pa + k))

/-- A place whose bytes an access reads as they stand: nothing of it is poisoned; for memory, the page is not
compressed, its accessed bit is known to be set, each unit is under the page's key pair, and neither the core's L1 nor
its write buffer holds any of the line. -/
def Sys2Proof.Claims.Plain (s : State) (t : Team) (g : Group) (lane size : Nat) (x : Tgt) : Prop :=
  match x with
  | .scr k off => ∃ u, s.team? k = some u ∧ u.scrPoisoned off size = false
  | .priv off => ∀ w ∈ g.privPoison, ¬ (8 * w < 4096 * lane + off + size ∧ 4096 * lane + off < 8 * w + 8)
  | .regw _ => False
  | .glob x => bit x.leaf 6 = false ∧ adBits .load &&& ~~~x.known = 0 ∧
      (∀ k, k < size → zget ((x.pa + k) / 64) s.tags = s.keyTag x.leaf) ∧ s.poisoned x.pa size = false ∧
      (∀ l ∈ (s.core t.core).l1, l.line ≠ x.pa / 128 * 128) ∧
      (∀ e ∈ (s.core t.core).wbuf, x.pa + size ≤ e.pa ∨ e.pa + e.bytes.length ≤ x.pa)

/-- R336, R338: `LD` of places whose bytes stand as they are, in any window but the register window, leaves those bytes,
least significant first, pending for register D of each active lane. -/
def Sys2Proof.Claims.LoadReadsBytes : Prop :=
  ∀ (o : XOps) (s : State) (t : Team) (f : Frag) (g : Group) (m : Word) (hits : List (Nat × Dword × Tgt)),
    Issues (.ld o) s t f g m → acquires (fld o.w3 3 3) = false →
    Located (.ld o) s t f g m .load (accBytes o) (addrsOf (.ld o) s t f g m) hits →
    (∀ e ∈ hits, Plain s t g e.1 (accBytes o) e.2.2) →
    (∀ e ∈ hits, ∀ e' ∈ hits, ∀ x y, e.2.2 = .glob x → e'.2.2 = .glob y → x.pa / 128 = y.pa / 128 →
      s.keyTag x.leaf = s.keyTag y.leaf) →
    ∃ s' t' f' g', exec (.ld o) s = .next s' ∧ Moved s t f g (goesOn (.ld o) f) s' t' f' g' ∧
      (∀ a, Memory.read s'.mem a = Memory.read s.mem a) ∧
      g'.pend = (loadPend (hits.map (fun e => (e.1, e.2.1, some (bytesAt s g e.1 (accBytes o) e.2.2))))
        (loadWords o.ty o.d.toNat)).toList ∧
      (∀ r l, g'.reg r l = g.reg r l)

/-- R139, R338: `ST` completes where every active lane's access passes its checks: a release is performed where its
order asks for one, then the lanes store their D, in a free order where places meet. -/
def Sys2Proof.Claims.StoresComplete : Prop :=
  ∀ (i : Instr) (s : State) (t : Team) (f : Frag) (g : Group) (m : Word) (hits : List (Nat × Dword × Tgt)),
    Issues i s t f g m → (∃ o, i = .stShort o) ∨ (∃ o, i = .st o) →
    Located i s t f g m .store (accBytes (ops i)) (addrsOf i s t f g m) hits →
    let c := sees i s t f
    let u := begins i s t f
    let l := [(seen i g m, hits)]
    Lands i s t f g (goesOn i f)
      (leaves (placesOf hits) ++ places s (accBytes (ops i)) (placesOf hits) ++ buffered s t.core)
      (c.storeAll (fun gc n => c.storeBytes gc (accBytes (ops i)) n) l
        ((if releases c.order && !hits.isEmpty then u.release t.core t.vi c.scope else u).hint c l false))

/-- R77, R89, R173, R336: `ST` of one active lane leaves the bytes of its D in its place: in the block of scratch, in the
lane's private memory, in the core's write buffer where the page is CACHED, else in memory. -/
def Sys2Proof.Claims.StoreWritesBytes : Prop :=
  ∀ (o : XOps) (s : State) (t : Team) (f : Frag) (g : Group) (m : Word) (l : Nat) (a : Dword) (x : Tgt),
    Issues (.st o) s t f g m → releases (fld o.w3 3 3) = false →
    Located (.st o) s t f g m .store (accBytes o) (addrsOf (.st o) s t f g m) [(l, a, x)] →
    ∃ s' t' f' g', exec (.st o) s = .next s' ∧ Moved s t f g (goesOn (.st o) f) s' t' f' g' ∧
      (∀ r l, g'.reg r l = g.reg r l) ∧
      let bs := (sees (.st o) s t f).storeBytes (seen (.st o) g m) (accBytes o) l
      match x with
      | .scr k off => ∀ w, s.team? k = some w → ∃ w', s'.team? k = some w' ∧
          w'.scrRead off (accBytes o) = bs ∧
          ∀ b, ¬ (off ≤ b ∧ b < off + accBytes o) → zget b w'.scr = zget b w.scr
      | .priv off => g'.privRead l off (accBytes o) = bs ∧
          ∀ b, ¬ (4096 * l + off ≤ b ∧ b < 4096 * l + off + accBytes o) → zget b g'.priv = zget b g.priv
      | .regw _ => True
      | .glob y =>
          if y.cached then (s'.core t.core).wbuf = (s.core t.core).wbuf ++
            [{ vi := t.vi, pa := y.pa, tag := s.keyTag y.leaf, cls := t.cls, bytes := bs,
               evict := decide (fld o.w3 6 2 = 1) }]
          else ∀ k, k < accBytes o → Memory.read s'.mem (y.pa + k) = nth 0 bs k

/-- R95, R339: `LDT` and `STT` complete where a binding stands and every active lane's coordinates lie in it: the words
of the tile records are pending, or stored, in the team's scratch; nothing outside the team changes. -/
def Sys2Proof.Claims.TileMemoryCompletes : Prop :=
  ∀ (o : XOps) (s : State) (t : Team) (f : Frag) (g : Group) (m : Word) (hits : List (Nat × Dword × Tgt)),
    (Issues (.ldt o) s t f g m →
      (sees (.ldt o) s t f).tileCheck (seen (.ldt o) g m) (begins (.ldt o) s t f)
        = (.ok hits (goesOn (.ldt o) f), begins (.ldt o) s t f) →
      Goes (.ldt o) s t f g (goesOn (.ldt o) f) (fun _ t' _ g' => GroupsOnly t t' ∧ PendOnly g g' ∧
        g'.pend = (loadPend (hits.map (fun e => (e.1, e.2.1, match e.2.2 with
          | .scr _ off => if t.scrPoisoned off 4 then none else some (t.scrRead off 4)
          | _ => none))) (loadWords .b32 o.d.toNat)).toList)) ∧
    (Issues (.stt o) s t f g m →
      (sees (.stt o) s t f).tileCheck (seen (.stt o) g m) (begins (.stt o) s t f)
        = (.ok hits (goesOn (.stt o) f), begins (.stt o) s t f) →
      Goes (.stt o) s t f g (goesOn (.stt o) f) (fun _ t' _ g' => CountsOnly g g' ∧
        t' = { t with
          groups := t'.groups, frags := t'.frags, scr := t'.scr, scrW := t'.scrW, scrPoison := t'.scrPoison } ∧
        (∀ e ∈ hits, ∀ off, e.2.2 = .scr t.id off →
          (∀ e' ∈ hits, e'.2.2 = .scr t.id off → e' = e) → t'.scrRead off 4 = leBytes 4 (g.reg o.d.toNat e.1).toNat) ∧
        ∀ b, (∀ e ∈ hits, ∀ off, e.2.2 = .scr t.id off → ¬ (off ≤ b ∧ b < off + 4)) → zget b t'.scr = zget b t.scr))

/-- Of a team only home groups and fragments have changed, and of its accumulators who has read or written which element
(R144). -/
def Sys2Proof.Claims.AccessesOnly (t t' : Team) : Prop :=
  t' = { t with groups := t'.groups, frags := t'.frags, accOld := t'.accOld } ∧
  t'.accOld.map (fun o => { o with past := [] }) = t.accOld.map (fun o => { o with past := [] })

/-- R12, R92, R93, R340: `LDACC` and `STACC` complete where the tile is held and every active lane's element lies in it:
the elements are pending, one that a command which nothing orders before the group has written with its old or its new
value, and none older than the value read is read afterwards (R144); or they are written, in a free order where lanes name
one element, and the group reads none older than what it wrote.  The model's choices in it: log entries 55 and 99. -/
def Sys2Proof.Claims.AccumulatorAccessCompletes : Prop :=
  ∀ (o : XOps) (s : State) (t : Team) (f : Frag) (g : Group) (m : Word) (hits : List (Nat × Nat)),
    (Issues (.ldacc o) s t f g m →
      (sees (.ldacc o) s t f).accCheck (seen (.ldacc o) g m) (begins (.ldacc o) s t f)
        = (.ok hits (goesOn (.ldacc o) f), begins (.ldacc o) s t f) →
      Goes (.ldacc o) s t f g (goesOn (.ldacc o) f) (fun _ t' _ g' => AccessesOnly t t' ∧ PendOnly g g' ∧
        (∀ e ∈ hits, ∀ x ∈ (t.accOlds g.num (fld o.w3 8 6) (e.2 / 128) (e.2 % 128)).take
            (t.accPick s.free g.num (fld o.w3 8 6) (e.2 / 128) (e.2 % 128)),
          ∀ y ∈ t'.accOlds g.num (fld o.w3 8 6) (e.2 / 128) (e.2 % 128), y.cmd ≠ x.cmd) ∧
        g'.pend = (loadPend (hits.map (fun e => (e.1, f.pc,
          if smem (16384 * fld o.w3 8 6 + e.2) t.accPoison then none
          else some (leBytes 4 (t.accRead s.free g.num (fld o.w3 8 6) (e.2 / 128) (e.2 % 128)).toNat))))
          (loadWords .b32 o.d.toNat)).toList)) ∧
    (Issues (.stacc o) s t f g m →
      (sees (.stacc o) s t f).accCheck (seen (.stacc o) g m) (begins (.stacc o) s t f)
        = (.ok hits (goesOn (.stacc o) f), begins (.stacc o) s t f) →
      Goes (.stacc o) s t f g (goesOn (.stacc o) f) (fun _ t' _ g' => CountsOnly g g' ∧
        AccessesOnly { t with acc := t'.acc, accW := t'.accW, accPoison := t'.accPoison } t' ∧
        (∀ e ∈ hits, t'.accOlds g.num (fld o.w3 8 6) (e.2 / 128) (e.2 % 128) = []) ∧
        ∀ k, (∀ e ∈ hits, k ≠ 16384 * fld o.w3 8 6 + e.2) → zget k t'.acc = zget k t.acc) ∧
      ∀ e ∈ hits, (∀ e' ∈ hits, e'.2 = e.2 → e' = e) →
        ∃ s' t', exec (.stacc o) s = .next s' ∧ s'.team? t.id = some t' ∧
          t'.accGet (fld o.w3 8 6) (e.2 / 128) (e.2 % 128) = g.reg o.d.toNat e.1)

/-- R81 to R83, R341: what a tag operation takes (a key, a slot), whether it reads entries, what it does to the table for
one lane, and its result word. -/
def Sys2Proof.Claims.tagOf (i : Instr) : Option (Bool × Bool × Bool × (Team → Nat → Nat → Option Word × Team)) :=
  match i with
  | .tlook _ => some (true, false, true, fun t k _ => (some (t.tagLook false k).1, (t.tagLook false k).2))
  | .tlookClm _ => some (true, false, true, fun t k _ => (some (t.tagLook true k).1, (t.tagLook true k).2))
  | .tfill _ => some (true, true, false, fun t k n => (none, t.tagFill n k))
  | .tevict _ => some (true, true, true, fun t k n => (some (t.tagEvict n k).1, (t.tagEvict n k).2))
  | _ => none

/-- R58, R85, R337: lanes applied one after another; one that reads a poisoned entry has no result and changes nothing. -/
def Sys2Proof.Claims.tagRun (hasSlot reads : Bool) (op : Team → Nat → Nat → Option Word × Team) (t : Team)
    (l : List (Nat × Nat × Nat)) : List (Nat × Dword × Option (List Byte)) × Team :=
  l.foldl (fun acc e =>
    let at' := acc.2.tagReads hasSlot e.2.1 e.2.2
    let a := w64 (0xF0 * 2 ^ 56 + at'.1)
    if reads && acc.2.scrPoisoned at'.1 at'.2 then (acc.1 ++ [(e.1, a, none)], acc.2)
    else
      let y := op acc.2 e.2.1 e.2.2
      ((match y.1 with | some w => acc.1 ++ [(e.1, a, some (leBytes 4 w.toNat))] | none => acc.1), y.2)) ([], t)

/-- R79, R83, R85, R86, R341: the tag operations complete where the window stands and keys and slots lie in it: the active
lanes act on the table one after another in some order, and the result words are pending for D; `TINV` clears the table.  The
model's choices in it: log entries 36, 40 and 99. -/
def Obligations.TagOperationsComplete : Prop :=
  (∀ (i : Instr) (s : State) (t : Team) (f : Frag) (g : Group) (m : Word) (hasKey hasSlot reads : Bool)
    (op : Team → Nat → Nat → Option Word × Team) (hits : List (Nat × Nat × Nat)), Issues i s t f g m →
    tagOf i = some (hasKey, hasSlot, reads, op) →
    (sees i s t f).tagCheck hasKey hasSlot (seen i g m) (begins i s t f) = (.ok hits (goesOn i f), begins i s t f) →
    ∃ order, order.Perm hits ∧ Goes i s t f g (goesOn i f) (fun _ t' _ g' => PendOnly g g' ∧
      t' = { (tagRun hasSlot reads op t order).2 with groups := t'.groups, frags := t'.frags } ∧
      g'.pend = (loadPend (sortBy (fun x => x.1) (tagRun hasSlot reads op t order).1)
        (loadWords .b32 (ops i).d.toNat)).toList)) ∧
  (∀ (o : XOps) (s : State) (t : Team) (f : Frag) (g : Group) (m : Word), Issues (.tinv o) s t f g m →
    (active (.tinv o) g m = 0 ∨ bit t.tagwin 0 = true) →
    Goes (.tinv o) s t f g (goesOn (.tinv o) f) (fun _ t' _ g' => CountsOnly g g' ∧
      t' = { (if active (.tinv o) g m = 0 then t else t.tagInv) with groups := t'.groups, frags := t'.frags }))

/-- R342, R343: whether an atomic instruction returns the values read, and a lane's operation and operands. -/
def Sys2Proof.Claims.atomOf (i : Instr) (c : Ctx) : Option (Bool × (GCtx → Nat → Nat × Nat × Nat)) :=
  match i with
  | .atom _ => some (true, c.atomNew)
  | .red _ => some (false, c.atomNew)
  | .atomcas _ => some (true, c.casNew)
  | _ => none

/-- R139, R343: the lanes of an atomic instruction performed one after another: the values they read, and the state. -/
def Sys2Proof.Claims.atomRun (c : Ctx) (gc : GCtx) (size : Nat) (op : GCtx → Nat → Nat × Nat × Nat)
    (hits : List (Nat × Dword × Tgt)) (u : State) : List (Nat × Dword × Option (List Byte)) × State :=
  hits.foldl (fun acc e =>
    let o := op gc e.1
    let v := c.touchAtomic e.2.2 acc.2
    let y := v.rmwAt c.core (c.place v e.2.2) size (atomWrite o.1 c.o.ty o.2.1 o.2.2)
    (acc.1 ++ [(e.1, e.2.1, y.1)], y.2)) ([], u)

/-- R125, R174: the ticket that a lane of a `.sc` atomic asks for, with the operation that it orders. -/
def Sys2Proof.Claims.ticketOf (i : Instr) (s : State) (t : Team) (f : Frag) (g : Group) (m : Word)
    (op : GCtx → Nat → Nat × Nat × Nat) (e : Nat × Dword × Tgt) : TickReq :=
  let o := op (seen i g m) e.1
  { die := dieOf t.core, home := s.tgtHome t e.2.2, team := t.id, core := t.core, groups := [g.num],
    op := some { lane := e.1, addr := e.2.1, place := (sees i s t f).place s e.2.2, size := tyBytes (ops i).ty, aop := o.1,
                 ty := (ops i).ty, b := o.2.1, c := o.2.2 } }

/-- An instruction that asks for tickets: its fragment goes on, the home group waits for as many tickets as are asked
for, and the requests stand behind the earlier ones; memory has changed in the runs `ws` only. -/
def Sys2Proof.Claims.AsksTickets (i : Instr) (s : State) (t : Team) (f : Frag) (g : Group) (ws : List Run) (wait : ScWait)
    (reqs : List TickReq) : Prop :=
  ∃ s' t' f' g', exec i s = .next s' ∧ Moved s t f g (goesOn i f) s' t' f' g' ∧ Reaches s t ws s' ∧ GroupsOnly t t' ∧
    (∀ k, k ≠ t.id → s'.team? k = s.team? k) ∧ CountsOnly { g with sc := some wait } g' ∧
    s'.tickReq = s.tickReq ++ reqs

/-- R125, R139, R143, R174, R343: the atomic instructions complete where every active lane's access passes its checks.  One
whose order is not `.sc`: the lanes are performed one after another in some order, after a release and before an acquire
where the order asks for them, and `ATOM` and `ATOMCAS` leave the values read pending for D.  One whose order is `.sc`:
after a release each active lane asks for a ticket, in some order, and the home group waits for them. -/
def Sys2Proof.Claims.AtomicsComplete : Prop :=
  ∀ (i : Instr) (s : State) (t : Team) (f : Frag) (g : Group) (m : Word) (ret : Bool)
    (op : GCtx → Nat → Nat × Nat × Nat) (hits : List (Nat × Dword × Tgt)), Issues i s t f g m →
    atomOf i (sees i s t f) = some (ret, op) →
    Located i s t f g m .atomic (tyBytes (ops i).ty)
      ((lanesOf (active i g m)).map (fun l => (l, (sees i s t f).srcA (seen i g m) 2 l))) hits →
    let c := sees i s t f
    let u := begins i s t f
    let u1 := if releases c.order && !hits.isEmpty then u.release t.core t.vi c.scope else u
    (c.order ≠ 4 → ∃ order, order.Perm hits ∧
      let r := atomRun c (seen i g m) (tyBytes (ops i).ty) op order u1
      let v := if ret then r.2.pendTo t.id g.num (loadPend (sortBy (fun x => x.1) r.1)
        (loadWords (ops i).ty (ops i).d.toNat)) else r.2
      Lands i s t f g (goesOn i f)
        (leaves (placesOf hits) ++ places s (tyBytes (ops i).ty) (placesOf hits) ++ buffered s t.core)
        (if acquires c.order && !hits.isEmpty then v.acquire t.core t.vi c.scope else v)) ∧
    (c.order = 4 → hits = [] → Goes i s t f g (goesOn i f) (fun _ t' _ g' => GroupsOnly t t' ∧ CountsOnly g g')) ∧
    (c.order = 4 → hits ≠ [] → ∃ order : List (Nat × Dword × Tgt), order.Perm hits ∧
      AsksTickets i s t f g (leaves (placesOf hits) ++ buffered s t.core)
        { left := hits.length, dst := if ret then some ((ops i).ty, (ops i).d.toNat) else none, wide := decide (2 ≤ c.scope) }
        (order.map (ticketOf i s t f g m op)))

/-- R33, R343: `ATOM` of one active lane on memory: the bytes at the home read as one value, the operation's result is
written there, and the value read is pending for D. -/
def Sys2Proof.Claims.AtomicReadsAndWrites : Prop :=
  ∀ (o : XOps) (s : State) (t : Team) (f : Frag) (g : Group) (m : Word) (l : Nat) (a : Dword) (x : XOk),
    Issues (.atom o) s t f g m → fld o.w3 3 3 = 0 →
    Located (.atom o) s t f g m .atomic (tyBytes o.ty)
      ((lanesOf (active (.atom o) g m)).map (fun l =>
        (l, (sees (.atom o) s t f).srcA (seen (.atom o) g m) 2 l))) [(l, a, .glob x)] →
    Plain s t g l (tyBytes o.ty) (.glob x) → adBits .atomic &&& ~~~x.known = 0 →
    (∀ e ∈ (s.core t.core).wbuf, e.pa / 128 ≠ x.pa / 128) →
    ∃ s' t' f' g', exec (.atom o) s = .next s' ∧ Moved s t f g (goesOn (.atom o) f) s' t' f' g' ∧
      (∀ r l, g'.reg r l = g.reg r l) ∧
      let old := (List.range (tyBytes o.ty)).map (fun k => Memory.read s.mem (x.pa + k))
      g'.pend = [{ regs := keyed [(l, loadWords o.ty o.d.toNat old)] }] ∧
      let op := (sees (.atom o) s t f).atomNew (seen (.atom o) g m) l
      ∀ b, Memory.read s'.mem b = if x.pa ≤ b ∧ b < x.pa + tyBytes o.ty then
        nth 0 (leBytes (tyBytes o.ty) (atomOp op.1 o.ty (leNat old) op.2.1)) (b - x.pa)
        else Memory.read s.mem b

/-- R146, R151, R174, R344: `FENCE` completes for every order and scope: a release performs the VI's buffered stores, an
acquire drops its clean lines; a `.sc` fence releases, asks for one ticket, and its home group waits for it. -/
def Sys2Proof.Claims.FenceCompletes : Prop :=
  ∀ (o : XOps) (s : State) (t : Team) (f : Frag) (g : Group) (m : Word), Issues (.fence o) s t f g m →
    let order := fld o.w3 3 3
    let scope := fld o.w3 0 3
    let u := begins (.fence o) s t f
    let u1 := if releases order then u.release t.core t.vi scope else u
    (order ≠ 4 → Lands (.fence o) s t f g (goesOn (.fence o) f) (buffered s t.core)
      (if acquires order then u1.acquire t.core t.vi scope else u1)) ∧
    (order = 4 → AsksTickets (.fence o) s t f g (buffered s t.core) { left := 1, wide := decide (2 ≤ scope) }
      [{ die := dieOf t.core, home := 0, team := t.id, core := t.core, groups := [g.num] }])

/-- R160, R345: `OPFENCE` completes and records the registers of the home group as they stand; nothing else changes. -/
def Sys2Proof.Claims.OpfenceCompletes : Prop :=
  ∀ (o : SOps) (s : State) (t : Team) (f : Frag) (g : Group) (m : Word), Issues (.opfence o) s t f g m →
    Goes (.opfence o) s t f g (goesOn (.opfence o) f) (fun _ t' _ g' => GroupsOnly t t' ∧
      CountsOnly { g with opfRegs := [g.regs] } g')

/-- R199, R332: a fragment of a way whose loop buffers have been emptied. -/
def Sys2Proof.Claims.unlooped (way : Nat) (h : Frag) : Frag :=
  if h.way = way then { h with loop := none, fence := max h.fence h.loopFence } else h

/-- R332: `FFENCE` completes: the VI's buffered stores are performed, the loop buffers of the fragment's way are empty, and
the fragment issues nothing that was fetched before: no line of code that was fetched before this step is one it may
use. -/
def Sys2Proof.Claims.FfenceCompletes : Prop :=
  ∀ (o : SOps) (s : State) (t : Team) (f : Frag) (g : Group) (m : Word), Issues (.ffence o) s t f g m →
    ∃ s' t' f' g', exec (.ffence o) s = .next s' ∧ s'.team? t.id = some t' ∧ t'.frag? f.id = some f' ∧
      t'.group? g.num = some g' ∧ f'.pc = after (.ffence o) f ∧ f'.st = .ready ∧ f'.fmt = f.fmt ∧ f'.hm = f.hm ∧
      f'.lanes = f.lanes ∧ f'.region = f.region ∧ f'.rank = f.rank ∧ f'.loop = none ∧
      (∀ l : ILine, l.time ≤ s.free → f'.mayUse l = false) ∧
      Reaches s t (buffered s t.core) s' ∧ CountsOnly g g' ∧ GroupsOnly t t' ∧
      (∀ k, k ≠ g.num → t'.group? k = t.group? k) ∧
      (∀ k, k ≠ f.id → t'.frag? k = (t.frag? k).map (unlooped f.way)) ∧
      (∀ k, k ≠ t.id → s'.team? k = (s.team? k).map (fun u =>
        if u.core = t.core then { u with frags := u.frags.map (unlooped f.way) } else u)) ∧
      s' = { sealStep s ((begins (.ffence o) s t f).drainVi t.core t.vi) with teams := s'.teams }

/-- R31, R32, R338: `PREF` completes where no page of its lanes migrates and no queue it needs is full: memory, registers
and every other team are as they were; a lane that would fault is dropped; only the L1, the memory side, the violation
log and the count of R32 change. -/
def Sys2Proof.Claims.PrefetchCompletes : Prop :=
  ∀ (i : Instr) (s : State) (t : Team) (f : Frag) (g : Group) (m : Word) (hits : List (Nat × Dword × Tgt)),
    Issues i s t f g m → (∃ o, i = .prefShort o) ∨ (∃ o, i = .pref o) →
    (sees i s t f).prefCheck (seen i g m) (begins i s t f) = (.ok hits (goesOn i f), begins i s t f) →
    ∃ s' t' f' g', exec i s = .next s' ∧ Moved s t f g (goesOn i f) s' t' f' g' ∧ GroupsOnly t t' ∧
      CountsOnly g { g' with perf := (g.perfAdd 0 1).perf } ∧
      s' = { s with
        teams := s'.teams, cores := s'.cores, vids := s'.vids, side := s'.side, cur := none, free := s.free + 1, out := [] } ∧
      (∀ k, s'.core k = { s.core k with
        l1 := (s'.core k).l1, last := (s'.core k).last, lastClk := (s'.core k).lastClk, nt := (s'.core k).nt,
        idle := (s'.core k).idle }) ∧
      (∀ k, k ≠ t.id → s'.team? k = s.team? k) ∧ (∀ k, k ≠ t.vi → s'.vid k = s.vid k) ∧
      s'.vid t.vi = { s.vid t.vi with
        vlog := (s'.vid t.vi).vlog, vlogHead := (s'.vid t.vi).vlogHead, hintdeg := (s'.vid t.vi).hintdeg }

/-- R336, R338: `LD` and `LDU` complete, and read the bytes of their places.  The model's choices in it: log entries 16 and
36. -/
def Obligations.LoadsRun : Prop := LoadsComplete ∧ LoadReadsBytes

/-- R139, R338: `ST` completes, and leaves its bytes in its place.  The model's choices in it: log entries 13 and 40. -/
def Obligations.StoresRun : Prop := StoresComplete ∧ StoreWritesBytes

/-- R143, R343: the atomic instructions complete, and read and write their places.  The model's choices in it: log entries 13,
36, 40, 92 and 99. -/
def Obligations.AtomicsRun : Prop := AtomicsComplete ∧ AtomicReadsAndWrites

/-- R339 to R341: `LDT`, `STT`, `LDACC` and `STACC` complete.  The model's choices in it: log entries 36,
40, 55 and 99. -/
def Obligations.TileAndAccumulatorAccessCompletes : Prop := TileMemoryCompletes ∧ AccumulatorAccessCompletes

/-- R332, R338, R344, R345: `FENCE`, `OPFENCE`, `FFENCE` and `PREF` complete.  The model's choices in it: log entries 16,
20 and 92. -/
def Obligations.FencesAndPrefetchComplete : Prop :=
  FenceCompletes ∧ OpfenceCompletes ∧ FfenceCompletes ∧ PrefetchCompletes

/-! ### Barriers, guards, queue instructions, the exchange (R346 to R363, R388) -/

/-- R351: no guard stands at the head of a core's queues. -/
def Sys2Proof.Claims.Unguarded (s : State) (c : Nat) : Prop :=
  ∀ x, (s.core c).qmx.head? = some x ∨ (s.core c).qcp.head? = some x → x.guard = none

/-- An instruction answers the effect `v`, after which the fragment has gone on as `n` says; nothing but memory under
the core's buffered stores, and what lies between the core and memory, has changed outside the team. -/
def Sys2Proof.Claims.Syncs (i : Instr) (s : State) (t : Team) (f : Frag) (g : Group) (n : Next) (v : State)
    (Q : Team → Group → Prop) : Prop :=
  ∃ s' t' f' g', exec i s = .next s' ∧ Moved s t f g n s' t' f' g' ∧ Reaches s t (buffered s t.core) s' ∧
    s' = { sealStep s v with teams := s'.teams } ∧ (∀ k, k ≠ t.id → s'.team? k = s.team? k) ∧ Q t' g'

/-- R347: `BARINIT` of a barrier that the team has, with a count, which no command names and no group waits at: the barrier
begins phase 0 with no arrival, and every group's record of it is cleared; nothing known of the accumulators is known of its
phases (R12, R161; log entry 55). -/
def Sys2Proof.Claims.BarinitCompletes : Prop :=
  ∀ (o : XOps) (s : State) (t : Team) (f : Frag) (g : Group) (m : Word), Issues (.barinit o) s t f g m →
    fld o.w3 0 4 < t.barsN → fld o.w3 16 16 ≠ 0 → s.barNamed t (fld o.w3 0 4) = false →
    t.barWaited (fld o.w3 0 4) = false →
    ∃ s' t' f' g', exec (.barinit o) s = .next s' ∧ Outside s t s' ∧ s'.team? t.id = some t' ∧
      t'.frag? f.id = some f' ∧ f'.pc = after (.barinit o) f ∧ f'.st = .ready ∧ f'.lanes = f.lanes ∧
      (∀ k, k ≠ f.id → t'.frag? k = t.frag? k) ∧
      t' = { t with groups := t'.groups, frags := t'.frags, bars := t'.bars, accOld := t.accOld.map (fun x =>
        { x with seen := x.seen.filter (fun k => !k.isOf (fld o.w3 0 4)),
                 past := x.past.filter (fun k => !k.1.isOf (fld o.w3 0 4)) }) } ∧
      t'.bars = kset (fld o.w3 0 4)
        ({ scope := fld o.w3 8 3, count := fld o.w3 16 16, phase := 0, arr := 0 } : Bar) t.bars ∧
      t'.group? g.num = some g' ∧
      CountsOnly { g with ep := kdel (fld o.w3 0 4) g.ep, ap := kdel (fld o.w3 0 4) g.ap } g' ∧
      ∀ k, k ≠ g.num → t'.group? k = (t.group? k).map (fun x =>
        { x with ep := kdel (fld o.w3 0 4) x.ep, ap := kdel (fld o.w3 0 4) x.ap })

/-- R348: whether a barrier instruction arrives, and how a group waits, with the address where it goes on. -/
def Sys2Proof.Claims.barOf (i : Instr) (f : Frag) (gn : Nat) : Option (Bool × Option (FState × Dword)) :=
  let b := fld (ops i).d 0 4
  match i with
  | .baraShort _ | .bara _ => some (true, none)
  | .barwShort _ | .barw _ => some (false, some (.barw b [gn] (after i f), after i f))
  | .barawShort _ | .baraw _ => some (true, some (.barw b [gn] (after i f), after i f))
  | .waitc _ => some (false, some (.sleeping b [gn] (f.pc + (ops i).w3.signExtend 64),
      f.pc + (ops i).w3.signExtend 64))
  | _ => none

/-- R159, R348: `BARA`, `BARW`, `BARAW` and `WAITC` of an initialised barrier: an arrival releases at the barrier's scope
and counts, where the group has not arrived in this phase; a group that waits goes on at once where a phase it has not
consumed is complete, consuming it and acquiring, and else waits; here no guard stands at the head of a queue.  What an
arriving group knows of the accumulators the phase it arrives in knows, and what a phase knows a group that goes on from
it knows (R12, R149, R161; the model's own fields: log entry 55). -/
def Sys2Proof.Claims.BarrierInstructionsComplete : Prop :=
  ∀ (i : Instr) (s : State) (t : Team) (f : Frag) (g : Group) (m : Word) (arrive : Bool)
    (wait : Option (FState × Dword)) (bar : Bar), Issues i s t f g m → Unguarded s t.core →
    barOf i f g.num = some (arrive, wait) → t.bar? (fld (ops i).d 0 4) = some bar →
    (arrive = true → kfind (fld (ops i).d 0 4) g.ap ≠ some bar.phase) →
    let b := fld (ops i).d 0 4
    let u := begins i s t f
    let v := if arrive = true ∧ 2 ≤ bar.scope then u.drainVi t.core t.vi else u
    let bar' := if arrive then bar.arrive else bar
    let ap' := if arrive then kset b bar.phase g.ap else g.ap
    let bars' := if arrive then kset b bar.arrive t.bars else t.bars
    let t₁ := if arrive then t.accShare (.group g.num) (.phase b bar.phase) else t
    match wait with
    | none => Syncs i s t f g (goesOn i f) v (fun t' g' => CountsOnly { g with ap := ap' } g' ∧
        t' = { t₁ with groups := t'.groups, frags := t'.frags, bars := bars' })
    | some (st, next) =>
      if barReady bar' (kget 0 b g.ep) then
        Syncs i s t f g { goesOn i f with pc := next } (v.dropL1 t.core t.vi) (fun t' g' =>
          CountsOnly { g with ap := ap', ep := kset b ((kget 0 b g.ep + 1) % 2 ^ 32) g.ep } g' ∧
          t' = { t₁.accWaited b (kget 0 b g.ep) g.num with groups := t'.groups, frags := t'.frags, bars := bars' })
      else Syncs i s t f g (waitsIn f st) v (fun t' g' => WaitsOnly { g with ap := ap' } g' ∧
        t' = { t₁ with groups := t'.groups, frags := t'.frags, bars := bars' })

/-- R174, R348: a fragment of one home group that waits at a barrier goes on once a phase it has not consumed is complete:
it consumes the phase, and the core drops the clean lines of its VI; what the phase knows of the accumulators the group
knows (log entry 55). -/
def Sys2Proof.Claims.BarrierWaitsEnd : Prop :=
  ∀ (s : State) (t : Team) (f : Frag) (g : Group) (m : Word) (b : Nat) (gs : List Nat) (next : Dword) (bar : Bar)
    (e : Instr), s.team? t.id = some t → t.frag? f.id = some f → f.lanes = [(g.num, m)] → m ≠ 0 →
    t.group? g.num = some g → (s.core t.core).dbg.step = false → t.bar? b = some bar →
    barReady bar (kget 0 b g.ep) = true →
    (f.st = .barw b gs next ∧ e = .barrierWaitRelease t.id f.id) ∨
      (f.st = .sleeping b gs next ∧ e = .waitcReactivate t.id f.id) →
    ∃ s' t' f' g', exec e s = .next s' ∧ s'.team? t.id = some t' ∧ t'.frag? f.id = some f' ∧
      t'.group? g.num = some g' ∧ f'.st = .ready ∧ f'.pc = next ∧ f'.lanes = f.lanes ∧ f'.fmt = f.fmt ∧
      f'.hm = f.hm ∧ g' = ({ g with ep := kset b ((kget 0 b g.ep + 1) % 2 ^ 32) g.ep } : Group).complete ∧
      GroupsOnly (t.accWaited b (kget 0 b g.ep) g.num) t' ∧ (∀ k, k ≠ g.num → t'.group? k = t.group? k) ∧
      (∀ k, k ≠ f.id → t'.frag? k = t.frag? k) ∧
      s' = { (s.dropL1 t.core t.vi) with teams := s'.teams, free := s.free + 1, out := [] } ∧
      ∀ k, k ≠ t.id → s'.team? k = s.team? k

/-- R156, R351: `GSET` and `GCLR` perform the VI's buffered stores and set the guard, `GSET` only one that `GCLR` has made
pending; here no guard stands at the head of a queue. -/
def Sys2Proof.Claims.GuardInstructionsComplete : Prop :=
  ∀ (i : Instr) (s : State) (t : Team) (f : Frag) (g : Group) (m : Word), Issues i s t f g m → Unguarded s t.core →
    let v := (begins i s t f).drainVi t.core t.vi
    let n := fld (ops i).d 0 4
    ((∃ o, i = .gsetShort o) ∨ (∃ o, i = .gset o) → t.guard n ≠ .idle →
      Syncs i s t f g (goesOn i f) v (fun t' g' => CountsOnly g g' ∧ t' = { t with
        groups := t'.groups, frags := t'.frags,
        guards := kset n (if bit (ops i).d 4 then Guard.true else Guard.false) t.guards })) ∧
    ((∃ o, i = .gclrShort o) ∨ (∃ o, i = .gclr o) →
      Syncs i s t f g (goesOn i f) v (fun t' g' => CountsOnly g g' ∧ t' = { t with
        groups := t'.groups, frags := t'.frags, guards := kset n Guard.pending t.guards }))

/-- R351: once the heads of a core's queues have been looked at, no head command has a FALSE guard. -/
def Sys2Proof.Claims.NoHeadIsDiscardable : Prop :=
  ∀ (s : State) (c : Nat), (s.core c).qmx.length ≤ 32 → (s.core c).qcp.length ≤ 16 →
    ∀ q x rest u, ((s.heads c).core c).queue q = x :: rest → (s.heads c).team? x.team = some u → u.head x ≠ .discard

/-- R357, R388: `QSTAT` leaves the word of a queue pending for D, `QSTAT.SAT` a counter of the team, which it zeroes where
CLR is set and a lane is active. -/
def Sys2Proof.Claims.QueueStatusCompletes : Prop :=
  ∀ (i : Instr) (s : State) (t : Team) (f : Frag) (g : Group) (m : Word), Issues i s t f g m →
    let n := fld (ops i).a 0 2
    let put (v : Dword) := pending ((ctx i s t f).results (gctx i g m) 1 (fun _ => v))
    ((∃ o, i = .qstatShort o) ∨ (∃ o, i = .qstat o) →
      Goes i s t f g (goesOn i f) (fun _ t' _ g' => GroupsOnly t t' ∧ PendOnly g g' ∧
        g'.pend = put ((s.qstat t g n).setWidth 64))) ∧
    ((∃ o, i = .qstatSatShort o) ∨ (∃ o, i = .qstatSat o) →
      Goes i s t f g (goesOn i f) (fun _ t' _ g' => PendOnly g g' ∧
        g'.pend = put (w64 (if n = 0 then t.qsat else if n = 1 then t.qnan else t.fsat)) ∧
        t' = (if active i g m ≠ 0 ∧ bit (ops i).a 2 = true then
          { t with groups := t'.groups, frags := t'.frags, qsat := if n = 0 then 0 else t.qsat,
                   qnan := if n = 1 then 0 else t.qnan, fsat := if n = 0 ∨ n = 1 then t.fsat else 0 }
          else { t with groups := t'.groups, frags := t'.frags })))

/-- R162, R196: a record is taken from the queue, and is pending for the eight scalars from `d`. -/
def Sys2Proof.Claims.Popped (g g' : Group) (d : Nat) (rec : List Word) : Prop :=
  g' = { g with
    pend := g.pend ++ [{ scal := (List.range 8).map (fun k => (d + k, nth 0 rec k)) }],
    qix := g.qix.drop 1, wdog := 0, exempt := g.exempt - 1, skip := skipNext g.skip }

/-- R162, R174, R357: `QPOP` of a group that has a record leaves it pending for eight scalars and acquires; of a group without one,
but with a request in flight, it waits; with no active lane it does nothing; here no other fragment of the team waits
in a `QPOP`. -/
def Sys2Proof.Claims.QpopCompletes : Prop :=
  ∀ (i : Instr) (s : State) (t : Team) (f : Frag) (g : Group) (m : Word), Issues i s t f g m →
    (∃ o, i = .qpopShort o) ∨ (∃ o, i = .qpop o) → (∀ k ∈ t.frags, ∀ d gs n, k.st ≠ .qpop d gs n) →
    let u := begins i s t f
    (∀ rec rest, active i g m ≠ 0 → g.qix = rec :: rest →
      Syncs i s t f g (goesOn i f) (u.dropL1 t.core t.vi) (fun t' g' => GroupsOnly t t' ∧
        Popped (g.perfAdd 0 1) g' (ops i).d.toNat rec)) ∧
    (active i g m ≠ 0 → g.qix = [] → g.inflight ≠ 0 →
      Syncs i s t f g (waitsIn f (.qpop (ops i).d.toNat [g.num] (after i f))) u (fun t' g' => GroupsOnly t t' ∧
        WaitsOnly g g')) ∧
    (active i g m = 0 → Syncs i s t f g (goesOn i f) u (fun t' g' => GroupsOnly t t' ∧ CountsOnly g g'))

/-- R357: a fragment of one home group that waits in a `QPOP` takes the record that has come, and goes on. -/
def Sys2Proof.Claims.QpopUnblocks : Prop :=
  ∀ (s : State) (t : Team) (f : Frag) (g : Group) (m : Word) (d : Nat) (next : Dword) (rec : List Word)
    (rest : List (List Word)), s.team? t.id = some t → t.frag? f.id = some f → f.lanes = [(g.num, m)] → m ≠ 0 →
    t.group? g.num = some g → (s.core t.core).dbg.step = false → f.st = .qpop d [g.num] next → g.pend = [] →
    g.qix = rec :: rest →
    ∃ s' t' f' g', exec (.qpopUnblock t.id f.id) s = .next s' ∧ s'.team? t.id = some t' ∧
      t'.frag? f.id = some f' ∧ t'.group? g.num = some g' ∧ f'.st = .ready ∧ f'.pc = next ∧ f'.lanes = f.lanes ∧
      Popped g g' d rec ∧ GroupsOnly t t' ∧ (∀ k, k ≠ g.num → t'.group? k = t.group? k) ∧
      (∀ k, k ≠ f.id → t'.frag? k = t.frag? k) ∧
      s' = { (s.dropL1 t.core t.vi) with teams := s'.teams, free := s.free + 1, out := [] } ∧
      ∀ k, k ≠ t.id → s'.team? k = s.team? k

/-- R363: of a team in an exchange: the lanes active in both groups have the partner's values pending, the exchange is
over, and the fragment that waited for it goes on. -/
def Sys2Proof.Claims.Exchanged (t t' : Team) (gn : Nat) (x y : Xch) : Prop :=
  GroupsOnly t t' ∧ (∀ k, k ≠ gn → t'.group? k = t.group? k) ∧
  (∃ g g', t.group? gn = some g ∧ t'.group? gn = some g' ∧ g'.xch = none ∧ g'.pend = g.pend ++
    pending ((lanesOf (x.act &&& y.act)).map (fun l =>
      (l, destWords x.dst (if x.wide then 2 else 1) (kget 0 l y.vals))))) ∧
  ∀ k ∈ t.frags, ∃ k', t'.frag? k.id = some k' ∧ ∀ next,
    if k.st = .xch next then k'.st = .ready ∧ k'.pc = next ∧ k'.lanes = k.lanes else k.st matches .xch _ ∨ k' = k

/-- R363: the exchange whose arrivals completed first, of two teams whose tags, widths and roles agree, is performed. -/
def Sys2Proof.Claims.ExchangeCompletes : Prop :=
  ∀ (s : State) (t u : Team) (g h : Group) (x y : Xch), s.nextXch = some (t.id, g.num) →
    s.team? t.id = some t → s.team? u.id = some u → t.group? g.num = some g → u.group? g.num = some h →
    g.xch = some x → h.xch = some y → u.id ≠ t.id → u ∈ s.xchCandidates t g.num x →
    (∀ k ∈ s.xchCandidates t g.num x, ∀ z, k.group? g.num = some z → z.xch ≠ none → k = u) →
    x.tag = y.tag → x.wide = y.wide → s.roleCore u y.role = t.core →
    (s.core t.core).dbg.step = false → (s.core u.core).dbg.step = false →
    (t.frags.map (fun k => k.id)).Nodup → (u.frags.map (fun k => k.id)).Nodup →
    (∀ k, k ∈ t.frags ∨ k ∈ u.frags → ∀ n, k.st = .xch n → ∃ m, m ≠ 0 ∧ k.lanes = [(g.num, m)]) →
    ∃ s' t' u', exec (.xchPair t.id g.num) s = .next s' ∧ s'.team? t.id = some t' ∧ s'.team? u.id = some u' ∧
      Exchanged t t' g.num x y ∧ Exchanged u u' g.num y x ∧ (∀ k, k ≠ t.id → k ≠ u.id → s'.team? k = s.team? k) ∧
      s' = { s with teams := s'.teams, free := s.free + 1, out := [] }

/-- R348: the barrier instructions complete or wait, and a wait ends.  The clauses on what is known of the accumulators rest
on log entry 55. -/
def Obligations.BarriersRun : Prop := BarrierInstructionsComplete ∧ BarrierWaitsEnd

/-- R347, R351: `BARINIT`, `GSET` and `GCLR` complete. -/
def Sys2Proof.Claims.BarinitAndGuardsComplete : Prop := BarinitCompletes ∧ GuardInstructionsComplete

/-- R357: `QPOP` completes or waits, and a wait ends. -/
def Sys2Proof.Claims.QpopRuns : Prop := QpopCompletes ∧ QpopUnblocks

/-- R193, R363: `XCH` arrives, and the exchange of two groups is performed. -/
def Obligations.ExchangeRuns : Prop := ExchangeArrives ∧ ExchangeCompletes

/-- R347, R351, R353: barriers and guards are set, and the queues pass commands whose guard discards them. -/
def Obligations.BarriersAndGuardsAreSet : Prop := NoHeadIsDiscardable ∧ BarinitAndGuardsComplete

/-- R162, R357, R388: `QPOP`, `QSTAT` and `QSTAT.SAT` run.  The model's choices in it: log entry 36. -/
def Obligations.QueuesAreObserved : Prop := QueueStatusCompletes ∧ QpopRuns

/-! ### Engine queues, copies, publications, migration (R47 to R50, R155 to R158, R352 to R361, R371 to R375, R390 to
R393) -/

/-- R354, R373, R391: the instructions that push a command: the queue, and what forms and checks the command. -/
def Sys2Proof.Claims.pushOf (i : Instr) (c : Ctx) (s : State) : Option (Nat × (GCtx → Except Trap Cmd)) :=
  match i with
  | .qpushShort _ | .qpush _ => some (fld c.o.d 0 2, fun gc =>
      match s.checkPush c.team c.frag gc.g.num (fld c.o.d 0 2) (c.cmdWords gc) with
      | .error e => .error e.plain
      | .ok x => .ok x)
  | .mldw _ | .mswapShort _ | .mswap _ | .mma _ | .mmas _ | .mhad _ | .mqnt _ | .accz _ | .acccvt _ =>
      some (0, c.mxCmd s)
  | .publish _ => some (1, c.publishCmd s)
  | _ => none

/-- R155, R174: what a push does before its commands enter: a push to `q.cp` performs the VI's buffered stores. -/
def Sys2Proof.Claims.pushFrom (s : State) (t : Team) (q : Nat) : State := if q = 1 then s.drainVi t.core t.vi else s

/-- R353: the command may stand at the head of its queue: its guard is not FALSE. -/
def Sys2Proof.Claims.Standing (t : Team) (x : Cmd) : Prop := ∀ n, x.guard = some n → t.guard n ≠ .false

/-- R354, R355, R373: an instruction that pushes a command that passes its checks completes where the queue has an entry
free and nothing waits for one: the command is the last of the queue, with a number of its own. -/
def Sys2Proof.Claims.PushesEnter : Prop :=
  ∀ (i : Instr) (s : State) (t : Team) (f : Frag) (g : Group) (m : Word) (q : Nat) (mk : GCtx → Except Trap Cmd)
    (x : Cmd), Issues i s t f g m → Unguarded s t.core → active i g m ≠ 0 → q < 2 →
    pushOf i (sees i s t f) (begins i s t f) = some (q, mk) → mk (seen i g m) = .ok x → Standing t x →
    x.isPub q = false → s.queueWaiters t.core q = false → ((s.core t.core).queue q).length < queueDepth q →
    ∃ s' t' f' g', exec i s = .next s' ∧ Moved s t f g (goesOn i f) s' t' f' g' ∧ GroupsOnly t t' ∧ CountsOnly g g' ∧
      s' = { sealStep s ((pushFrom (begins i s t f) t q).enterQueue t.core q x) with teams := s'.teams } ∧
      (∀ k, k ≠ t.id → s'.team? k = s.team? k) ∧ s'.nextId = s.nextId + 1 ∧
      (s'.core t.core).queue q = (s.core t.core).queue q ++ [{ x with id := s.nextId }] ∧
      (∀ a, q = 0 ∨ Untouched s (buffered s t.core) a → Memory.read s'.mem a = Memory.read s.mem a)

/-- R355, R356: where the queue is full or something waits for an entry, the group waits with its command, unless its team
is deadlocked; no head of a full queue is stuck. -/
def Sys2Proof.Claims.PushesWait : Prop :=
  ∀ (i : Instr) (s : State) (t : Team) (f : Frag) (g : Group) (m : Word) (q : Nat) (mk : GCtx → Except Trap Cmd)
    (x : Cmd), Issues i s t f g m → Unguarded s t.core → active i g m ≠ 0 → q < 2 →
    pushOf i (sees i s t f) (begins i s t f) = some (q, mk) → mk (seen i g m) = .ok x → x.isPub q = false →
    s.queueWaiters t.core q = true ∨ queueDepth q ≤ ((s.core t.core).queue q).length →
    s.headStuck t 0 = none → s.headStuck t 1 = none →
    ∃ s' t' f' g', exec i s = .next s' ∧
      Moved s t f g (waitsIn f (.qpush q [x] s.nextId (after i f))) s' t' f' g' ∧ GroupsOnly t t' ∧ WaitsOnly g g' ∧
      s' = { sealStep s (pushFrom (begins i s t f) t q) with teams := s'.teams, nextId := s.nextId + 1 } ∧
      ∀ k, k ≠ t.id → s'.team? k = s.team? k

/-- R355: QPUSH_ENTER: the push that has waited longest enters once an entry is free, and its fragment goes on; here a
push of one group's command (a joint one: R380, `JointForms`). -/
def Sys2Proof.Claims.BlockedPushEnters : Prop :=
  ∀ (s : State) (t : Team) (f : Frag) (g : Group) (m : Word) (q seq : Nat) (x : Cmd) (next : Dword), q < 2 →
    ((s.core t.core).queue q).length < queueDepth q → s.nextWaiter t.core q = some (.push t.id f.id) →
    s.team? t.id = some t → t.frag? f.id = some f → f.lanes = [(g.num, m)] → m ≠ 0 → t.group? g.num = some g →
    f.st = .qpush q [x] seq next → x.group = g.num → (∀ o, x.instr ≠ some (.mmaJ o)) → (s.core t.core).dbg.step = false → Unguarded s t.core →
    Standing t x →
    ∃ s' t' f', exec (.qpushEnter t.core q) s = .next s' ∧ s'.team? t.id = some t' ∧ GroupsOnly t t' ∧
      t'.frag? f.id = some f' ∧ f'.st = .ready ∧ f'.pc = next ∧ f'.lanes = f.lanes ∧
      t'.group? g.num = some g.complete ∧ (∀ k, k ≠ g.num → t'.group? k = t.group? k) ∧
      (∀ k, k ≠ f.id → t'.frag? k = t.frag? k) ∧ (∀ k, k ≠ t.id → s'.team? k = s.team? k) ∧
      s' = { ((now s).enterQueue t.core q x) with teams := s'.teams } ∧
      (s'.core t.core).queue q = (s.core t.core).queue q ++ [{ x with id := s.nextId }]

/-- R354, R355, R373: the pushes complete, or wait.  The model's choices in it: log entry 53. -/
def Obligations.QueuePushesComplete : Prop := PushesEnter ∧ PushesWait ∧ BlockedPushEnters

/-- R391: one slot is reserved in the subscription of every rank that a publication names. -/
def Sys2Proof.Claims.Reserved (s s' : State) (t : Team) (x : Cmd) : Prop :=
  ∀ r u b, r ∈ ranksOf (fld (nth 0 x.body 0) 0 16) → s.rankTeam t r = some u → kfind x.sid u.subs = some b →
    ∃ u', s'.team? u.id = some u' ∧ kfind x.sid u'.subs =
      some { b with out := b.out + 1, next := b.next + 1, reserved := b.reserved + 1 }

/-- Teams are filed under their numbers, and the ranks of a cluster are held by one team each. -/
def Sys2Proof.Claims.Filed (s : State) : Prop :=
  (∀ e ∈ s.teams, e.2.id = e.1) ∧ (s.teams.map (fun e => e.1)).Nodup

/-- R391, R392: `PUBLISH` completes where every subscriber named is ready and `q.cp` has an entry free: a slot is reserved
in each subscription and the command enters the queue; where one is not, the group waits. -/
def Sys2Proof.Claims.PublishReserves : Prop :=
  ∀ (o : XOps) (s : State) (t : Team) (f : Frag) (g : Group) (m : Word) (x : Cmd), Issues (.publish o) s t f g m →
    Unguarded s t.core → Filed s → active (.publish o) g m ≠ 0 →
    (sees (.publish o) s t f).publishCmd (begins (.publish o) s t f) (seen (.publish o) g m) = .ok x → Standing t x →
    (s.pubState t x).1 = none → (∀ k ∈ t.frags, ∀ l n, k.st ≠ .publish l n) →
    ((s.pubState t x).2 = true → s.queueWaiters t.core 1 = false → ((s.core t.core).queue 1).length < 16 →
      ∃ s' t' f' g', exec (.publish o) s = .next s' ∧ Moved s t f g (goesOn (.publish o) f) s' t' f' g' ∧
        CountsOnly g g' ∧ Reserved s s' t x ∧
        (s'.core t.core).queue 1 = (s.core t.core).queue 1 ++ [{ (s.pubReserve t x).1 with id := s.nextId }] ∧
        (∀ a, Untouched s (buffered s t.core) a → Memory.read s'.mem a = Memory.read s.mem a)) ∧
    ((s.pubState t x).2 = false →
      ∃ s' t' f' g', exec (.publish o) s = .next s' ∧
        Moved s t f g (waitsIn f (.publish [x] (after (.publish o) f))) s' t' f' g' ∧ WaitsOnly g g' ∧
        GroupsOnly t t' ∧ Reaches s t (buffered s t.core) s' ∧ ∀ k, k ≠ t.id → s'.team? k = s.team? k)

/-- R391: PUBLISH_RESERVE: a waiting group whose subscribers have become ready reserves its slots and pushes its
command. -/
def Sys2Proof.Claims.WaitingPublishReserves : Prop :=
  ∀ (s : State) (t : Team) (f : Frag) (g : Group) (m : Word) (x : Cmd) (next : Dword), Unguarded s t.core → Filed s →
    s.team? t.id = some t → t.frag? f.id = some f → f.lanes = [(g.num, m)] → m ≠ 0 → t.group? g.num = some g →
    f.st = .publish [x] next → x.group = g.num → (s.core t.core).dbg.step = false → Standing t x →
    s.pubState t x = (none, true) → s.queueWaiters t.core 1 = false → ((s.core t.core).queue 1).length < 16 →
    ∃ s' t' f', exec (.publishReserve t.id f.id) s = .next s' ∧ s'.team? t.id = some t' ∧ t'.frag? f.id = some f' ∧
      f'.st = .ready ∧ f'.pc = next ∧ f'.lanes = f.lanes ∧ Reserved s s' t x ∧
      (s'.core t.core).queue 1 = (s.core t.core).queue 1 ++ [{ (s.pubReserve t x).1 with id := s.nextId }]

/-- R391, R392: publications reserve their slots and enter, or wait.  The model's choices in it: log entry 58. -/
def Obligations.PublicationsReserve : Prop := PublishReserves ∧ WaitingPublishReserves

/-- A tile-walk command at work on a core: started, of no other kind, neither done nor migrating. -/
def Sys2Proof.Claims.AtWork (s : State) (core : Nat) (t : Team) (c : Cmd) : Prop :=
  (s.core core).started = [c] ∧ c.instr = none ∧ c.fin = false ∧ c.mig = none ∧ c.team = t.id ∧
  s.team? t.id = some t ∧ t.dead = false ∧ t.st = .resident

/-- The command has done its work, which is all that has changed of the core. -/
def Sys2Proof.Claims.Worked (s s' : State) (core : Nat) (c : Cmd) : Prop :=
  (s'.core core).started = [c] ∧ s'.core core = { s.core core with started := [c] } ∧
  ∀ k, k ≠ core → s'.core k = s.core k

/-- R359: the last unit of `COPY`, `COPY2D` or `COPY3D`, from scratch to scratch of its team: 16 bytes move and the
command has done its work. -/
def Sys2Proof.Claims.CopyMoves : Prop :=
  ∀ (s : State) (core kind : Nat) (t : Team) (c : Cmd) (e : Instr), AtWork s core t c → c.kind = kind →
    (kind = 1 ∧ e = .copy core) ∨ (kind = 2 ∧ e = .copy2d core) ∨ (kind = 3 ∧ e = .copy3d core) →
    let total := c.shape.1 * c.shape.2.1 * c.shape.2.2
    let src := addrAt (c.pair 1) (c.unitAt c.resume).1
    let dst := addrAt (c.pair 3) (c.unitAt c.resume).2
    total = c.resume + 1 → fld src 56 8 = 0xF0 → fld dst 56 8 = 0xF0 →
    fld src 0 56 % 16 = 0 → fld dst 0 56 % 16 = 0 → fld src 0 56 + 16 ≤ t.scrSize → fld dst 0 56 + 16 ≤ t.scrSize →
    t.scrPoisoned (fld src 0 56) 16 = false →
    ∃ s', exec e s = .next s' ∧
      Worked s s' core (({ c with resume := total } : Cmd).finish 0 0 total) ∧
      s'.team? t.id = some (t.scrWrite (fld dst 0 56) (t.scrRead (fld src 0 56) 16)) ∧
      (∀ k, k ≠ t.id → s'.team? k = s.team? k) ∧
      s' = { s with teams := s'.teams, cores := s'.cores, free := s.free + 1, out := [] }

/-- R359: `n` units of a copy within scratch, from unit `k` on, each read and written before the next. -/
def Sys2Proof.Claims.copied (c : Cmd) : Nat → Nat → Team → Team
  | 0, _, t => t
  | n + 1, k, t => copied c n (k + 1) (t.scrWrite (fld (addrAt (c.pair 3) (c.unitAt k).2) 0 56)
      (t.scrRead (fld (addrAt (c.pair 1) (c.unitAt k).1) 0 56) 16))

/-- R359, R361: `COPY`, `COPY2D` or `COPY3D` from scratch to scratch of its team, from wherever it stands: some of the units
that remain move, one after the other in linear order, and the command has done its work once none remains. -/
def Sys2Proof.Claims.CopyRuns : Prop :=
  ∀ (s : State) (core kind : Nat) (t : Team) (c : Cmd) (e : Instr), AtWork s core t c → c.kind = kind →
    (kind = 1 ∧ e = .copy core) ∨ (kind = 2 ∧ e = .copy2d core) ∨ (kind = 3 ∧ e = .copy3d core) →
    let total := c.shape.1 * c.shape.2.1 * c.shape.2.2
    c.resume < total →
    (∀ k, c.resume ≤ k → k < total → ∀ a, a = addrAt (c.pair 1) (c.unitAt k).1 ∨ a = addrAt (c.pair 3) (c.unitAt k).2 →
      fld a 56 8 = 0xF0 ∧ fld a 0 56 % 16 = 0 ∧ fld a 0 56 + 16 ≤ t.scrSize ∧ t.scrPoisoned (fld a 0 56) 16 = false) →
    ∃ s' n, exec e s = .next s' ∧ 0 < n ∧ c.resume + n ≤ total ∧
      Worked s s' core (if c.resume + n = total then ({ c with resume := total } : Cmd).finish 0 0 total
        else { c with resume := c.resume + n }) ∧
      s'.team? t.id = some (copied c n c.resume t) ∧ (∀ k, k ≠ t.id → s'.team? k = s.team? k) ∧
      s' = { s with teams := s'.teams, cores := s'.cores, free := s.free + 1, out := [] }

/-- R23, R48, R58, R117, R120, R359: the last unit of a copy between scratch of its team and memory: out of a page that may
be read, and whose entry has its A bit, the 16 bytes there are written to scratch and no memory changes; into a page that
may be written, and whose entry has its A and D bits, the 16 bytes of scratch stand in memory, and memory changes nowhere
else; the page is not compressed, its leaf does not migrate, and the access finds a free entry. -/
def Sys2Proof.Claims.CopyReachesMemory : Prop :=
  ∀ (s : State) (core kind : Nat) (t : Team) (c : Cmd) (e : Instr) (x : XOk), AtWork s core t c → c.kind = kind →
    (kind = 1 ∧ e = .copy core) ∨ (kind = 2 ∧ e = .copy2d core) ∨ (kind = 3 ∧ e = .copy3d core) →
    let total := c.shape.1 * c.shape.2.1 * c.shape.2.2
    let src := addrAt (c.pair 1) (c.unitAt c.resume).1
    let dst := addrAt (c.pair 3) (c.unitAt c.resume).2
    let fits (a : Dword) : Prop := fld a 56 8 = 0xF0 ∧ fld a 0 56 % 16 = 0 ∧ fld a 0 56 + 16 ≤ t.scrSize
    let page (k : AKind) (a : Dword) (len : Nat) : Prop := fld a 56 8 = 0 ∧
      (now s).translate t.vi a k 16 c.priv = .ok x ∧ x.packed = false ∧ s.migrating x.ea = false ∧
      (now s).agentWaits (c.agent t len true) x = false ∧ adBits k &&& ~~~x.known &&& ~~~x.leaf = 0
    let run : Run := (x.pa, 16, s.keyTag x.leaf)
    total = c.resume + 1 →
    (page .load src (c.bursts c.resume src dst).1 → fits dst → s.poisoned x.pa 16 = false →
      ∃ s', exec e s = .next s' ∧ (s'.core core).started = [({ c with resume := total } : Cmd).finish 0 0 total] ∧
        s'.team? t.id = some (t.scrWrite (fld dst 0 56) (s.bytesAs (s.keyTag x.leaf) x.pa 16)) ∧
        (∀ k, k ≠ t.id → s'.team? k = s.team? k) ∧ s'.mem = s.mem) ∧
    (fits src → t.scrPoisoned (fld src 0 56) 16 = false → page .store dst (c.bursts c.resume src dst).2 →
      ∃ s', exec e s = .next s' ∧ (s'.core core).started = [({ c with resume := total } : Cmd).finish 0 0 total] ∧
        s'.teams = s.teams ∧
        (∀ k, k < 16 → Memory.read s'.mem (x.pa + k) = nth 0 (t.scrRead (fld src 0 56) 16) k) ∧
        ∀ a, Untouched s [run] a → Memory.read s'.mem a = Memory.read s.mem a)

/-- R359: the last unit of a multicast from scratch of its team: every rank named has the 16 bytes. -/
def Sys2Proof.Claims.McastMoves : Prop :=
  ∀ (s : State) (core : Nat) (t : Team) (c : Cmd) (us : List Team), AtWork s core t c → c.kind = 4 → Filed s →
    (ranksOf (fld (nth 0 c.body 5) 0 16)).map (fun r => s.rankTeam t r) = us.map some →
    let src := addrAt (c.pair 1) (16 * c.resume)
    let total := (nth 0 c.body 0).toNat / 16
    let off := fld (c.pair 3) 0 40 + 16 * c.resume
    total = c.resume + 1 → fld src 56 8 = 0xF0 → fld src 0 56 % 16 = 0 → fld src 0 56 + 16 ≤ t.scrSize →
    t.scrPoisoned (fld src 0 56) 16 = false →
    (∀ u ∈ us, fld (c.pair 3) 0 40 + (nth 0 c.body 0).toNat ≤ u.scrSize) →
    ∃ s', exec (.mcast core) s = .next s' ∧ Worked s s' core (({ c with resume := total, checked := true } : Cmd).finish 0 0 total) ∧
      (∀ u ∈ us, ∃ u', s'.team? u.id = some u' ∧ u'.scrRead off 16 = t.scrRead (fld src 0 56) 16) ∧
      (∀ k, (∀ u ∈ us, u.id ≠ k) → s'.team? k = s.team? k) ∧
      s' = { s with teams := s'.teams, cores := s'.cores, free := s.free + 1, out := [] }

/-- R391, R393: a publication to one subscriber whose turn it is: the chunk is written in the slot reserved. -/
def Sys2Proof.Claims.PublicationWrites : Prop :=
  ∀ (s : State) (core : Nat) (t u : Team) (c : Cmd) (b : Sub) (rank slot : Nat) (bs : List Byte) (v : State),
    AtWork s core t c → c.kind = 5 → c.slots = [(rank, slot)] → s.rankTeam t rank = some u →
    s.team? u.id = some u → kfind c.sid u.subs = some b → slot ≤ b.next - b.reserved →
    (now s).readChunk t c ((nth 0 c.body 3).toNat / 16) 0 [] = (.ok bs, v) → v.teams = s.teams →
    bs.length = (nth 0 c.body 3).toNat →
    ∃ s' u', exec (.publishCommand core) s = .next s' ∧
      (s'.core core).started = [c.finish 0 0 ((nth 0 c.body 3).toNat / 16)] ∧ s'.team? u.id = some u' ∧
      u'.scrRead (b.base + b.slot * (slot % b.w)) bs.length = bs ∧ ∀ k, k ≠ u.id → s'.team? k = s.team? k

/-- R359, R391: the tile-walk commands move their bytes.  The model's choices in it: log entries 55, 56
and 104. -/
def Obligations.TileWalkCommandsMove : Prop := CopyMoves ∧ CopyRuns ∧ CopyReachesMemory ∧ McastMoves ∧
  PublicationWrites

/-- R47, R48: `MIGRATE` of a page that its walk finds, to a frame of its size that the VI may use: the leaf enters its
migrating state and leaves every cache of translations, whatever VI it stands for. -/
def Sys2Proof.Claims.MigrationStarts : Prop :=
  ∀ (s : State) (core : Nat) (t : Team) (c : Cmd) (e : Dword) (lvl ea : Nat) (seen : List (Nat × (Nat × Dword))),
    AtWork s core t c → c.kind = 6 →
    let vi := fld (nth 0 c.body 0) 0 6
    let a := fld (c.pair 1) 0 56
    let dest := fld (c.pair 3) 0 48
    let v := s.vi vi
    let root := fld v.troot 13 35 * 8192
    bit v.troot 0 = true → (isNear root || isFar root) = true → fld (c.pair 1) 56 8 = 0 → a / 2 ^ fld v.cfg 0 6 = 0 →
    s.migrating ea = false →
    (now s).walk vi a .prefetch (bit v.troot 1) (fld v.troot 52 12) [0, 1, 2, 3] root [] = .ok (e, lvl, ea, seen) →
    lvl ≠ 1 → dest % pageSize lvl = 0 → isPopulated dest = true →
    s.rangeRefuses vi (dest / 65536) (dest / 65536 + leafLen e (pageSize lvl) / 65536 -
      (if leafLen e (pageSize lvl) < 65536 then 0 else 1)) = none →
    dest ≠ fld e 16 32 * 65536 →
    ∃ s', exec (.migrate core) s = .next s' ∧
      Worked s s' core { c with mig := some (ea, e, a / pageSize lvl * pageSize lvl, pageSize lvl, dest) } ∧
      s'.migrating ea = true ∧
      (∀ k, s'.vid k = { s.vid k with tlb := (s.vid k).tlb.filter (fun x => x.2.1 != ea) }) ∧
      s' = { s with cores := s'.cores, vids := s'.vids, side := s'.side, free := s.free + 1, out := [] }

/-- R48: MIGRATE_COPY of a page in plaintext: its bytes are in the new frame, its leaf names that frame, and the accesses
held are released; no store is buffered, no `.sc` operation waits for a ticket, and neither frame holds the leaf. -/
def Sys2Proof.Claims.MigrationCopies : Prop :=
  ∀ (s : State) (core : Nat) (t : Team) (c : Cmd) (ea page psz dest : Nat) (le : Dword),
    (s.core core).started = [c] → c.mig = some (ea, le, page, psz, dest) → s.team? t.id = some t → c.team = t.id →
    let vi := fld (nth 0 c.body 0) 0 6
    let e : Dword := w64 (leNat ((now s).bytesAs 0 ea 8))
    let old := fld e 16 32 * 65536
    let len := leafLen e psz
    bit (s.vi vi).troot 1 = false → bit e 9 = false → bit (nth 0 c.body 0) 6 = false → len % 64 = 0 →
    dest % 64 = 0 → ea % 8 = 0 → (∀ k, (s.core k).wbuf = []) → s.tickReq = [] → s.tags = [] →
    (old + len ≤ dest ∨ dest + len ≤ old) → (ea + 8 ≤ old ∨ old + len ≤ ea) → (ea + 8 ≤ dest ∨ dest + len ≤ ea) →
    ∃ s', exec (.migrateCopy core c.id) s = .next s' ∧
      (s'.core core).started = [{ (c.finish 0 0 (len / 16)) with mig := none }] ∧
      (∀ k, k < len → Memory.read s'.mem (dest + k) = Memory.read s.mem (old + k)) ∧
      (∀ k, k < 8 → Memory.read s'.mem (ea + k) = nth 0 (leBytes 8 (setFld e 16 32 (dest / 65536)).toNat) k) ∧
      ∀ a, (a < dest ∨ dest + len ≤ a) → (a < ea ∨ ea + 8 ≤ a) → Memory.read s'.mem a = Memory.read s.mem a

/-- R158, R360: a started command that has done its work leaves the core, delivers its status and makes its arrival; here
of one that has reserved no slot and has not failed, and no guard stands at the head of a queue. -/
def Sys2Proof.Claims.CommandCompletes : Prop :=
  ∀ (s : State) (core : Nat) (t : Team) (c : Cmd), (s.core core).startedCmd c.id = some c → c.fin = true →
    c.slots = [] → c.status ≠ 2 → s.team? t.id = some t → c.team = t.id → Unguarded s core →
    ∃ s', exec (.engineCommandComplete core c.id) s = .next s' ∧
      (s'.core core).started = (s.core core).started.filter (fun x => x.id != c.id) ∧
      s'.team? t.id = some (((t.status c c.status c.cause c.done).accTell c.id c.bar).arrive c.bar) ∧
      (∀ k, k ≠ t.id → s'.team? k = s.team? k) ∧
      s' = { s with teams := s'.teams, cores := s'.cores, free := s.free + 1, out := [] } ∧
      (∀ k, k ≠ core → s'.core k = s.core k) ∧ (s'.core core).qmx = (s.core core).qmx ∧
      (s'.core core).qcp = (s.core core).qcp

/-- R47 to R50, R360: migrations start and complete; a command that has done its work completes.  The model's choices in it:
log entries 60 and 62. -/
def Obligations.MigrationAndCompletion : Prop := MigrationStarts ∧ MigrationCopies ∧ CommandCompletes

/-! ### The matrix unit, subscriptions, the slew limiter (R366 to R394, R466 to R471) -/

/-- R374: a command at the head of `q.mx` that may start and passes its checks. -/
def Sys2Proof.Claims.MxStarts (s : State) (core : Nat) (t : Team) (c : Cmd) (i : Instr) : Prop :=
  s.mxHead core = some (c, i) ∧ s.team? t.id = some t ∧ c.team = t.id ∧ (s.core core).started = [] ∧
  State.mxStartFault (s.core core) t c i = none ∧ mxPoison t c i = false ∧
  ∀ x rest, (s.core core).qmx.drop 1 = x :: rest ∨ (s.core core).qcp = x :: rest → x.guard = none

/-- The command has left `q.mx` and stands started. -/
def Sys2Proof.Claims.MxStarted (s s' : State) (core : Nat) (c : Cmd) : Prop :=
  (s'.core core).qmx = (s.core core).qmx.drop 1 ∧ (s'.core core).started = [c] ∧
  (s'.core core).qcp = (s.core core).qcp ∧ (∀ k, k ≠ core → s'.core k = s.core k) ∧
  s' = { s with teams := s'.teams, cores := s'.cores, free := s.free + 1, out := [] }

/-- R366, R370, R374 to R377, R383 to R387, R466: MATRIX_COMMAND starts the head of `q.mx`: one that feeds rows asks for an
injection for each, of one slot or of two, on one strand or on three, and keeps the planes of its strands; the others do their work at once.  The rows of accumulators that a command is
about to write are kept for the groups that have not waited for it (R161). -/
def Sys2Proof.Claims.MatrixCommandsStart : Prop :=
  ∀ (s : State) (core : Nat) (t : Team) (c : Cmd) (i : Instr), MxStarts s core t c i →
    ∃ s', exec (.matrixCommand core) s = .next s' ∧
    ((∃ o, i = .mma o) ∨ (∃ o, i = .mmas o) → c.rowNums ≠ [] →
      (∃ inj, inj.length = c.rowNums.length ∧ (∀ x ∈ inj, x.2 = (if mxTy i = .f16 ∨ mxTy i = .bf16 then 2 else 1) ∧
          x.1 = x.2 * (if mxMode i = 1 ∨ mxMode i = 2 then 3 else 1)) ∧ MxStarted s s' core { c with
        inj := inj, injDone := 0,
        planes := c.strands.filterMap (fun j => ((s.core core).plane? t.id j false).map (fun p => (j, p))) }) ∧
      s'.teams = s.teams) ∧
    (∀ o, i = .accz o → MxStarted s s' core (c.finish 0 0 1) ∧
      s'.team? t.id = some ((t.accKeeps c.id (fld o.d 0 6) (fld o.w3 16 7) (fld o.w3 23 8)).accClear
        (fld o.d 0 6) (fld o.w3 16 7) (fld o.w3 23 8))) ∧
    (∀ o, i = .mldw o → MxStarted s s' core (c.finish 0 0 1) ∧ s'.teams = s.teams ∧
      kfind (2 * c.strand + 1) (s'.core core).planes = some (t.runMldw c o)) ∧
    (∀ o, i = .mswap o → MxStarted s s' core (c.finish 0 0 1) ∧ s'.teams = s.teams ∧
      (s'.core core).planes = (c.strands.foldl Core.swap (s.core core)).planes) ∧
    (∀ o, i = .mhad o → MxStarted s s' core (c.finish 0 0 1) ∧ s'.team? t.id = some ((t.accKeeps c.id (fld o.d 0 6) 0 128).runMhad c o)) ∧
    (∀ o, i = .mqnt o → MxStarted s s' core (c.finish 0 0 1) ∧ s'.team? t.id = some (t.runMqnt (s.free + 1) c o)) ∧
    (∀ o, i = .acccvt o → MxStarted s s' core (c.finish 0 0 1) ∧ s'.team? t.id = some (t.runAcccvt c o))

/-- R160, R380: `MMA.J` of a fragment outside every region, which no fragment waits for: where it names no other group, one
command of its group enters `q.mx`, the last `OPFENCE` of the group is spent and the fragment goes on; where it names
another group, the fragment is held. -/
def Sys2Proof.Claims.JointArrives : Prop :=
  ∀ (o : XOps) (s : State) (t : Team) (f : Frag) (g : Group) (m : Word), Issues (.mmaJ o) s t f g m →
    f.region = none → Unguarded s t.core → (∀ k ∈ t.frags, ∀ j arr n, k.st ≠ .held j arr n) →
    (t.frags.map (fun k => k.id)).Nodup →
    (∀ k ∈ t.jointNamed o.w3 [g.num], ∃ x, t.group? k = some x ∧ x.finished = false) →
    ((∀ k ∈ t.jointNamed o.w3 [g.num], k = g.num) → s.queueWaiters t.core 0 = false →
      (s.core t.core).qmx.length < 32 →
      t.badBars (t.formCmd g.num f.hm [w32 (1 + 16 * fld o.b 0 4)]) = none →
      ∃ s' t' f' g' x, exec (.mmaJ o) s = .next s' ∧ Moved s t f g (goesOn (.mmaJ o) f) s' t' f' g' ∧
        CountsOnly { g with opfRegs := g.opfRegs ++ [g.regs] } g' ∧ GroupsOnly t t' ∧
        (s'.core t.core).qmx = (s.core t.core).qmx ++ [x] ∧
        x.instr = some (.mmaJ o) ∧ x.bar = fld o.b 0 4 ∧ x.joint = [(g.num, active (.mmaJ o) g m)] ∧
        (∀ k, k ≠ t.id → s'.team? k = s.team? k) ∧ s'.mem = s.mem) ∧
    ((∃ k ∈ t.jointNamed o.w3 [g.num], k ≠ g.num) →
      ∃ s' t' f' g' arr, exec (.mmaJ o) s = .next s' ∧
        Moved s t f g (waitsIn f (.held (.mmaJ o) [arr] (after (.mmaJ o) f))) s' t' f' g' ∧ WaitsOnly g g' ∧
        arr.group = g.num ∧ arr.lanes = m ∧ arr.act = active (.mmaJ o) g m ∧ GroupsOnly t t' ∧
        (∀ k, k ≠ t.id → s'.team? k = s.team? k) ∧ s'.mem = s.mem)

/-- R380: MMA_J_FORM: once the arrivals name every group that a joint instruction names and an entry is free, one command
enters, and every fragment that waited goes on. -/
def Sys2Proof.Claims.JointForms : Prop :=
  ∀ (s : State) (t : Team) (f : Frag) (o : XOps) (arr : List Arrival) (next : Dword), s.team? t.id = some t →
    f ∈ t.frags → t.frag? f.id = some f → f.st = .held (.mmaJ o) arr next → Unguarded s t.core →
    (s.core t.core).dbg.step = false → (t.frags.map (fun k => k.id)).Nodup → s.queueWaiters t.core 0 = false →
    (s.core t.core).qmx.length < 32 → arr ≠ [] →
    (∀ k ∈ t.jointNamed o.w3 ((t.jointArrivals (.mmaJ o) f.pc).map (fun a => a.2.group)),
      k ∈ (t.jointArrivals (.mmaJ o) f.pc).map (fun a => a.2.group)) →
    (∀ a ∈ t.jointArrivals (.mmaJ o) f.pc, t.badBars (t.formCmd a.2.group a.1.hm [w32 (1 + 16 * fld o.b 0 4)]) = none) →
    (∀ k ∈ t.frags, ∀ a n, k.st = .held (.mmaJ o) a n → k.pc = f.pc →
      k.lanes ≠ [] ∧ ∀ e ∈ k.lanes, e.2 ≠ 0 ∧ (∃ x, t.group? e.1 = some x) ∧ ∃ b ∈ a, b.group = e.1) →
    ∃ s' t' x, exec (.mmaJForm t.id f.id) s = .next s' ∧ s'.team? t.id = some t' ∧
      (s'.core t.core).qmx = (s.core t.core).qmx ++ [x] ∧ x.instr = some (.mmaJ o) ∧
      (∀ k ∈ t.frags, ∀ a n, k.st = .held (.mmaJ o) a n → k.pc = f.pc →
        ∃ k', t'.frag? k.id = some k' ∧ k'.st = .ready ∧ k'.pc = n) ∧
      (∀ k, k ≠ t.id → s'.team? k = s.team? k) ∧ s'.mem = s.mem

/-- R374, R380: the matrix commands start, and joint ones are formed.  The model's choices in it: log entries 55, 57,
95 and 110. -/
def Obligations.MatrixCommandsComplete : Prop := MatrixCommandsStart ∧ JointArrives ∧ JointForms

/-- R390: `SUBSCRIBE` opens a stream with a barrier of the team and slots that fit its scratch, gives slots back, or closes
it; a close waits while a delivery is reserved. -/
def Sys2Proof.Claims.SubscribeRuns : Prop :=
  ∀ (o : XOps) (s : State) (t : Team) (f : Frag) (g : Group) (m : Word), Issues (.subscribe o) s t f g m →
    let sid := fld o.w3 2 4
    let sa := g.scalar o.a.toNat
    let sb := g.scalar o.b.toNat
    let done (b : Sub) := Goes (.subscribe o) s t f g (goesOn (.subscribe o) f)
      (fun _ t' _ g' => CountsOnly g g' ∧
        t' = { t with groups := t'.groups, frags := t'.frags, subs := kset sid b t.subs })
    (active (.subscribe o) g m = 0 → Goes (.subscribe o) s t f g (goesOn (.subscribe o) f)
      (fun _ t' _ g' => CountsOnly g g' ∧ GroupsOnly t t')) ∧
    (active (.subscribe o) g m ≠ 0 → fld o.w3 0 2 = 0 → fld o.w3 6 4 < t.barsN →
      (∃ b, kfind (fld o.w3 6 4) t.bars = some b) → (∀ b, kfind sid t.subs = some b → b.isOpen = false) →
      fld sa 0 4 = 0 → fld sb 0 20 ≠ 0 → fld sb 0 20 % 16 = 0 → fld sb 24 8 = 0 →
      sa.toNat + (fld sb 20 4 + 1) * fld sb 0 20 ≤ t.scrSize →
      done { isOpen := true, base := sa.toNat, slot := fld sb 0 20, w := fld sb 20 4 + 1, bar := fld o.w3 6 4,
             out := 0, next := 0, reserved := 0 }) ∧
    (∀ b, active (.subscribe o) g m ≠ 0 → kfind sid t.subs = some b → b.isOpen = true →
      (fld o.w3 0 2 = 1 → sa.toNat ≠ 0 → sa.toNat ≤ b.out → sa.toNat ≤ 16 → done { b with out := b.out - sa.toNat }) ∧
      (fld o.w3 0 2 = 2 → b.reserved = 0 → done { b with isOpen := false }) ∧
      (fld o.w3 0 2 = 2 → b.reserved ≠ 0 →
        Goes (.subscribe o) s t f g (waitsIn f (.subClose sid (after (.subscribe o) f)))
          (fun _ t' _ g' => WaitsOnly g g' ∧ GroupsOnly t t')))

/-- R390: SUBSCRIBE_CLOSE_COMPLETE: with every reserved delivery written, the stream closes and its fragment goes on. -/
def Sys2Proof.Claims.SubscribeCloses : Prop :=
  ∀ (s : State) (t : Team) (f : Frag) (g : Group) (m : Word) (sid : Nat) (next : Dword) (b : Sub),
    s.team? t.id = some t → t.frag? f.id = some f → f.lanes = [(g.num, m)] → m ≠ 0 → t.group? g.num = some g →
    (s.core t.core).dbg.step = false → f.st = .subClose sid next → kfind sid t.subs = some b → b.reserved = 0 →
    ∃ s' t' f', exec (.subscribeCloseComplete t.id f.id) s = .next s' ∧ s'.team? t.id = some t' ∧
      t'.frag? f.id = some f' ∧ f'.st = .ready ∧ f'.pc = next ∧ f'.lanes = f.lanes ∧
      t' = { t with
        groups := t'.groups, frags := t'.frags, subs := kset sid { b with isOpen := false } t.subs } ∧
      t'.group? g.num = some g.complete ∧ (∀ k, k ≠ g.num → t'.group? k = t.group? k) ∧
      (∀ k, k ≠ f.id → t'.frag? k = t.frag? k) ∧ (∀ k, k ≠ t.id → s'.team? k = s.team? k) ∧
      s' = { s with teams := s'.teams, free := s.free + 1, out := [] }

/-- R394, R471: `MCAD` in handler mode sets the cadence of its core, where a lane is active; a register write of `CORE_CAD` in
the same clk stands. -/
def Sys2Proof.Claims.McadRuns : Prop :=
  ∀ (o : XOps) (s : State) (t : Team) (f : Frag) (g : Group) (m : Word), Issues (.mcad o) s t f g m →
    ∃ s' t' f' g', exec (.mcad o) s = .next s' ∧ Moved s t f g (goesOn (.mcad o) f) s' t' f' g' ∧ CountsOnly g g' ∧
      GroupsOnly t t' ∧ (∀ k, k ≠ t.id → s'.team? k = s.team? k) ∧
      s' = { s with teams := s'.teams, cores := s'.cores, cur := none, free := s.free + 1, out := [] } ∧
      (s'.core t.core).cadence = (if active (.mcad o) g m = 0 ∨ (s.core t.core).cadClk = some s.clock.clk then
        (s.core t.core).cadence else fld o.w3 0 5) ∧
      ∀ k, k ≠ t.core → s'.core k = s.core k

/-- R390, R394: subscriptions, and the cadence of a core. -/
def Sys2Proof.Claims.SubscriptionsAndCadence : Prop := SubscribeRuns ∧ SubscribeCloses ∧ McadRuns

/-- R369: the new value of an element in column `n` of an output of strand `j`, of a row whose words are `ws`; `w` gives the
planes: a product is rounded once, sums are made in the order of the rows, and modes 2 (K3) and 3 (Q4) add their parts in
order before the accumulator. -/
def Sys2Proof.Claims.elemAfter (mode : Nat) (ty : Ty) (ws : List Word) (w : Nat → Plane) (j n acc : Nat) : Nat :=
  let dot (m : Nat) (p : Plane) : Nat :=
    dot32 ((List.range 128).map (fun r => prod32 (rowElem ty ws (128 * m + r)) (p.cell r n)))
  let code (b k : Nat) : FVal := qn4Val ((w j).code (64 * b + k) n)
  let part (b : Nat) : Nat := rne32 ((fF32.dec (dot32 ((List.range 64).map (fun k =>
    prod32 (rowElem ty ws (64 * b + k)) (code b k))))).mul ((w j).scale b n)).1
  if mode = 2 then add32 (add32 (add32 (dot 0 (w 0)) (dot 1 (w 1))) (dot 2 (w 2))) acc
  else if mode = 3 then add32 (add32 (add32 (add32 (part 0) (part 1)) (part 2)) (part 3)) acc
  else add32 (dot 0 (w j)) acc

/-- R378, R381, R382: the words of the row that a command feeds next: those read at its issue or its start, or, of `MMAS`, those
in scratch. -/
def Sys2Proof.Claims.rowWords (t : Team) (c : Cmd) (i : Instr) : List Word :=
  match i with
  | .mmas o => bytesWords (t.scrRead (c.sa.toNat % 2 ^ 32 + 16 * fld c.sb 16 16 * c.injDone)
      (4 * rowRegs (fld o.w3 14 2) o.ty))
  | _ => nth [] (c.rows.map (fun r => r.2)) c.injDone

/-- R374: a command that feeds rows is the only one at work on its core, and on its die; its next row takes `slots` slots on
each of its strands, of `cost` units; it has its planes, and nothing it reads or adds to is poisoned. -/
structure Sys2Proof.Claims.RowStands (s : State) (core : Nat) (t : Team) (c : Cmd) (i : Instr) (cost slots : Nat)
    (rest : List (Nat × Nat)) (w : Nat → Plane) : Prop where
  onDie : core < 144
  started : (s.core core).started = [c]
  instr : c.instr = some i
  feeds : mxFeeds i = true
  ready : (s.core core).rowReady s.clock.clk c = true
  others : ∀ k, dieOf k = dieOf core → k ≠ core → (s.core k).started = []
  row : c.inj = (cost, slots) :: rest
  paid : 0 < cost
  team : s.team? t.id = some t
  mine : c.team = t.id
  planes : ∀ j ∈ c.strands, kfind j c.planes = some (w j)
  clean : t.accPoison = [] ∧ t.scrPoison = []
  turn : (s.snub (dieOf core)).grantClk ≠ some s.clock.clk

/-- R369, R370, R466 to R468, R471: the row is granted and fed: its strands are taken for its slots, each as long as the
cadence; the core is no longer cold; the groups of the team count the slots (R423); every element of the row's outputs has
its new value, and no other element has changed; the command has one row less to feed, and has done its work after the last. -/
def Sys2Proof.Claims.RowFed (s s' : State) (core : Nat) (t : Team) (c : Cmd) (i : Instr) (slots : Nat)
    (rest : List (Nat × Nat)) (w : Nat → Plane) : Prop :=
  let k := s.core core
  let outs := c.outStrands.map (fun j => (j, c.outRow j (nth 0 c.rowNums c.injDone)))
  let fed : Cmd := { c with inj := rest, injDone := c.injDone + 1 }
  (s'.core core).started = [if rest = [] then fed.finish 0 0 (c.injDone + 1) else fed] ∧
  (∀ j ∈ c.strands, kget 0 j (s'.core core).slotAt = s.clock.clk + max k.cadence k.gfloor * slots) ∧
  (∀ j, j ∉ c.strands → kget 0 j (s'.core core).slotAt = kget 0 j k.slotAt) ∧
  (s'.core core).lastGrant = some s.clock.clk ∧ (s'.core core).injWin = some (s.clock.clk / 64) ∧
  (∀ x, x ≠ core → s'.core x = s.core x) ∧
  ∃ t', s'.team? t.id = some t' ∧ (∀ x, x ≠ t.id → s'.team? x = s.team? x) ∧
    t' = { t with groups := t'.groups, acc := t'.acc, accW := t'.accW, accOld := t'.accOld } ∧
    (∀ n, t'.group? n = (t.group? n).map (fun x => x.perfAdd 3 (slots * c.strands.length))) ∧
    (∀ o ∈ outs, ∀ n, n < 128 → t'.accGet o.2.1 o.2.2 n =
      w32 (elemAfter (mxMode i) (mxTy i) (rowWords t c i) w o.1 n (t.accGet o.2.1 o.2.2 n).toNat)) ∧
    ∀ x, (∀ o ∈ outs, ∀ n, n < 128 → x ≠ accKey o.2.1 o.2.2 n) → zget x t'.acc = zget x t.acc

/-- Nothing of the row has happened: it waits for a later clk. -/
def Sys2Proof.Claims.RowWaits (s s' : State) (core : Nat) : Prop := s'.teams = s.teams ∧ s'.core core = s.core core

/-- R467 to R469: the grant of the row of a die on which one command feeds rows.  Without metering it is granted.  With it, a
row of a core that is not cold is granted where its cost lies within what the allowance leaves, or where it alone exceeds
the allowance of a window in which nothing has been granted, and its cost is counted; else it waits, and the clk is counted
as one that refused; a row of a cold core waits for a clk that is a multiple of 4; here the floor is met, and no filler is
granted. -/
def Sys2Proof.Claims.RowsAreGranted : Prop :=
  ∀ (s : State) (core : Nat) (t : Team) (c : Cmd) (i : Instr) (cost slots : Nat) (rest : List (Nat × Nat))
    (w : Nat → Plane), RowStands s core t c i cost slots rest w →
    let d := dieOf core
    let n := s.snub d
    let fits := cost + n.w ≤ n.a ∨ (n.w = 0 ∧ n.a < cost)
    let cold := ∀ g, (s.core core).lastGrant = some g → g + 64 < s.clock.clk
    let spent : Snub := { n with grantClk := some s.clock.clk, w := n.w + cost, rrCore := core }
    ∃ s', exec (.snubInjectionGrant d) s = .next s' ∧
      (bit n.inForce 0 = false → RowFed s s' core t c i slots rest w ∧ s'.snub d = { n with grantClk := some s.clock.clk }) ∧
      (bit n.inForce 0 = true → n.floor ≤ n.w → ¬ cold → fits →
        RowFed s s' core t c i slots rest w ∧ s'.snub d = spent) ∧
      (bit n.inForce 0 = true → n.floor ≤ n.w → ¬ cold → ¬ fits → RowWaits s s' core ∧
        s'.snub d = { n with grantClk := some s.clock.clk, refused := (n.refused + 1) % 2 ^ 32 }) ∧
      (bit n.inForce 0 = true → n.floor ≤ n.w → cold → (s.core core).startOk = false → s.clock.clk % 4 ≠ 0 →
        RowWaits s s' core ∧ s'.snub d = { n with grantClk := some s.clock.clk }) ∧
      (bit n.inForce 0 = true → n.floor ≤ n.w → cold → s.clock.clk % 4 = 0 → fits →
        RowFed s s' core t c i slots rest w ∧
          s'.snub d = { spent with rrStart := if (s.core core).startOk then n.rrStart else core })

/-- R469: fillers: on a die without a request, whose strands take no real slot in this clk, three units for each core that
received an injection in the window before, until the floor is met; they have no architectural effect. -/
def Sys2Proof.Claims.FillersAreGranted : Prop :=
  ∀ (s : State) (die : Nat), die < 4 → bit (s.snub die).inForce 0 = true → (s.snub die).grantClk ≠ some s.clock.clk →
    (∀ k, dieOf k = die → (s.core k).started = [] ∧ ∀ j, kfind j (s.core k).slot2 ≠ some s.clock.clk) →
    let n := s.snub die
    let win := s.clock.clk / 64
    let warm := (List.range 144).filter (fun c => dieOf c == die &&
      ((s.core c).injWin == some (win - 1) || (s.core c).injPrev == some (win - 1)))
    win ≠ 0 →
    ∃ s', exec (.snubInjectionGrant die) s = .next s' ∧ s'.teams = s.teams ∧
      (s'.snub die).w = max n.w (min n.floor (n.w + 3 * warm.length)) ∧
      (s'.snub die).fill = n.fill + ((s'.snub die).w - n.w) ∧ (s'.snub die).refused = n.refused

/-- R467 to R470: the slew limiter: a window of a die begins with the limits its last window leaves; while it is in force,
no window takes more slots than its limit, but for the one row that alone exceeds it; the grants of a clk are made
once. -/
def Sys2Proof.Claims.SlewLimiterWorks : Prop :=
  (∀ (s : State) (die : Nat), (s.snub die).win < s.clock.clk / 64 →
    ∃ s', exec (.snubWindowBoundary die) s = .next s' ∧
      s'.snub die = { s.snub die with
        inForce := (s.snub die).cfg, a := (s.snub die).w + fld (s.snub die).cfg 1 13,
        floor := (s.snub die).w - fld (s.snub die).cfg 1 13, w := 0, win := (s.snub die).win + 1,
        lastW := (s.snub die).w, lastFill := (s.snub die).fill, fill := 0 } ∧
      (∀ k, k ≠ die → s'.snub k = s.snub k) ∧ s' = { s with snubs := s'.snubs, free := s.free + 1, out := [] }) ∧
  (∀ (s : State) (die : Nat), (s.snub die).grantClk ≠ some s.clock.clk →
    ∃ s', exec (.snubInjectionGrant die) s = .next s' ∧ (s'.snub die).grantClk = some s.clock.clk ∧
      (∀ k, k ≠ die → s'.snub k = s.snub k) ∧ (s'.snub die).a = (s.snub die).a ∧
      (bit (s.snub die).inForce 0 = true → (s.snub die).w ≠ 0 → (s.snub die).w ≤ (s.snub die).a →
        (s.snub die).floor ≤ (s.snub die).a → (s'.snub die).w ≤ (s'.snub die).a) ∧
      s' = { s with teams := s'.teams, cores := s'.cores, snubs := s'.snubs, free := s.free + 1, out := [] }) ∧
  RowsAreGranted ∧ FillersAreGranted

/-- R389, R394, R467 to R470: subscriptions, the cadence and the slew limiter.  The model's choices in it: log entries 7, 8
and 30. -/
def Obligations.SubscriptionsAndInjectionRun : Prop := SubscriptionsAndCadence ∧ SlewLimiterWorks

/-! ### Causes, stops and the handler (R255, R256, R285, R421, R450 to R456) -/

/-- A fragment of one home group has been selected to issue at an instruction, no long-class result of the group is
pending, and its core does not step. -/
structure Sys2Proof.Claims.Faces (s : State) (t : Team) (f : Frag) (g : Group) (m : Word) : Prop where
  selected : s.cur = some { team := t.id, frag := f.id }
  team : s.team? t.id = some t
  frag : t.frag? f.id = some f
  lanes : f.lanes = [(g.num, m)]
  carried : m ≠ 0
  group : t.group? g.num = some g
  settled : g.pend = []
  running : (s.core t.core).dbg.step = false

/-- R455: the trap registers of a group that has stopped: what a cause writes, and the save registers as they were. -/
def Sys2Proof.Claims.recorded (i : Instr) (f : Frag) (g : Group) (tr : Trap) (resume : Dword) : TrapRegs :=
  { g.tr with
    tcause := w32 (tr.cause.code + 64 * b2n tr.malf + 128 * b2n tr.hw + 256 * (tr.detail % 256))
    taddr := tr.addr.getD f.pc, tinst := f.pc, tresume := resume, tmask0 := tr.mask0, tmask1 := tr.mask1,
    tmask2 := tr.mask2, tword := if tr.cause = .fetchFault then 0 else firstWord i, texec := g.exec, tfmt := f.fmt }

/-- R461: the core of a team halts, with the first cause recorded. -/
def Sys2Proof.Claims.CoreHalts (s s' : State) (t : Team) (group cause : Nat) : Prop :=
  (s'.core t.core).dbg.halt = true ∧
  ((s.core t.core).dbg.halt = false → (s'.core t.core).dbg.cause = cause ∧ (s'.core t.core).dbg.slot = t.slot ∧
    (s'.core t.core).dbg.group = group) ∧
  ∀ k, k ≠ t.core → (s'.core k).dbg = (s.core k).dbg

/-- R452: the team is dead; one that was not loses its commands that have not started, and its grid counts the fault. -/
def Sys2Proof.Claims.TeamEnds (s s' : State) (t t' : Team) (cause : Nat) (faddr : Dword) : Prop :=
  t'.dead = true ∧ (t.dead = false → t'.saved = [] ∧
    (s'.core t.core).qmx = (s.core t.core).qmx.filter (fun c => c.team != t.id) ∧
    (s'.core t.core).qcp = (s.core t.core).qcp.filter (fun c => c.team != t.id) ∧
    ∀ r, s.grid? t.grid = some r → ∃ r', s'.grid? t.grid = some r' ∧ r'.count = min (r.count + 1) 0xFFFFFFFF ∧
      (r.count = 0 → r'.cause = cause ∧ r'.faddr = faddr &&& 0xFFFFFFFFFFFFFF) ∧
      (r.count ≠ 0 → r'.cause = r.cause ∧ r'.faddr = r.faddr))

/-- R454: every other fragment that carries lanes of the group is already in handler mode. -/
def Sys2Proof.Claims.Alone (t : Team) (f : Frag) (g : Group) : Prop :=
  ∀ x ∈ t.frags, x.id ≠ f.id → x.hm = true ∨ ∀ e ∈ x.lanes, e.1 ≠ g.num

/-- R451 to R454, R461: the group stops for a cause, with nothing of the instruction's effect.  By its fate: the fragment
enters the handler, with the trap registers written and the lanes that have not exited enabled; or it stops, and its core
halts; or its team is dead, its commands that have not started are discarded and its grid counts the fault.  A stop that
comes after its instruction has completed (R450 step 8) counts that completion (R457, R463, R465).  (What a handler entry
does to other fragments of the group is a statement of its own.)  That the count of R463 is 0 on entry to the handler is
log entry 42. -/
def Sys2Proof.Claims.Stops (i : Instr) (s : State) (t : Team) (f : Frag) (g : Group) (m : Word) (tr : Trap)
    (resume : Dword) : Prop :=
  let g₁ := if tr.completes then (g.perfAdd 0 1).complete else g.perfAdd 0 1
  (s.fate t g.hm tr.cause = .handler → Alone t f g) →
  ∃ s' t' f' g', exec i s = .next s' ∧ s'.team? t.id = some t' ∧ t'.frag? f.id = some f' ∧ f'.lanes = f.lanes ∧
    t'.group? g.num = some g' ∧ (∀ k, k ≠ f.id → t'.frag? k = t.frag? k) ∧
    (∀ k, k ≠ g.num → t'.group? k = t.group? k) ∧ s'.mem = s.mem ∧ s'.hub = s.hub ∧ s'.clock = s.clock ∧ s'.cur = none ∧
    (s.fate t g.hm tr.cause = .handler →
      f'.st = .ready ∧ f'.pc = (s.vi t.vi).trapEntry ∧ f'.hm = true ∧ f'.fmt = 0 ∧ GroupsOnly t t' ∧
      Outside s t s' ∧
      g' = { g₁ with
        tr := recorded i f g tr resume, hm := true, exec := g.exec ||| (m &&& g.alive), wdog := 0 }) ∧
    (s.fate t g.hm tr.cause = .halt →
      f'.st = .stopped ∧ f'.pc = f.pc ∧ f'.hm = f.hm ∧ f'.fmt = f.fmt ∧ GroupsOnly t t' ∧
      g' = { g₁ with tr := recorded i f g tr resume, stop := some (.fault tr.cause g.hm) } ∧
      CoreHalts s s' t g.num tr.cause.code ∧
      ∀ k, k ≠ t.id → s'.team? k = s.team? k) ∧
    (s.fate t g.hm tr.cause = .team →
      f'.st = .stopped ∧ f'.pc = f.pc ∧ g' = g₁ ∧
      TeamEnds s s' t t' tr.cause.code (tr.addr.getD f.pc))

/-- R454: privilege is the mode of a home group: once one of its fragments has entered the handler, every fragment that
carries lanes of the group is in handler mode. -/
def Sys2Proof.Claims.ModeIsTheGroups (i : Instr) (s : State) (t : Team) (f : Frag) (g : Group) (cause : Cause) : Prop :=
  s.fate t g.hm cause = .handler → (t.frags.map (fun k => k.id)).Nodup → (∀ k ∈ t.frags, k.id < t.nextFrag) →
  ∃ s' t', exec i s = .next s' ∧ s'.team? t.id = some t' ∧
    ∀ x ∈ t'.frags, (∃ e ∈ x.lanes, e.1 = g.num) → x.hm = true

/-- R255, R256, R454: an instruction whose fields break a rule, or that its mode, its registers or its roles do not admit,
stops the group at its own address, with the lowest cause that R255 names; where it enters the handler, with every
fragment that carries lanes of the group.  The model's choices in it: log entries 42 and 111. -/
def Obligations.CausesStopGroups : Prop :=
  (∀ (i : Instr) (s : State) (t : Team) (f : Frag) (g : Group) (m : Word) (c : Cause), Faces s t f g m →
    (form i).isSome → fieldCause i f.hm = some c →
    Stops i s t f g m { cause := c } f.pc ∧ ModeIsTheGroups i s t f g c) ∧
  (∀ (i : Instr) (s : State) (t : Team) (f : Frag) (g : Group) (m : Word) (c : Cause), Faces s t f g m →
    (form i).isSome → fieldCause i f.hm = none → s.liveCause t f i = some c →
    Stops i s t f g m { cause := c } f.pc ∧ ModeIsTheGroups i s t f g c)

/-- R58, R100: a short-class lane instruction that reads a poisoned register stops the group. -/
def Sys2Proof.Claims.PoisonedOperandStops : Prop :=
  ∀ (i : Instr) (s : State) (t : Team) (f : Frag) (g : Group) (m : Word) (n : Nat) (v : Nat → Dword), Faces s t f g m →
    (form i).isSome → fieldCause i f.hm = none → s.liveCause t f i = none →
    laneOf i (ctx i s t f) (gctx i g m) = some (n, v) → (sees i s t f).poisonedOperand (seen i g m) = true →
    Stops i s t f g m { cause := .uncorrectable } f.pc

/-- R285, R456: a floating instruction one of whose active lanes raises an enabled exception stops the group before any
lane writes: the record names those lanes, and every exception that an active lane raised. -/
def Sys2Proof.Claims.EnabledExceptionStops : Prop :=
  ∀ (i : Instr) (s : State) (t : Team) (f : Frag) (g : Group) (m : Word) (v : GCtx → Nat → Word × Exc),
    Issues i s t f g m → floatOf i (ctx i s t f) = some v ∨ longFloatOf i (ctx i s t f) = some v →
    ¬ Untrapped f (active i g m) (v (gctx i g m)) →
    ∃ tr, tr.cause = .arithTrap ∧ tr.addr = none ∧ tr.mask1 = 0 ∧ tr.mask2 = 0 ∧ tr.malf = false ∧ tr.hw = false ∧
      (∀ l, l < 32 → bit tr.mask0 l =
        (bit (active i g m) l && ((v (gctx i g m) l).2 &&& fmtEnabled f.fmt != 0))) ∧
      (∀ k, k < 5 → (tr.detail / 2 ^ k % 2 = 1 ↔
        ∃ l, l < 32 ∧ bit (active i g m) l = true ∧ bit (v (gctx i g m) l).2 k = true)) ∧ tr.detail < 32 ∧
      Stops i s t f g m tr f.pc

/-- R421: the cause of `TRAP` and of `BKPT`. -/
def Sys2Proof.Claims.stopOf : Instr → Option Cause
  | .trapShort _ | .trap _ => some .softwareTrap
  | .bkptShort _ | .bkpt _ => some .breakpoint
  | _ => none

/-- R421, R455: `TRAP` and `BKPT` stop a group that has an active lane, with their code and the active mask; it resumes after
them, its instruction completed (R450 step 8).  A group without an active lane goes on.  The model's choices in it: log
entries 37 and 42. -/
def Obligations.TrapInstructionsComplete : Prop :=
  ∀ (i : Instr) (s : State) (t : Team) (f : Frag) (g : Group) (m : Word) (c : Cause), Issues i s t f g m →
    stopOf i = some c →
    (active i g m = 0 → Goes i s t f g (goesOn i f) (fun _ t' _ g' => GroupsOnly t t' ∧ CountsOnly g g')) ∧
    (active i g m ≠ 0 →
      Stops i s t f g m { cause := c, detail := (ops i).d.toNat, mask0 := active i g m } (after i f))

/-- R58, R100, R285: a poisoned operand, and an enabled exception, stop the group.  The model's choices in it: log
entries 39 and 42. -/
def Obligations.OperandsAndExceptionsStop : Prop := PoisonedOperandStops ∧ EnabledExceptionStops

/-! ### Meshlets, tiles, rays, samples (R397 to R417, R426, R439) -/

/-- R398: the instructions that act once for a home group, on the operands of its lowest active lane. -/
def Sys2Proof.Claims.oncePerGroup : Instr → Bool
  | .vamp _ | .msetcnt _ | .mflagShort _ | .mflag _ | .tilebind _ | .tilerel _ | .tiledone _ | .rayl _ | .rayq _
  | .vout _ | .pout _ | .emitShort _ | .emit _ | .emitqShort _ | .emitq _ => true
  | _ => false

/-- R398: a home group without an active lane moves past a group-wide instruction. -/
def Sys2Proof.Claims.InactiveGroupsMovePast : Prop :=
  ∀ (i : Instr) (s : State) (t : Team) (f : Frag) (g : Group) (m : Word), Issues i s t f g m → oncePerGroup i = true →
    active i g m = 0 →
    Goes i s t f g (goesOn i f) (fun _ t' _ g' => GroupsOnly t t' ∧ CountsOnly g g')

/-- R400: `VAMP` opens a meshlet whose buffer fits the team's scratch, for views that the binding has. -/
def Sys2Proof.Claims.VampCompletes : Prop :=
  ∀ (o : XOps) (s : State) (t : Team) (f : Frag) (g : Group) (m : Word) (b : Binding), Issues (.vamp o) s t f g m →
    let off := ((ctx (.vamp o) s t f).groupA (gctx (.vamp o) g m) 1).toNat
    let mask := ((ctx (.vamp o) s t f).groupB (gctx (.vamp o) g m) 1).toNat
    active (.vamp o) g m ≠ 0 → off % 64 = 0 →
    off + 4 * (4 + fld o.w3 18 5) * fld o.w3 0 9 + 8 * fld o.w3 9 9 ≤ t.scrSize → t.binding = some b →
    mask ≠ 0 → mask < 65536 → (∀ v, v < 16 → mask / 2 ^ v % 2 = 1 → b.vmask / 2 ^ v % 2 = 1) →
    Goes (.vamp o) s t f g (goesOn (.vamp o) f) (fun _ t' _ g' => GroupsOnly t t' ∧
      CountsOnly { g with mesh := { g.mesh with
        isOpen := true, buf := off, vmask := mask, vmax := fld o.w3 0 9, pmax := fld o.w3 9 9,
        nattr := fld o.w3 18 5, strict := bit o.w3 23, vovf := false, povf := false, covf := false, disc := 0,
        cull := 0 } } g')

/-- R399, R401: what `VOUT` and `POUT` emit: whether it is vertices, the lanes that name a place inside the meshlet, their
places, and their bytes. -/
def Sys2Proof.Claims.emission (i : Instr) (c : Ctx) (gc : GCtx) :
    Option (Bool × (Nat → Bool) × (Nat → Nat) × (Nat → List Byte)) :=
  let q := gc.g.mesh
  let n (l : Nat) : Nat := (c.srcB gc 1 l).toNat
  match i with
  | .vout o => some (true, fun l => decide (n l < q.vmax) && decide (fld o.w3 0 5 < 4 + q.nattr),
      fun l => q.buf + 4 * ((4 + q.nattr) * n l + fld o.w3 0 5), fun l => leBytes 4 (c.srcA gc 1 l).toNat)
  | .pout _ => some (false, fun l => decide (n l < q.pmax), fun l => q.buf + 4 * (4 + q.nattr) * q.vmax + 8 * n l,
      fun l => leBytes 4 (c.srcA gc 1 l).toNat ++ leBytes 4 (c.srcC gc 1 l).toNat)
  | _ => none

/-- R401: `VOUT` and `POUT` of an open meshlet: the words of the active lanes inside it are in the team's scratch; the lanes
outside, where the meshlet is not strict, are counted as discarded. -/
def Sys2Proof.Claims.EmissionCompletes : Prop :=
  ∀ (i : Instr) (s : State) (t : Team) (f : Frag) (g : Group) (m : Word) (vertex : Bool) (inside : Nat → Bool)
    (place : Nat → Nat) (bytes : Nat → List Byte), Issues i s t f g m →
    emission i (ctx i s t f) (gctx i g m) = some (vertex, inside, place, bytes) → active i g m ≠ 0 → g.mesh.isOpen = true →
    let out := maskOf (fun l => bit (active i g m) l && !inside l)
    let ok (l : Nat) : Prop := l < 32 ∧ bit (active i g m) l = true ∧ inside l = true
    (g.mesh.strict = true → out = 0) →
    Goes i s t f g (goesOn i f) (fun _ t' _ g' =>
      t' = { t with
        groups := t'.groups, frags := t'.frags, scr := t'.scr, scrW := t'.scrW, scrPoison := t'.scrPoison } ∧
      CountsOnly { g with mesh := { g.mesh with
        vovf := g.mesh.vovf || (vertex && out != 0), povf := g.mesh.povf || (!vertex && out != 0),
        disc := if out = 0 then g.mesh.disc else min (g.mesh.disc + popc out) 255 } } g' ∧
      (∀ l, ok l → (∀ k, ok k → k ≠ l → place k ≠ place l) → t'.scrRead (place l) (bytes l).length = bytes l) ∧
      ∀ b, (∀ l, ok l → ¬ (place l ≤ b ∧ b < place l + (bytes l).length)) → zget b t'.scr = zget b t.scr)

/-- R404: an instruction that issues a request of the intersection unit answers a next state: nothing outside the team has
changed, and one number has been given out. -/
def Sys2Proof.Claims.Requests (i : Instr) (s : State) (t : Team) (f : Frag) (g : Group) (r : Req)
    (mesh : Mesh) : Prop :=
  ∃ s' t' f' g', exec i s = .next s' ∧ Moved s t f g (goesOn i f) s' t' f' g' ∧
    t' = { t with groups := t'.groups, frags := t'.frags, reqs := t.reqs ++ [r] } ∧
    CountsOnly { g with mesh := mesh, inflight := g.inflight + 1 } g' ∧ s'.nextId = s.nextId + 1 ∧
    s' = { s with
      teams := s'.teams, cores := s'.cores, nextId := s'.nextId, cur := none, free := s.free + 1, out := [] } ∧
    (∀ c, s'.core c = { s.core c with
      last := (s'.core c).last, lastClk := (s'.core c).lastClk, nt := (s'.core c).nt, idle := (s'.core c).idle }) ∧
    ∀ k, k ≠ t.id → s'.team? k = s.team? k

/-- R402, R404: `MSETCNT` of an open meshlet, with counts inside it or clamped to it, and fewer than eight requests
outstanding: the meshlet closes and is handed over, without the primitives that are culled. -/
def Sys2Proof.Claims.MsetcntCompletes : Prop :=
  ∀ (o : XOps) (s : State) (t : Team) (f : Frag) (g : Group) (m : Word), Issues (.msetcnt o) s t f g m →
    let w : Word := ((ctx (.msetcnt o) s t f).groupA (gctx (.msetcnt o) g m) 1).setWidth 32
    let q := g.mesh
    let excess := decide (q.vmax < fld w 0 9) || decide (q.pmax < fld w 9 9)
    let nv := min (fld w 0 9) q.vmax
    let np := min (fld w 9 9) q.pmax
    let idx (p : Nat) : Word := t.scrWord (q.buf + 4 * (4 + q.nattr) * q.vmax + 8 * p)
    let view (p : Nat) : Word := t.scrWord (q.buf + 4 * (4 + q.nattr) * q.vmax + 8 * p + 4)
    let good (p : Nat) : Bool :=
      decide (fld (idx p) 0 8 < nv) && decide (fld (idx p) 8 8 < nv) && decide (fld (idx p) 16 8 < nv)
    let keep := (List.range np).filter (fun p => good p && view p != 0xFFFFFFFF)
    let q2 := { q with isOpen := false, covf := q.covf || excess, cull := np - keep.length }
    active (.msetcnt o) g m ≠ 0 → q.isOpen = true → (q.strict = true → excess = false ∧ ∀ p, p < np → good p = true) →
    g.inflight + g.qix.length < 8 →
    Requests (.msetcnt o) s t f g
      (.mesh s.nextId g.num q.buf q.vmask q.vmax (4 + q.nattr) keep (w32 (fld w 18 14)) (np - keep.length) q2.flags) q2

/-- R403: `MFLAG` writes the flag word of the group's meshlet in D of the active lanes, and clears what it has told where it is
asked to. -/
def Sys2Proof.Claims.MflagCompletes : Prop :=
  ∀ (i : Instr) (s : State) (t : Team) (f : Frag) (g : Group) (m : Word), Issues i s t f g m →
    (∃ o, i = .mflagShort o) ∨ (∃ o, i = .mflag o) → active i g m ≠ 0 →
    Goes i s t f g (goesOn i f) (fun _ t' _ g' => GroupsOnly t t' ∧
      RegsOnly { g with mesh := if bit (ops i).a 0 then
        { g.mesh with vovf := false, povf := false, covf := false, disc := 0, cull := 0 } else g.mesh } g' ∧
      LaneResult g g' (active i g m) (ops i).d.toNat 1 (fun _ => g.mesh.flags.setWidth 64))

/-- R400 to R403: the meshlet instructions complete.  The model's choices in it: log entries 37 and 68. -/
def Obligations.MeshletInstructionsComplete : Prop :=
  InactiveGroupsMovePast ∧ VampCompletes ∧ EmissionCompletes ∧ MsetcntCompletes ∧ MflagCompletes

/-- R405, R406: `TILEBIND` with a binding that is admitted replaces the team's binding, `TILEREL` removes it, where no
request of the team is in flight; else the group waits; TILEBIND_PROCEED ends the wait. -/
def Sys2Proof.Claims.BindingsComplete : Prop :=
  (∀ (i : Instr) (s : State) (t : Team) (f : Frag) (g : Group) (m : Word) (b : Option Binding)
    (w : Option (Word × Word × Word)), Issues i s t f g m → active i g m ≠ 0 →
    let x (p : Ctx → GCtx → Nat → Dword) : Word := (p (ctx i s t f) (gctx i g m) 1).setWidth 32
    ((∃ o, i = .tilebind o) ∧ w = some (x Ctx.groupA, x Ctx.groupB, x Ctx.groupC) ∧
      ∃ b', b = some b' ∧ s.bindingOf t (x Ctx.groupA) (x Ctx.groupB) (x Ctx.groupC) = .ok b') ∨
    ((∃ o, i = .tilerel o) ∧ w = none ∧ b = none) →
    (t.reqs = [] ∧ t.reqDone = [] → Goes i s t f g (goesOn i f) (fun _ t' _ g' => CountsOnly g g' ∧
      t' = { t with groups := t'.groups, frags := t'.frags, binding := b })) ∧
    (t.reqs ≠ [] ∨ t.reqDone ≠ [] → Goes i s t f g (waitsIn f (.tilebind w (after i f))) (fun _ t' _ g' =>
      WaitsOnly g g' ∧ GroupsOnly t t'))) ∧
  (∀ (s : State) (t : Team) (f : Frag) (g : Group) (m : Word) (w : Option (Word × Word × Word)) (next : Dword),
    s.team? t.id = some t → t.frag? f.id = some f → f.lanes = [(g.num, m)] → m ≠ 0 → t.group? g.num = some g →
    (s.core t.core).dbg.step = false → f.st = .tilebind w next → t.reqs = [] → t.reqDone = [] →
    ∃ s' t' f', exec (.tilebindProceed t.id f.id) s = .next s' ∧ s'.team? t.id = some t' ∧ t'.frag? f.id = some f' ∧
      f'.st = .ready ∧ f'.pc = next ∧ f'.lanes = f.lanes ∧ t'.group? g.num = some g.complete ∧
      (∀ k, k ≠ g.num → t'.group? k = t.group? k) ∧ (∀ k, k ≠ f.id → t'.frag? k = t.frag? k) ∧
      (w = none → t'.binding = none) ∧
      (∀ a b c, w = some (a, b, c) → ∃ x, t'.binding = some x ∧ x.base = a.toNat ∧ x.vmask = fld b 0 16 ∧
        x.strips = fld b 16 6 ∧ x.tx = fld c 0 8 ∧ x.ty = fld c 8 8 ∧ x.natt = fld c 16 3) ∧
      t' = { t with groups := t'.groups, frags := t'.frags, binding := t'.binding } ∧
      (∀ k, k ≠ t.id → s'.team? k = s.team? k) ∧ s' = { s with teams := s'.teams, free := s.free + 1, out := [] })

/-- R407, R408: `TILEDONE` of a tile in the team's scratch: its status, and, where the output takes it, the tile among those
the serialiser is to read. -/
def Sys2Proof.Claims.TiledoneCompletes : Prop :=
  ∀ (o : XOps) (s : State) (t : Team) (f : Frag) (g : Group) (m : Word), Issues (.tiledone o) s t f g m →
    let off := ((ctx (.tiledone o) s t f).groupA (gctx (.tiledone o) g m) 1).toNat
    let w : Word := ((ctx (.tiledone o) s t f).groupB (gctx (.tiledone o) g m) 1).setWidth 32
    let q := fld w 0 3
    let strip := fld w 3 5
    let d := s.dispd q
    let pos := 256 * fld w 16 8 + fld w 8 8
    let late := (kget 0 strip d.frame + 256 - fld w 24 8) % 256
    let takes := s.takesTiles q t.vi
    let taken := d.acc.any (fun e => e.strip == strip && e.pos == pos)
    let ok := takes && decide (fld w 24 8 = kget 0 strip d.frame % 256) && !taken
    active (.tiledone o) g m ≠ 0 → off % 64 = 0 → off + 4096 ≤ t.scrSize →
    (takes = true → strip < (s.disp q).nstrip ∧ fld w 8 8 < (s.disp q).wt ∧ fld w 16 8 < (s.disp q).ht ∧
      ((s.disp q).rows strip).1 ≤ fld w 16 8 ∧ fld w 16 8 < ((s.disp q).rows strip).2) →
    ∃ s' t' f' g', exec (.tiledone o) s = .next s' ∧ Moved s t f g (goesOn (.tiledone o) f) s' t' f' g' ∧
      RegsOnly g g' ∧
      LaneResult g g' (active (.tiledone o) g m) (ops (.tiledone o)).d.toNat 1 (fun _ => w64 (
        if takes = false then 4
        else if fld w 24 8 = kget 0 strip d.frame % 256 then (if taken then 2 else 0)
        else if 1 ≤ late ∧ late ≤ 128 then 1 else 3)) ∧
      t' = { t with groups := t'.groups, frags := t'.frags,
                    reads := if ok then t.reads ++ [(q, d.nextRead)] else t.reads } ∧
      s' = { s with
        teams := s'.teams, cores := s'.cores, dispds := s'.dispds, cur := none, free := s.free + 1, out := [] } ∧
      s'.dispd q = (if ok then { d with nextRead := d.nextRead + 1, acc := d.acc ++
        [{ strip := strip, pos := pos, team := t.id, offset := off, read := d.nextRead }] } else d) ∧
      (∀ k, k ≠ q → s'.dispd k = s.dispd k) ∧ ∀ k, k ≠ t.id → s'.team? k = s.team? k

/-- R405 to R408: tile bindings and hand-overs complete. -/
def Obligations.TileInstructionsComplete : Prop := BindingsComplete ∧ TiledoneCompletes

/-- R411: `RAYL` of a well-formed record that is not poisoned, with fewer than eight requests outstanding, issues a request
with the record; `RAYQ` with well-formed roots begins its traces with what the active lanes read now (R197), and the group
waits. -/
def Sys2Proof.Claims.RaysBegin : Prop :=
  (∀ (o : XOps) (s : State) (t : Team) (f : Frag) (g : Group) (m : Word), Issues (.rayl o) s t f g m →
    let off := ((ctx (.rayl o) s t f).groupA (gctx (.rayl o) g m) 1).toNat
    let tag : Word := ((ctx (.rayl o) s t f).groupB (gctx (.rayl o) g m) 1).setWidth 32
    let ws := bytesWords (t.scrRead off 128)
    active (.rayl o) g m ≠ 0 → off % 16 = 0 → off + 128 ≤ t.scrSize → t.scrPoisoned off 128 = false →
    rayMalformed ws = false →
    (bit (nth 0 ws 2) 0 = true → ∃ b, t.binding = some b ∧ b.vmask / 2 ^ fld (nth 0 ws 2) 4 4 % 2 = 1 ∧
      fld (nth 0 ws 2) 8 5 < b.strips) →
    g.inflight + g.qix.length < 8 →
    Requests (.rayl o) s t f g (.rays s.nextId g.num ws tag f.hm) g.mesh) ∧
  (∀ (o : XOps) (s : State) (t : Team) (f : Frag) (g : Group) (m : Word), Issues (.rayq o) s t f g m →
    active (.rayq o) g m ≠ 0 →
    (∀ l, l < 32 → bit (active (.rayq o) g m) l = true →
      let r := (ctx (.rayq o) s t f).srcB (gctx (.rayq o) g m) 2 l
      fld r 56 8 = 0 ∧ fld r 0 7 = 0) →
    let c := ctx (.rayq o) s t f
    let rays : List RayLane := (lanesOf (active (.rayq o) g m)).map (fun l =>
      { lane := 32 * g.num + l, root := c.srcB (gctx (.rayq o) g m) 2 l,
        ray := (List.range 8).map (fun k => g.reg (o.a.toNat + k) l) })
    Goes (.rayq o) s t f g (waitsIn f (.rayq (.rayq o) rays (after (.rayq o) f))) (fun _ t' _ g' =>
      WaitsOnly g g' ∧ GroupsOnly t t'))

/-- R404, R412, R439, R458: a request that is carried out stands done with its record, and its record joins `q.ix` of its
group when it completes; a record whose status is FAULT is counted for the VI. -/
def Sys2Proof.Claims.RequestsAreCarriedOut : Prop :=
  (∀ (s : State) (core req : Nat) (t : Team) (id g buf vmask vmax v : Nat) (prims : List Nat) (tag : Word)
    (culled : Nat) (flags : Word), s.team? t.id = some t →
    s.reqTeam core req = some (t, .mesh id g buf vmask vmax v prims tag culled flags) →
    ∃ s' t', exec (.meshletRaster core req) s = .next s' ∧ s'.team? t.id = some t' ∧
      t'.reqs = t.reqs.filter (fun r => r.id != id) ∧
      t'.reqDone = t.reqDone ++ [(id, g, ((now s).rasterMesh t buf vmask vmax v prims tag culled flags).2)] ∧
      t'.scr = ((now s).rasterMesh t buf vmask vmax v prims tag culled flags).1.scr ∧
      t' = { t with scr := t'.scr, scrW := t'.scrW, scrPoison := t'.scrPoison, reqs := t'.reqs, reqDone := t'.reqDone } ∧
      (∀ k, k ≠ t.id → s'.team? k = s.team? k) ∧ s' = { s with teams := s'.teams, free := s.free + 1, out := [] }) ∧
  (∀ (s : State) (core req : Nat) (t : Team) (id g : Nat) (ws : List Word) (tag : Word) (priv : Bool)
    (rec : List Word) (v : State), s.team? t.id = some t → s.reqTeam core req = some (t, .rays id g ws tag priv) →
    (now s).rayRequest t ws tag priv = some (rec, v) →
    ∃ s' t', exec (.rayRequestTrace core req) s = .next s' ∧ s'.team? t.id = some t' ∧
      t'.reqs = t.reqs.filter (fun r => r.id != id) ∧ t'.reqDone = t.reqDone ++ [(id, g, rec)] ∧
      t' = { t with scr := t'.scr, scrW := t'.scrW, scrPoison := t'.scrPoison, reqs := t'.reqs, reqDone := t'.reqDone } ∧
      (∀ k, k ≠ t.id → s'.team? k = s.team? k) ∧
      s' = { v with teams := s'.teams, mem := Memory.commit s.mem v.out, out := [] }) ∧
  (∀ (s : State) (core req : Nat) (t : Team) (g : Group) (rec : List Word), s.team? t.id = some t →
    s.teams.find? (fun e => e.2.core == core && e.2.reqDone.any (fun r => r.1 == req)) = some (t.id, t) →
    t.reqDone.find? (fun r => r.1 == req) = some (req, g.num, rec) → t.group? g.num = some g →
    ∃ s' t', exec (.intersectionRequestComplete core req) s = .next s' ∧ s'.team? t.id = some t' ∧
      t'.group? g.num = some { g with inflight := g.inflight - 1, qix := g.qix ++ [rec] } ∧
      (∀ k, k ≠ g.num → t'.group? k = t.group? k) ∧
      t' = { t with groups := t'.groups, reqDone := t.reqDone.filter (fun r => r.1 != req) } ∧
      (fld (nth 0 rec 0) 4 8 = 2 → s'.vid t.vi = { s.vid t.vi with
        efCount := min ((s.vid t.vi).efCount + 1) 0xFFFFFFFF, efLast := fld (nth 0 rec 0) 12 6 }) ∧
      (fld (nth 0 rec 0) 4 8 ≠ 2 → s'.vids = s.vids) ∧ (∀ k, k ≠ t.vi → s'.vid k = s.vid k) ∧
      (∀ k, k ≠ t.id → s'.team? k = s.team? k) ∧
      s' = { s with teams := s'.teams, vids := s'.vids, free := s.free + 1, out := [] })

/-- R58, R410: what the traces of lanes that met no translation cause leave: the words of a hit or of a miss, or the
address of poison. -/
def Sys2Proof.Claims.traced (l : List (Nat × Rd (Option (List Word)))) : List (Nat × Dword × Option (List Byte)) :=
  l.filterMap (fun e =>
    match e.2 with
    | .ok h => some (e.1, 0, some ((hitWords h).flatMap (fun w => leBytes 4 w.toNat)))
    | .fault _ a => some (e.1, a, none)
    | .hold => none)

/-- R58, R413, R414: RAYQ_TRACE_DONE: where a queue entry is free for the first read of each trace, no trace met a
translation cause and no watchpoint matches a read, the hits of the lanes that were active are pending for D to D + 3 (or
the report of poison), and the group goes on. -/
def Sys2Proof.Claims.RayqTracesFinish : Prop :=
  ∀ (s : State) (t : Team) (f : Frag) (g : Group) (m : Word) (o : XOps) (rays : List RayLane) (next : Dword)
    (l : List (Nat × Rd (Option (List Word)))) (v : State),
    s.team? t.id = some t → t.frag? f.id = some f → f.lanes = [(g.num, m)] → m ≠ 0 → t.group? g.num = some g →
    t.frags.find? (fun k => (match k.st with | .rayq _ _ _ => true | _ => false) &&
      k.lanes.any (fun e => e.1 == g.num)) = some f →
    (s.core t.core).dbg.step = false → f.st = .rayq (.rayq o) rays next → (∀ r ∈ rays, r.lane / 32 = g.num) →
    (∀ r ∈ rays, (now s).rootWaits t r.root g.hm = false) →
    rayqLanes t g o none rays (now s) = some (l, v) → (∀ e ∈ l, ∀ c a, e.2 = .fault c a → c = .poisonRead) →
    (now s).rayqWatched t g o rays = none →
    ∃ s' t' f', exec (.rayqTraceDone t.id g.num) s = .next s' ∧ s'.team? t.id = some t' ∧ GroupsOnly t t' ∧
      t'.frag? f.id = some f' ∧ f'.st = .ready ∧ f'.pc = next ∧ f'.lanes = f.lanes ∧
      t'.group? g.num = some { g.complete with
        pend := g.pend ++ (loadPend (traced l) (loadWords .b32 o.d.toNat)).toList } ∧
      l.map (fun e => e.1) = rays.map (fun r => r.lane % 32) ∧
      (∀ k, k ≠ g.num → t'.group? k = t.group? k) ∧ (∀ k, k ≠ f.id → t'.frag? k = t.frag? k) ∧
      (∀ k, k ≠ t.id → s'.team? k = s.team? k) ∧
      s' = { v with teams := s'.teams, mem := Memory.commit s.mem v.out, out := [] }

/-- R404, R411 to R414, R439: ray instructions begin, and requests and traces are carried out.  The model's choices in it: log
entries 40, 54, 63, 64 and 65. -/
def Obligations.RaysAndRequestsRun : Prop := RaysBegin ∧ RequestsAreCarriedOut ∧ RayqTracesFinish

/-- R416: what the lanes of a sampling read: four channels, or the address of poison. -/
def Sys2Proof.Claims.sampled (c : Ctx) (gc : GCtx) (n : Nat) (ls : List (Nat × SampleLane)) (u : State) :
    List (Nat × Dword × Option (List Byte)) × State :=
  ls.foldl (fun acc x =>
    let y := c.sampleRun gc x.1 x.2 acc.2
    match y.1 with
    | .ok ws => (acc.1 ++ [(x.1, 0, some ((ws.take n).flatMap (fun w => leBytes 4 w.toNat)))], y.2)
    | .error a => (acc.1 ++ [(x.1, a, none)], y.2)) ([], u)

/-- R415 to R417: `SAMPLE` and `SAMPLEV` complete where the descriptors and the texel reads of the active lanes pass their
checks: the channels are pending for D onwards, four of `SAMPLE` and one of `SAMPLEV`; where no texel lies in memory, nothing
outside the team changes.  The model's choices in it: log entries 36, 64 and 67. -/
def Obligations.SamplesComplete : Prop :=
  ∀ (i : Instr) (s : State) (t : Team) (f : Frag) (g : Group) (m : Word) (vol : Bool) (n : Nat)
    (ls : List (Nat × SampleLane)), Issues i s t f g m →
    ((∃ o, i = .sample o) ∧ vol = false ∧ n = 4) ∨ ((∃ o, i = .samplev o) ∧ vol = true ∧ n = 1) →
    (sees i s t f).sampleCheck vol (seen i g m) (begins i s t f) = (.ok ls (goesOn i f), begins i s t f) →
    let r := sampled (sees i s t f) (seen i g m) n ls (begins i s t f)
    ∃ s' t' f' g', exec i s = .next s' ∧ Moved s t f g (goesOn i f) s' t' f' g' ∧ GroupsOnly t t' ∧ PendOnly g g' ∧
      g'.pend = (loadPend r.1 (loadWords .b32 (ops i).d.toNat)).toList ∧
      s' = { sealStep s r.2 with teams := s'.teams } ∧ (∀ k, k ≠ t.id → s'.team? k = s.team? k) ∧
      ((∀ e ∈ ls, ∀ x ∈ e.2.reads, fld x.1 56 8 ≠ 0) → Outside s t s')

/-! ### Emissions, launches, `ICINV`, special registers, the splice (R200, R223 to R231, R418 to R425, R457) -/

/-- R418: an emission of a group: the offset and the bytes of its record, the node, and the depth there. -/
structure Sys2Proof.Claims.Emits (i : Instr) (s : State) (t : Team) (f : Frag) (g : Group) (m : Word) (r : Grid)
    (off len node : Nat) (n : Node) : Prop where
  place : off = fld (((ctx i s t f).groupA (gctx i g m) 1).setWidth 32 : Word) 0 20
  length : len = fld (((ctx i s t f).groupA (gctx i g m) 1).setWidth 32 : Word) 20 5
  names : node = fld (((ctx i s t f).groupA (gctx i g m) 1).setWidth 32 : Word) 25 6
  active : active i g m ≠ 0
  aligned : off % 16 = 0
  inside : off + 16 * len ≤ t.scrSize
  grid : s.grid? t.grid = some r
  graph : r.rc.graph = true
  target : r.nodes[node]? = some n
  edge : ∃ cur, r.nodes[t.node]? = some cur ∧ bit cur.succmask node = true
  size : len = n.rsz

/-- An instruction answers a next state in which its group has gone on, nothing of the machine has changed outside the team
but the deque of its core for a grid. -/
def Sys2Proof.Claims.Pushes (i : Instr) (s : State) (t : Team) (f : Frag) (g : Group)
    (deque : List (Nat × List (Nat × Nat × List Byte))) (Q : Group → Prop) : Prop :=
  ∃ s' t' f' g', exec i s = .next s' ∧ Moved s t f g (goesOn i f) s' t' f' g' ∧ GroupsOnly t t' ∧ Q g' ∧
    s' = { s with teams := s'.teams, cores := s'.cores, cur := none, free := s.free + 1, out := [] } ∧
    (∀ c, s'.core c = { s.core c with
      last := (s'.core c).last, lastClk := (s'.core c).lastClk, nt := (s'.core c).nt, idle := (s'.core c).idle,
      deque := if c = t.core then deque else (s.core c).deque }) ∧
    ∀ k, k ≠ t.id → s'.team? k = s.team? k

/-- R196, R418: the predicate D of the active lanes that `EMITQ` leaves pending. -/
def Sys2Proof.Claims.tells (i : Instr) (g : Group) (m : Word) (v : Bool) : List Pend :=
  [{ preds := (lanesOf (active i g m)).map (fun l => (32 * fld (ops i).d 0 3 + l, v)) }]

/-- R245, R418: `EMIT` and `EMITQ` of a record that passes its checks push it at the head of the core's deque; `EMITQ` tells
in predicate D, pending, whether it did: it does not where the depth or the room is exceeded. -/
def Sys2Proof.Claims.EmissionsComplete : Prop :=
  ∀ (i : Instr) (s : State) (t : Team) (f : Frag) (g : Group) (m : Word) (r : Grid) (off len node : Nat) (n : Node),
    Issues i s t f g m → Emits i s t f g m r off len node n →
    let depth := if node = t.node then t.depth + 1 else 0
    let ok := depth ≤ n.maxdepth ∧ s.dequeFull t.core r (16 * len) = false
    let k := (s.core t.core).deque
    let pushed := kset r.id ((node, depth, t.scrRead off (16 * len)) :: kget [] r.id k) k
    ((∃ o, i = .emitShort o) ∨ (∃ o, i = .emit o) → ok → t.scrPoisoned off (16 * len) = false →
      Pushes i s t f g pushed (fun g' => CountsOnly g g')) ∧
    ((∃ o, i = .emitqShort o) ∨ (∃ o, i = .emitq o) →
      (ok → t.scrPoisoned off (16 * len) = false →
        Pushes i s t f g pushed (fun g' => PendOnly g g' ∧ g'.pend = tells i g m true)) ∧
      (¬ ok → Pushes i s t f g k (fun g' => PendOnly g g' ∧ g'.pend = tells i g m false)))

/-- R204, R419: `LAUNCH` of a record in memory or scratch that can be read and is accepted: after the VI's buffered stores
are performed, its grid is pending. -/
def Sys2Proof.Claims.LaunchCompletes : Prop :=
  ∀ (i : Instr) (s : State) (t : Team) (f : Frag) (g : Group) (m : Word) (hits : List (Nat × Dword × Tgt))
    (bs : List Byte) (v w : State) (r : Grid), Issues i s t f g m →
    (∃ o, i = .launchShort o) ∨ (∃ o, i = .launch o) →
    let a := (sees i s t f).groupA (seen i g m) 2
    let u := (begins i s t f).drainVi t.core t.vi
    active i g m ≠ 0 → fld a 56 8 = 0 ∨ fld a 56 8 = 0xF0 → fld a 0 4 = 0 →
    (sees i s t f).locateAll (seen i g m) .load 16
      ((List.range 8).map (fun k => (lowBit 0 (active i g m), a + w64 (16 * k)))) u = (.ok hits (goesOn i f), u) →
    (sees i s t f).launchBytes (seen i g m) hits (u.drainVi t.core t.vi) = (.ok bs, v) →
    (v.grids.filter (fun e => e.2.vi == t.vi)).length < 64 → v.accept t.vi bs = (.ok r, w) →
    (∀ q, w.grid? r.id = some q → q.stopped = false) →
    ∃ s' t' f' g', exec i s = .next s' ∧ Moved s t f g (goesOn i f) s' t' f' g' ∧ GroupsOnly t t' ∧ CountsOnly g g' ∧
      s' = { sealStep s w with teams := s'.teams } ∧ (∀ k, k ≠ t.id → s'.team? k = s.team? k) ∧
      s'.grid? r.id = some r ∧ r.rc = recOf bs ∧ r.vi = t.vi ∧ r.part = s.partOf t.vi

/-- R200, R422: `ICINV` performs the VI's buffered stores; what its fragment fetches from then on was written before, and no
core of its partition keeps a line of the VI but for a fragment that issues from its loop buffer. -/
def Sys2Proof.Claims.IcinvCompletes : Prop :=
  ∀ (i : Instr) (s : State) (t : Team) (f : Frag) (g : Group) (m : Word), Issues i s t f g m →
    (∃ o, i = .icinvShort o) ∨ (∃ o, i = .icinv o) →
    ∃ s' t' f' g', exec i s = .next s' ∧ s'.team? t.id = some t' ∧ t'.frag? f.id = some f' ∧ f'.st = .ready ∧
      f'.pc = after i f ∧ f'.lanes = f.lanes ∧ f'.fmt = f.fmt ∧ f'.hm = f.hm ∧ f'.loop = none ∧ s.free < f'.fence ∧
      t'.group? g.num = some g' ∧ CountsOnly g g' ∧ (∀ k, k ≠ g.num → t'.group? k = t.group? k) ∧ GroupsOnly t t' ∧
      (∀ k u, k ≠ t.id → s.team? k = some u → ∃ u', s'.team? k = some u' ∧ u' = { u with frags := u'.frags } ∧
        (u.vi ≠ t.vi → u' = u)) ∧
      (∀ c ∈ s.partCores (s.partOf t.vi), ∀ l ∈ (s'.core c).icache, l.vi = t.vi → l.loopOnly = true) ∧
      (∀ c, c ∉ s.partCores (s.partOf t.vi) → (s'.core c).icache = (s.core c).icache) ∧
      s'.hub = s.hub ∧ s'.clock = s.clock ∧ s'.cur = none ∧
      ∀ a, Untouched s (buffered s t.core) a → Memory.read s'.mem a = Memory.read s.mem a

/-- R425, R455: `WRSR` of a value that its register admits, by a group with an active lane: `fmt` of its fragment, `sr.tagwin`
of its team, or a trap register of the group; without an active lane it does nothing. -/
def Sys2Proof.Claims.WrsrWrites : Prop :=
  ∀ (i : Instr) (s : State) (t : Team) (f : Frag) (g : Group) (m : Word), Issues i s t f g m →
    (∃ o, i = .wrsrShort o) ∨ (∃ o, i = .wrsr o) →
    let n := (ops i).d.toNat
    let v := (ctx i s t f).groupA (gctx i g m) (if sr64 n then 2 else 1)
    (active i g m = 0 → Goes i s t f g (goesOn i f) (fun _ t' _ g' => GroupsOnly t t' ∧ CountsOnly g g')) ∧
    (active i g m ≠ 0 → srRefuses t n v = none →
      (n = 0x13 → Goes i s t f g { goesOn i f with fmt := v.setWidth 32 }
        (fun _ t' _ g' => GroupsOnly t t' ∧ CountsOnly g g')) ∧
      (n = 0x0F → Goes i s t f g (goesOn i f) (fun _ t' _ g' => CountsOnly g g' ∧
        t' = { t with groups := t'.groups, frags := t'.frags, tagwin := v.setWidth 32 })) ∧
      (n ≠ 0x13 → n ≠ 0x0F → n ≠ 0x2A → Goes i s t f g (goesOn i f) (fun _ t' _ g' => GroupsOnly t t' ∧
        CountsOnly { g with tr :=
          if n = 0x23 then { g.tr with tresume := v }
          else if n = 0x28 then { g.tr with texec := v.setWidth 32 }
          else if n = 0x29 then { g.tr with tfmt := v.setWidth 32 }
          else if n = 0x2B then { g.tr with tsave0 := v }
          else if n = 0x2C then { g.tr with tsave1 := v }
          else if n = 0x2D then { g.tr with tsave2 := v }
          else if n = 0x2E then { g.tr with tsave3 := v }
          else if n = 0x2F then { g.tr with tnotice := v.setWidth 32 } else g.tr } g')))

/-- R457: `WRSR sr.tret` by a group with an active lane: 0 returns from handler mode to `sr.tresume`, with `exec` and `fmt` as
the trap registers hold them, unless the cause must end the team, where that address passes the check of a direct target,
whose A bit the check sets (R23); 1 ends the team; 2 halts the core at the instruction after it, so that the `WRSR` has
completed.  That the halt records the cause the handler was entered with is log entry 44. -/
def Sys2Proof.Claims.HandlerReturns : Prop :=
  ∀ (i : Instr) (s : State) (t : Team) (f : Frag) (g : Group) (m : Word), Issues i s t f g m →
    (∃ o, i = .wrsrShort o) ∨ (∃ o, i = .wrsr o) → (ops i).d.toNat = 0x2A → active i g m ≠ 0 →
    let v := (ctx i s t f).groupA (gctx i g m) 1
    let cause := Cause.ofCode (fld g.tr.tcause 0 6)
    (v = 0 → cause ≠ .watchdog → (cause = .uncorrectable → t.lost = false) →
      (∀ x ∈ t.frags, x.id ≠ f.id → x.hm = false ∨ ∀ e ∈ x.lanes, e.1 ≠ g.num) →
      TargetPasses (begins i s t f) t { f with hm := false } false false g.tr.tresume →
      ∃ s' t' f' g', exec i s = .next s' ∧
        Moved s t f g { pc := g.tr.tresume, fmt := g.tr.tfmt, hm := false } s' t' f' g' ∧
        Reaches s t (targetEntry (begins i s t f) t.vi false g.tr.tresume) s' ∧
        s' = { sealStep s ((begins i s t f).targetTouch t.vi false g.tr.tresume) with teams := s'.teams } ∧
        (∀ k, k ≠ t.id → s'.team? k = s.team? k) ∧ GroupsOnly t t' ∧
        g' = { g.perfAdd 0 1 with
          hm := false, exec := (g.exec &&& ~~~(m &&& g.alive)) ||| (g.tr.texec &&& (m &&& g.alive)),
          skip := g.tr.hwReg, wdog := 0, exempt := g.exempt - 1 }) ∧
    (v = 1 ∨ (v = 0 ∧ (cause = .watchdog ∨ (cause = .uncorrectable ∧ t.lost = true))) →
      ∃ s' t' f' g', exec i s = .next s' ∧ s'.team? t.id = some t' ∧ t'.frag? f.id = some f' ∧ f'.st = .stopped ∧
        t'.group? g.num = some g' ∧ g' = g.perfAdd 0 1 ∧ TeamEnds s s' t t' cause.code g.tr.taddr ∧ s'.mem = s.mem) ∧
    (v = 2 →
      ∃ s' t' f' g', exec i s = .next s' ∧ Moved s t f g { goesOn i f with st := .stopped } s' t' f' g' ∧
        GroupsOnly t t' ∧ CountsOnly { g with stop := some .tret } g' ∧
        CoreHalts s s' t g.num cause.code ∧ s'.mem = s.mem ∧ ∀ k, k ≠ t.id → s'.team? k = s.team? k)

/-- R418, R419, R422: emissions, launches and `ICINV` complete.  The model's choices in it: log entries 36, 49 and 54. -/
def Obligations.SystemInstructionsComplete : Prop := EmissionsComplete ∧ LaunchCompletes ∧ IcinvCompletes

/-- R425, R457: `WRSR` writes special registers, and the return from handler mode. -/
def Sys2Proof.Claims.SpecialRegistersWritten : Prop := WrsrWrites ∧ HandlerReturns

/-- R225: `SPLICE` and `SPLICE.REL` outside every region, of a successor that the grid has: the group arrives and waits. -/
def Sys2Proof.Claims.SpliceArrives : Prop :=
  ∀ (i : Instr) (s : State) (t : Team) (f : Frag) (g : Group) (m : Word) (rel : Bool) (r : Grid), Issues i s t f g m →
    (((∃ o, i = .spliceShort o) ∨ (∃ o, i = .splice o)) ∧ rel = false) ∨
    (((∃ o, i = .spliceRelShort o) ∨ (∃ o, i = .spliceRel o)) ∧ rel = true) →
    f.region = none → s.grid? t.grid = some r → fld (ops i).d 0 3 < r.succs.length →
    Goes i s t f g (waitsIn f (.splice (fld (ops i).d 0 3) rel)) (fun _ t' _ g' => WaitsOnly g g' ∧
      t' = { t with groups := t'.groups, frags := t'.frags,
                    splice := if t.splice = .none then .gathering else t.splice })

/-- R164, R226 to R231: the meeting of every group names one successor of a shape that fits, and the team drains; with nothing
left to complete, what the successor does not inherit is given up; and with the room it declares, the successor starts,
one fragment for each group at its entry, and reads of the VI's lines nothing that its core's L1 kept. -/
def Sys2Proof.Claims.SpliceRuns : Prop :=
  (∀ (s : State) (t : Team) (j : Nat) (rel : Bool) (x : Succ), s.team? t.id = some t → t.splice = .gathering →
    t.dead = false → t.st = .resident → t.groups ≠ [] →
    (∀ e ∈ t.groups, e.2.finished = false ∧ t.spliceAt e.1 = some (j, rel)) → s.successor t j = some x →
    t.shapeOk x = true →
    ∃ s', exec (.spliceMeetingComplete t.id) s = .next s' ∧
      s'.team? t.id = some { t with splice := .draining j rel } ∧ (∀ k, k ≠ t.id → s'.team? k = s.team? k) ∧
      s' = { s with teams := s'.teams, free := s.free + 1, out := [] }) ∧
  (∀ (s : State) (t : Team) (j : Nat) (rel : Bool) (x : Succ), s.team? t.id = some t → t.splice = .draining j rel →
    t.dead = false → (s.core t.core).dbg.halt = false → s.drained t = true → s.successor t j = some x →
    ∃ s' t', exec (.spliceDrainDone t.id) s = .next s' ∧ s'.team? t.id = some t' ∧ t' = t.scrub x j rel ∧
      t'.splice = .growing j rel ∧ t'.frags = [] ∧ t'.bars = [] ∧ t'.guards = [] ∧ t'.subs = [] ∧ t'.binding = none ∧
      (∀ a, a / 4096 < x.scrfirst ∨ x.scrfirst + x.scrcount ≤ a / 4096 →
        zget a t'.scr = 0) ∧
      (s'.core t.core).planes = (s.core t.core).planes.filter (fun p => p.2.owner != t.id) ∧
      (rel = false → (s'.core t.core).wbuf = (s.core t.core).wbuf ∧ s'.mem = s.mem) ∧
      (rel = true → ∀ e ∈ (s'.core t.core).wbuf, e.vi ≠ t.vi) ∧ ∀ k, k ≠ t.id → s'.team? k = s.team? k) ∧
  (∀ (s : State) (t : Team) (j : Nat) (rel : Bool) (x : Succ) (h : Hold), s.team? t.id = some t →
    t.splice = .growing j rel → t.dead = false → t.st = .resident → s.successor t j = some x →
    growTo (s.core t.core).split (((s.teamsOn t.core).filter (fun u => u.id != t.id)).map Team.hold) t.hold
      { x.demand with offs := t.offsets } = some h →
    ∃ s' t', exec (.spliceGrowthRetry t.id) s = .next s' ∧ s'.team? t.id = some t' ∧ t'.splice = .none ∧
      t'.kern = some j ∧ t'.lanes = x.tlanes ∧ t'.regsN = x.regs ∧
      (∀ q ∈ t'.frags, q.pc = x.entry ∧ q.st = .ready ∧ q.hm = false) ∧ t'.frags.length = groupsOf x.tlanes ∧
      t' = t.startSuccessor x j h ∧ (∀ k, k ≠ t.id → s'.team? k = s.team? k) ∧
      s'.core t.core = { s.core t.core with l1 := (s.core t.core).l1.filter (fun l => l.vi != t.vi) } ∧
      (∀ k, k ≠ t.core → s'.core k = s.core k) ∧
      s' = { s with teams := s'.teams, cores := s'.cores, free := s.free + 1, out := [] })

/-- R223 to R231: the splice of a team.  The model's choices in it: log entry 41. -/
def Obligations.SplicesRun : Prop := SpliceArrives ∧ SpliceRuns

/-- R423 to R425, R457: counters, the clock and special registers are read, and special registers written.  The model's
choices in it: log entries 42, 44, 45, 47 and 90. -/
def Obligations.SpecialRegistersAccessed : Prop := CounterReadsComplete ∧ SpecialRegistersWritten

/-! ### Issue selection and returning results (R58, R190, R197, R217, R218) -/

/-- An event row answers a next state in which, beside the fields that `v` changes, nothing of the machine has changed but
the count of free values. -/
def Sys2Proof.Claims.Turns (i : Instr) (s : State) (v : State → State) : Prop :=
  exec i s = .next (v { s with free := s.free + 1, out := [] })

/-- R190, R217, R218: WAY_ISSUE_SELECT: a way that has not selected in this clk selects a READY fragment of its core that no
candidate precedes under the keys of R218; the others age. -/
def Sys2Proof.Claims.WaySelects : Prop :=
  ∀ (s : State) (core way : Nat) (t : Team) (f : Frag), s.cur = none →
    kfind way (s.core core).lastClk ≠ some s.clock.clk → s.selected core way = some (t, f) →
    (t, f) ∈ s.candidates core way ∧ f.st = .ready ∧ f.way = way ∧ t.core = core ∧
    (∀ c ∈ s.candidates core way, keysLt (s.selectKeys core way (s.candidates core way) c)
      (s.selectKeys core way (s.candidates core way) (t, f)) = false) ∧
    ∃ s', exec (.wayIssueSelect core way) s = .next s' ∧ s'.cur = some { team := t.id, frag := f.id } ∧
      kfind way (s'.core core).lastClk = some s.clock.clk ∧
      s' = { s with teams := s'.teams, cores := s'.cores, cur := s'.cur, free := s.free + 1, out := [] } ∧
      (∀ k, k ≠ core → s'.core k = s.core k) ∧
      (∀ c q, s.candidates core way = [(t, f), c] → s.team? c.1.id = some c.1 → c.1.id ≠ t.id →
        c.1.frag? c.2.id = some c.2 → (s'.team? c.1.id).bind (fun u => u.frag? c.2.id) = some q →
        q = { c.2 with starve := c.2.starve + 1 })

/-- R217: FRAGMENT_PROMOTE: a fragment whose count has reached 256 is promoted. -/
def Sys2Proof.Claims.FragmentsArePromoted : Prop :=
  ∀ (s : State) (t : Team) (f : Frag), s.team? t.id = some t → t.frag? f.id = some f → 256 ≤ f.starve →
    ∃ s' t', exec (.fragmentPromote t.id f.id) s = .next s' ∧ s'.team? t.id = some t' ∧
      t' = { t with frags := t'.frags } ∧ t'.frag? f.id = some { f with promoted := true } ∧
      (∀ k, k ≠ f.id → t'.frag? k = t.frag? k) ∧ (∀ k, k ≠ t.id → s'.team? k = s.team? k) ∧
      s' = { s with teams := s'.teams, free := s.free + 1, out := [] }

/-- R58, R71, R197: LOAD_RETURN: the results of a pending operation that met no poison are written, of a store to part of a
register that part, and the operation is no longer pending. -/
def Sys2Proof.Claims.ResultsReturn : Prop :=
  ∀ (s : State) (t : Team) (g : Group) (p : Pend) (rest : List Pend), s.team? t.id = some t →
    t.group? g.num = some g → g.pend = p :: rest → p.poison = none → (p.regs.map (fun e => e.1)).Nodup →
    (p.part.map (fun e => e.1)).Nodup → (∀ e ∈ p.regs, ∀ q ∈ p.part, e.1 ≠ q.1) →
    ∃ s' t' g', exec (.loadReturn t.id g.num) s = .next s' ∧ s'.team? t.id = some t' ∧ t' = { t with groups := t'.groups } ∧
      t'.group? g.num = some g' ∧ g'.pend = rest ∧
      (∀ e ∈ p.regs, g'.reg (e.1 / 32) (e.1 % 32) = e.2) ∧
      (∀ q ∈ p.part, g'.reg (q.1 / 32) (q.1 % 32) = putPart (g.reg (q.1 / 32) (q.1 % 32)) q.2) ∧
      (∀ r l, l < 32 → (∀ e ∈ p.regs, e.1 ≠ 32 * r + l) → (∀ q ∈ p.part, q.1 ≠ 32 * r + l) → g'.reg r l = g.reg r l) ∧
      (∀ k, (∀ e ∈ p.scal, e.1 ≠ k) → g'.scalar k = g.scalar k) ∧
      g' = { g with regs := g'.regs, bound := g'.bound, regPoison := g'.regPoison, preds := g'.preds, scal := g'.scal,
                    pend := rest } ∧
      (∀ k, k ≠ g.num → t'.group? k = t.group? k) ∧ (∀ k, k ≠ t.id → s'.team? k = s.team? k) ∧
      s' = { s with teams := s'.teams, free := s.free + 1, out := [] }

/-- R58, R217, R218: selection, promotion, and results that return.  The model's choices in it: log entries 11, 36,
108 and 112. -/
def Obligations.IssueEventsRun : Prop := WaySelects ∧ FragmentsArePromoted ∧ ResultsReturn

/-! ### The memory side (R24, R28, R38, R44 to R46, R113, R118, R122, R126, R173 to R175) -/

/-- R107, R120, R173, R174: WRITE_BUFFER_DRAIN performs the oldest store of a buffer at its home, or, where the queues of the
older ones are full, the oldest that is not to the line of one of them; HOME_ACCESS_PERFORM the oldest store of a slice that
no earlier store to its line precedes; each where the queue of the home has a free entry. -/
def Sys2Proof.Claims.StoresReachTheirHomes : Prop :=
  (∀ (s : State) (core : Nat) (e : WbEnt) (b r : List WbEnt), (s.core core).wbuf = b ++ e :: r →
    (∀ x ∈ b, s.wbFull x = true ∧ x.pa / 128 ≠ e.pa / 128) → s.wbFull e = false →
    ∃ s', exec (.writeBufferDrain core) s = .next s' ∧ (s'.core core).wbuf = b ++ r ∧
      (∀ k, k < e.bytes.length → Memory.read s'.mem (e.pa + k) = nth 0 e.bytes k) ∧
      (∀ a, Untouched s [(e.pa, e.bytes.length, e.tag)] a → Memory.read s'.mem a = Memory.read s.mem a) ∧
      (∀ k, k ≠ core → (s'.core k).wbuf = (s.core k).wbuf) ∧ s'.teams = s.teams ∧ s'.hub = s.hub) ∧
  (∀ (s : State) (slice core : Nat) (e : WbEnt) (b r : List WbEnt),
    (s.cores.filterMap (fun x => (wbNext (fun w => s.home w.pa (s.partOf w.vi) == slice && !s.wbFull w) x.2.wbuf []).map
      (fun y => (x.1, y)))).head? = some (core, b, e, r) →
    ∃ s', exec (.homeAccessPerform slice) s = .next s' ∧ (s'.core core).wbuf = b ++ r ∧
      (∀ k, k < e.bytes.length → Memory.read s'.mem (e.pa + k) = nth 0 e.bytes k) ∧
      (∀ a, Untouched s [(e.pa, e.bytes.length, e.tag)] a → Memory.read s'.mem a = Memory.read s.mem a) ∧
      (∀ k, k ≠ core → (s'.core k).wbuf = (s.core k).wbuf) ∧ s'.teams = s.teams ∧ s'.hub = s.hub)

/-- R24 to R26, R122 to R124, R175: a walk's entries are cached, a block of a compressed page that one of a slice's four decoders
has decoded is installed line by line (a line whose set a later one of the block takes again may have left, R105), an invalid block is
given up, a probe takes its line: none of them changes memory. -/
def Sys2Proof.Claims.CachesFillAndEmpty : Prop :=
  (∀ (s : State) (core vi : Nat) (addr e : Dword) (lvl ea : Nat) (seen : List (Nat × (Nat × Dword))),
    let root := fld (s.vi vi).troot 13 35 * 8192
    fld addr 56 8 = 0 → bit (s.vi vi).troot 0 = true → (isNear root || isFar root) = true →
    fld addr 0 56 / 2 ^ fld (s.vi vi).cfg 0 6 = 0 → s.migrating ea = false →
    (now s).walk vi (fld addr 0 56) .prefetch (bit (s.vi vi).troot 1) (fld (s.vi vi).troot 52 12) [0, 1, 2, 3] root [] =
      .ok (e, lvl, ea, seen) →
    ∃ s', exec (.translationWalk core vi addr) s = .next s' ∧
      (s'.vid vi).tlb = (s.vid vi).tlb ++ seen.filter (fun e => !(s.vid vi).tlb.contains e) ∧
      (∀ k, k ≠ vi → s'.vid k = s.vid k) ∧ s' = { s with vids := s'.vids, side := s'.side, free := s.free + 1, out := [] }) ∧
  (∀ (s : State) (vi i : Nat) (addr : Dword) (d : Decode),
    findIdx (fun d => d.vi == vi && d.addr.toNat / 4096 == addr.toNat / 4096) s.side.decodes 0 = some (i, d) →
    ((s.side.decodes.take i).filter (fun e => e.slice == d.slice)).length < 4 →
    let left := s.side.decodes.take i ++ s.side.decodes.drop (i + 1)
    (d.bytes = none →
      Turns (.blockDecodeComplete vi addr) s (fun u => { u with side := { s.side with decodes := left } })) ∧
    (∀ bs, d.bytes = some bs → ∃ s', exec (.blockDecodeComplete vi addr) s = .next s' ∧ s'.side.decodes = left ∧
      (∀ j, j < 32 → (∀ k, j < k → k < 32 →
          SLine.setOf d.pack (some (32 * d.block + k)) ≠ SLine.setOf d.pack (some (32 * d.block + j))) →
        ∃ l ∈ s'.slice d.slice, l.vi = d.vi ∧ l.line = d.pack ∧
          l.dec = some (32 * d.block + j, (bs.drop (128 * j)).take 128)) ∧
      (∀ k, s'.core k = { s.core k with probes := (s'.core k).probes }) ∧
      s' = { s with side := s'.side, cores := s'.cores, free := s.free + 1, out := [] })) ∧
  (∀ (s : State) (core line : Nat) (r : List Nat), (s.core core).probes = line :: r →
    Turns (.invalidationProbe core) s (fun u => { u with
      cores := kset core { s.core core with probes := r, l1 := (s.core core).l1.filter (fun l => l.line != line) }
        s.cores }))

/-- R126: SC_TICKET_GRANT: up to four of the requests that wait are granted, with consecutive tickets, and the next clk begins
with the next die. -/
def Sys2Proof.Claims.TicketsAreGranted : Prop :=
  ∀ (s : State), ∃ s', exec .scTicketGrant s = .next s' ∧ s'.tickDie = (s.tickDie + 1) % 4 ∧
    s'.tickReq.length ≤ s.tickReq.length ∧ s.tickReq.length ≤ s'.tickReq.length + 4 ∧
    s'.ticket = s.ticket + w64 (s.tickReq.length - s'.tickReq.length) ∧ (∀ r ∈ s'.tickReq, r ∈ s.tickReq) ∧
    (s.tickReq ≠ [] → (∀ r ∈ s.tickReq, r.die < 4) → s'.tickReq.length < s.tickReq.length) ∧
    s'.hub = s.hub ∧ s'.clock = s.clock ∧
    (s.tickReq = [] → s' = { s with tickDie := s'.tickDie, free := s.free + 1, out := [] })

/-- R125, R127, R174: the operation of a `.sc` atomic is performed when its ticket is granted: here the last one that its
home group waits for, on bytes of memory that stand under the page's key pair and are not poisoned, with no buffered
store of the core to the line: the old value is pending as the instruction asks, and the new one is in memory. -/
def Sys2Proof.Claims.TicketsPerform : Prop :=
  ∀ (s : State) (t : Team) (g : Group) (w : ScWait) (o : TixOp) (die home core vi pa cls : Nat) (tag : KTag) (alloc : Bool),
    s.tickReq = [{ die := die, home := home, team := t.id, core := core, groups := [g.num], op := some o }] → die < 4 →
    o.place = .glob vi pa tag cls alloc → s.team? t.id = some t → t.group? g.num = some g → g.sc = some w → w.left = 1 →
    w.res = [] → s.poisoned pa o.size = false → (∀ k, k < o.size → zget ((pa + k) / 64) s.tags = tag) →
    (∀ e ∈ (s.core core).wbuf, e.pa / 128 ≠ pa / 128) →
    let old := (List.range o.size).map (fun k => Memory.read s.mem (pa + k))
    let new := (atomWrite o.aop o.ty o.b o.c (leNat old)).elim old (leBytes o.size)
    let p : Option Pend := w.dst.bind (fun d => loadPend [(o.lane, o.addr, some old)] (loadWords d.1 d.2))
    ∃ s' t', exec .scTicketGrant s = .next s' ∧ s'.tickReq = [] ∧ s'.ticket = s.ticket + 1 ∧
      (∀ k, k < o.size → Memory.read s'.mem (pa + k) = nth 0 new k) ∧
      (∀ a, a < pa ∨ pa + o.size ≤ a → Memory.read s'.mem a = Memory.read s.mem a) ∧
      s'.team? t.id = some t' ∧ t' = { t with groups := t'.groups } ∧
      t'.group? g.num = some { g with sc := none, pend := g.pend ++ p.toList } ∧
      (∀ k, k ≠ g.num → t'.group? k = t.group? k) ∧ (∀ k, k ≠ t.id → s'.team? k = s.team? k) ∧
      (w.wide = true → ∀ l ∈ (s'.core core).l1, l.vi ≠ t.vi)

/-- R44 to R46, R102, R117: SLICE_FILL takes a miss whose memory port has a free entry: the request joins the port's queue,
the line stands in the slice, and the fill is counted only while counting is enabled; HOT_COUNTER_INCREMENT raises the
counter of a frame by one, up to 255, with a request at a port; HOT_HALVE_DONE ends a sweep that has passed every
counter. -/
def Sys2Proof.Claims.FramesAreCounted : Prop :=
  (∀ (s : State) (slice i : Nat) (addr : Dword) (f : Fill),
    findIdx (fun e => e.slice == slice && e.line == addr.toNat) s.side.fillPend 0 = some (i, f) →
    (now s).portFull ((now s).portOf f.line) f.cls = false →
    let port := (now s).portOf f.line
    let off := 0x200 + 32 * port + 8 * f.cls
    let n := if f.packUnits = 0 then f.units % 2 + f.units / 2 else f.packUnits
    ∃ s', exec (.sliceFill slice addr) s = .next s' ∧
      s'.side.fillPend = s.side.fillPend.take i ++ s.side.fillPend.drop (i + 1) ∧
      (s'.side.hotPend = s.side.hotPend ∨
        bit s.hub.hotCtl 0 = true ∧ f.counted = true ∧
          s'.side.hotPend = s.side.hotPend ++ [(slice, f.line / 65536)]) ∧
      (∃ more, (s'.bucket (144 + port) f.cls off).waits = (s.bucket (144 + port) f.cls off).waits ++ 64 * n :: more) ∧
      (f.packUnits = 0 → ∃ l ∈ s'.slice slice, l.isLine f.vi f.line = true ∧
        ∃ v, l.valid = v ||| unitSectors f.units) ∧
      (∀ k, s'.core k = { s.core k with probes := (s'.core k).probes }) ∧
      s' = { s with side := s'.side, cores := s'.cores, free := s.free + 1, out := [] }) ∧
  (∀ (s : State) (slice i : Nat) (e : Nat × Nat), findIdx (fun e => e.1 == slice) s.side.hotPend 0 = some (i, e) →
    (now s).portFull ((now s).portOf (hotAddr (65536 * e.2))) 3 = false →
    ∃ s', exec (.hotCounterIncrement slice) s = .next s' ∧
      (Memory.read s'.mem (hotAddr (65536 * e.2))).toNat =
        min ((Memory.read s.mem (hotAddr (65536 * e.2))).toNat + 1) 255 ∧
      (∀ a, a ≠ hotAddr (65536 * e.2) → Memory.read s'.mem a = Memory.read s.mem a) ∧
      s'.side = { s.side with
        hotPend := s.side.hotPend.take i ++ s.side.hotPend.drop (i + 1), buckets := s'.side.buckets } ∧
      s' = { s with side := s'.side, mem := s'.mem, free := s.free + 1, out := [] }) ∧
  (∀ (s : State), s.sweep = some 5632 → Turns .hotHalveDone s (fun u => { u with sweep := none }))

/-- R118, R119: TOKEN_BUCKET_ADMIT: a class refills up to its depth; where its balance covers the oldest request, the request
is admitted and paid for; and of what has been admitted, the capacity of the queue is served, the classes in the order
deadline, system, compute, copy. -/
def Sys2Proof.Claims.BucketsAdmit : Prop :=
  ∀ (s : State) (queue : Nat), ∃ s', exec (.tokenBucketAdmit queue) s = .next s' ∧
    (∀ c, c < 4 →
      let off := tbOffset queue c
      let depth := fld (s.tbReg off) 16 20
      let bal := min (16 * depth) ((s.bucket queue c off).bal + fld (s.tbReg off) 0 16)
      (s'.bucket queue c off).bal ≤ 16 * depth ∧
      ((s.bucket queue c off).waits = [] → (s'.bucket queue c off).bal = bal ∧ (s'.bucket queue c off).waits = []) ∧
      ∀ cost rest, (s.bucket queue c off).waits = cost :: rest → 0 < depth → 16 * cost ≤ bal →
        (s'.bucket queue c off).bal = bal - 16 * cost ∧ (s'.bucket queue c off).waits = rest) ∧
    (let had (c : Nat) : Nat := (s.bucket queue c (tbOffset queue c)).admitted.sum +
        ((s.bucket queue c (tbOffset queue c)).waits.sum - (s'.bucket queue c (tbOffset queue c)).waits.sum)
     let left (c : Nat) : Nat := (s'.bucket queue c (tbOffset queue c)).admitted.sum
     left 0 + left 3 + left 1 + left 2 + min (capacityOf queue) (had 0 + had 3 + had 1 + had 2) =
       had 0 + had 3 + had 1 + had 2 ∧
     (left 0 ≠ 0 → left 3 = had 3) ∧ (left 0 ≠ 0 ∨ left 3 ≠ 0 → left 1 = had 1) ∧
     (left 0 ≠ 0 ∨ left 3 ≠ 0 ∨ left 1 ≠ 0 → left 2 = had 2)) ∧
    s'.side = { s.side with buckets := s'.side.buckets } ∧ s' = { s with side := s'.side, free := s.free + 1, out := [] }

/-- R28, R38, R113: VI_INVAL_COMPLETE leaves no cached entry of the VI for the range, no decoded line of it, and clears BUSY;
KEY_EMPTY_DONE leaves no line under the key pair of the slot, and empties the slot; PART_GEOM_APPLY_DONE leaves no line of
the partition, and gives it its new member list: each performs the stores that it concerns, once no ticketed operation
that it concerns waits. -/
def Sys2Proof.Claims.InvalidationsComplete : Prop :=
  (∀ (s : State) (vi : Nat), bit (s.vi vi).inval 0 = true → (∀ r ∈ s.tickReq, r.ofVi vi = false) →
    let n := fld (s.vi vi).inval 1 2
    let size := 2 ^ (16 + 10 * n)
    let lo := if n = 3 then 0 else fld (s.vi vi).inval 16 40 * 65536 / size * size
    let hi := if n = 3 then 2 ^ 56 else lo + size
    ∃ s', exec (.viInvalComplete vi) s = .next s' ∧ (s'.vi vi).inval = (s.vi vi).inval &&& ~~~1 ∧
      (∀ e, e ∈ (s'.vid vi).tlb ↔ e ∈ (s.vid vi).tlb ∧ tlbMeets e.1 lo hi = false) ∧
      (∀ h, ∀ l ∈ s'.slice h, l.vi = vi → l.dec = none) ∧ (∀ d ∈ s'.side.decodes, d.vi ≠ vi) ∧
      (∀ c, ∀ l ∈ (s'.core c).l1, l.vi = vi → l.line < 2 ^ 48) ∧
      (∀ c, ∀ e ∈ (s'.core c).wbuf, e.vi ≠ vi) ∧ s'.teams = s.teams ∧
      (∀ k, k ≠ vi → s'.vi k = s.vi k)) ∧
  (∀ (s : State) (slot : Nat) (k : KeySlot), kfind slot s.hub.keys = some k → k.emptying = true →
    (∀ r ∈ s.tickReq, r.underKey (s.slotTag slot) = false) →
    ∃ s', exec (.keyEmptyDone slot) s = .next s' ∧ kfind slot s'.hub.keys = none ∧
      (∀ n, n ≠ slot → kfind n s'.hub.keys = kfind n s.hub.keys) ∧
      (∀ c, (∀ e ∈ (s'.core c).wbuf, e.tag ≠ s.slotTag slot) ∧ ∀ l ∈ (s'.core c).l1, l.key ≠ s.slotTag slot) ∧
      (∀ h, ∀ l ∈ s'.slice h, l.key ≠ s.slotTag slot) ∧ (∀ d ∈ s'.side.decodes, d.key ≠ s.slotTag slot) ∧
      s'.teams = s.teams ∧
      (s.hub.door = true → s.arg 0 1 = 0x11 → s.arg 2 2 = slot → s'.hub.door = false ∧ s'.hub.result = 0)) ∧
  (∀ (s : State) (p : Nat), (s.partd p).busy = true →
    ∃ s', exec (.partGeomApplyDone p) s = .next s' ∧ (s'.part p).geom = (s.partd p).newGeom ∧
      (s'.partd p).busy = false ∧ (∀ c, ∀ l ∈ (s'.core c).l1, s.partOf l.vi ≠ p) ∧
      (∀ c, ∀ e ∈ (s'.core c).wbuf, s.partOf e.vi ≠ p) ∧ (∀ h, ∀ l ∈ s'.slice h, s.partOf l.vi ≠ p) ∧
      (∀ k, k ≠ p → s'.part k = s.part k ∧ s'.partd k = s.partd k) ∧ s'.teams = s.teams)

/-- R24 to R28, R44 to R46, R113 to R126, R173 to R175: what the memory side does of itself.  The model's choices in it: log
entries 7, 19, 21 to 25, 27, 92, 99 and 102 to 105. -/
def Obligations.MemorySideEventsRun : Prop :=
  StoresReachTheirHomes ∧ CachesFillAndEmpty ∧ TicketsAreGranted ∧ TicketsPerform ∧ FramesAreCounted ∧ BucketsAdmit ∧
    InvalidationsComplete

/-- R104, R105: where a line that its slice does not hold is filled, it goes into the lowest way of its set that holds no
line; else, of a full set, into the lowest way marked evict-first, else the lowest not used, else, with every use mark of
the set cleared, way 0.  Which set a line has is the model's choice: log entry 102. -/
def Obligations.SlicesReplaceLines : Prop :=
  ∀ (s : State) (slice i : Nat) (addr : Dword) (f : Fill),
    findIdx (fun e => e.slice == slice && e.line == addr.toNat) s.side.fillPend 0 = some (i, f) →
    (now s).portFull ((now s).portOf f.line) f.cls = false → f.packUnits = 0 →
    (∀ l ∈ s.slice slice, l.line = f.line → l.dec.isSome) →
    let set := SLine.setOf f.line none
    let ls := (s.slice slice).filter (fun l => l.set == set)
    let others (w : Nat) := (s.slice slice).filter (fun l => !(l.set == set && l.way == w))
    let new (w : Nat) : SLine := { vi := f.vi, line := f.line, set := set, way := w, valid := unitSectors f.units,
                                   dirty := f.dirty, evict := f.evict, used := true, key := f.key }
    let holds (w : Nat) (p : SLine → Bool) : Prop := ∃ l ∈ ls, l.way = w ∧ p l = true
    let lowest (w : Nat) (p : SLine → Bool) : Prop := holds w p ∧ ∀ l ∈ ls, p l = true → w ≤ l.way
    let full : Prop := ∀ w, w < 16 → holds w (fun _ => true)
    ∃ s', exec (.sliceFill slice addr) s = .next s' ∧
      (∀ h, h ≠ slice → s'.slice h = s.slice h) ∧
      (∀ w, w < 16 → ¬ holds w (fun _ => true) → (∀ v, v < w → holds v (fun _ => true)) →
        s'.slice slice = new w :: others w) ∧
      (full → ∀ w, lowest w (fun l => l.evict) → s'.slice slice = new w :: others w) ∧
      (full → (∀ l ∈ ls, l.evict = false) → ∀ w, lowest w (fun l => !l.used) → s'.slice slice = new w :: others w) ∧
      (full → (∀ l ∈ ls, l.evict = false ∧ l.used = true) →
        s'.slice slice = new 0 :: (others 0).map (fun l => if l.set = set then { l with used := false } else l))

/-! ### Writes of control registers (R10, R27, R45, R52, R63, R103, R113, R116, R203, R204, R219, R429, R461, R477) -/

/-- R27, R45, R52, R63, R103, R113, R116: the checked writes of the memory side, in a module that is READY. -/
def Sys2Proof.Claims.MemoryRegistersWritten : Prop :=
  (∀ (s : State) (vi : Nat) (v : Dword), s.hub.phase = 3 → vi < 64 →
    ∃ s', exec (.viInval vi v) s = .next s' ∧
      (s'.vi vi) = { s.vi vi with
        inval := if bit (s.vi vi).inval 0 then (s.vi vi).inval else v &&& 0x00FFFFFFFFFF0007 } ∧
      (∀ k, k ≠ vi → s'.vi k = s.vi k) ∧
      s' = { s with hub := { s.hub with vis := s'.hub.vis }, free := s.free + 1, out := [] }) ∧
  (∀ (s : State) (v : Dword), s.hub.phase = 3 → Turns (.hotHalve v) s (fun u =>
    { u with hub := { s.hub with hotCtl := v &&& 0x1F }, sweep := if bit v 8 && s.sweep.isNone then some 0 else s.sweep })) ∧
  (∀ (s : State) (core : Nat) (v : Dword), s.hub.phase = 3 → core < 144 →
    (∀ e ∈ s.teams, e.2.core = core → e.2.st = .saved) → fld v 0 6 ≤ 32 → 1 ≤ fld v 6 6 → fld v 6 6 ≤ 43 →
    fld v 12 2 ≤ 2 → 64 * fld v 0 6 + 16 * fld v 6 6 * (4 + fld v 12 2) ≤ 2752 →
    ∃ s', exec (.stSplitWrite core v) s = .next s' ∧ (s'.core core).split = v &&& 0x3FFF ∧ (s'.core core).l1 = [] ∧
      (s'.core core).wbuf = [] ∧ (∀ k, k ≠ core → (s'.core k).split = (s.core k).split) ∧ s'.teams = s.teams) ∧
  (∀ (s : State) (p : Nat) (v : Dword), s.hub.phase = 3 → p < 64 → (s.partd p).busy = false → s.partBusy p = false →
    geomOk (v &&& 0xFF07FFFF) = true →
    (∀ q, q < 64 → q ≠ p → geomMeets (v &&& 0xFF07FFFF) (s.part q).geom = false ∧ (s.partd q).busy = false) →
    ∃ s', exec (.partGeomWrite p v) s = .next s' ∧ (s'.part p).geom = (s.part p).geom ||| 0x80000 ∧
      (s'.partd p).busy = true ∧ (s'.partd p).newGeom = v &&& 0xFF07FFFF ∧
      (∀ k, k ≠ p → s'.part k = s.part k ∧ s'.partd k = s.partd k) ∧ s'.teams = s.teams ∧ s'.mem = s.mem) ∧
  (∀ (s : State) (vi n : Nat) (limit : Bool) (v : Dword), s.hub.phase = 3 → vi < 64 → n < 8 →
    let base := if limit then zget n (s.vi vi).pbase else v &&& 0xFFFFFFFF0001
    let lim := if limit then v &&& 0xFFFFFFFF0000 else zget n (s.vi vi).plimit
    bit base 0 = false ∨
      (∀ e ∈ s.hub.vis, s.partOf e.1 = s.partOf vi) ∧ (∀ e ∈ s.partds, e.1 ≠ s.partOf vi → e.2.busy = false) →
    ∃ s', exec (.viPrangeWrite vi n limit v) s = .next s' ∧ zget n (s'.vi vi).pbase = base ∧
      zget n (s'.vi vi).plimit = lim ∧
      (∀ k, k ≠ n → zget k (s'.vi vi).pbase = zget k (s.vi vi).pbase ∧
        zget k (s'.vi vi).plimit = zget k (s.vi vi).plimit) ∧
      (∀ k, k ≠ vi → s'.vi k = s.vi k) ∧
      s' = { s with hub := { s.hub with vis := s'.hub.vis }, free := s.free + 1, out := [] }) ∧
  (∀ (s : State) (vi : Nat) (v : Dword), s.hub.phase = 3 → vi < 64 →
    ∃ s', exec (.viCfgWrite vi v) s = .next s' ∧
      (s'.vi vi).cfg = setFld (v &&& 0x7FFFF7F) 0 6
        (if 40 ≤ fld v 0 6 ∧ fld v 0 6 ≤ 56 then fld v 0 6 else fld (s.vi vi).cfg 0 6) ∧
      (∀ k, k ≠ vi → s'.vi k = s.vi k) ∧
      (bit (s.vi vi).cfg 6 = false ∨ bit v 6 = true →
        s' = { s with hub := { s.hub with vis := s'.hub.vis }, free := s.free + 1, out := [] }) ∧
      (bit (s.vi vi).cfg 6 = true → bit v 6 = false → ∀ id g, s.grid? id = some g → g.vi = vi →
        ∃ g', s'.grid? id = some g' ∧ g'.ended = true)) ∧
  (∀ (s : State) (off : Nat) (v : Dword), s.hub.phase = 3 → off % 8 = 0 →
    (0x100 ≤ off ∧ off < 0x120) ∨ (0x200 ≤ off ∧ off < 0x400) →
    ∃ s', exec (.tbWrite off v) s = .next s' ∧ s'.tbReg off = v &&& 0x1FFFFFFFFF ∧
      (∀ k, k ≠ off → s'.tbReg k = s.tbReg k) ∧
      s'.side = { s.side with buckets := s'.side.buckets } ∧
      s' = { s with hub := { s.hub with tb := s'.hub.tb }, side := s'.side, free := s.free + 1, out := [] })

/-- R203, R204, R219, R429, R461, R477, R483: writes that enable or drive queues, rings, outputs, cores and mailboxes. -/
def Sys2Proof.Claims.QueueRegistersWritten : Prop :=
  (∀ (s : State) (vi : Nat) (v : Dword), s.hub.phase = 3 → vi < 64 →
    let d := s.vid vi
    ∃ s', exec (.lqCfgWrite vi v) s = .next s' ∧
      (bit v 0 = true → bit d.lqCfg 0 = false → (s'.vid vi).lqHead = d.lqTail ∧ bit (s'.vid vi).lqCfg 0 = true ∧
        fld (s'.vid vi).lqCfg 1 4 = if 12 < fld v 1 4 then fld d.lqCfg 1 4 else fld v 1 4) ∧
      (bit v 0 = true → bit d.lqCfg 0 = true → s'.vid vi = { d with lqCfg := setFld d.lqCfg 1 4 (fld d.lqCfg 1 4) }) ∧
      (bit v 0 = false → bit (s'.vid vi).lqCfg 0 = false ∧ fld (s'.vid vi).lqCfg 8 4 = 0) ∧
      (s'.vid vi) = { d with lqCfg := (s'.vid vi).lqCfg, lqHead := (s'.vid vi).lqHead } ∧
      (∀ k, k ≠ vi → s'.vid k = s.vid k) ∧ s' = { s with vids := s'.vids, free := s.free + 1, out := [] }) ∧
  (∀ (s : State) (vi : Nat) (v : Dword), s.hub.phase = 3 → vi < 64 → s.hostWaits = true →
    Turns (.lqTailWrite vi v) s (fun u => { u with held := u.held ++ [.tail vi 0x410 v] }) ∧
    Turns (.peerTailWrite vi v) s (fun u => { u with held := u.held ++ [.tail vi 0x710 v] })) ∧
  (∀ (s : State) (vi : Nat) (v : Dword), s.hub.phase = 3 → vi < 64 → s.hostWaits = false →
    let d := s.vid vi
    let excess := bit d.lqCfg 0 && !bit d.lqCfg 8 &&
      decide (2 ^ fld d.lqCfg 1 4 < ((v.setWidth 32 : Word) - d.lqHead).toNat)
    ∃ s', exec (.lqTailWrite vi v) s = .next s' ∧ (s'.vid vi).lqTail = v.setWidth 32 ∧
      (excess = false → s'.vid vi = { d with lqTail := v.setWidth 32 }) ∧
      (excess = true → bit (s'.vid vi).lqCfg 8 = true ∧ fld (s'.vid vi).lqCfg 9 3 = 1) ∧
      (∀ k, k ≠ vi → s'.vid k = s.vid k) ∧ s' = { s with vids := s'.vids, free := s.free + 1, out := [] }) ∧
  (∀ (s : State) (vi k : Nat) (v : Dword), s.hub.phase = 3 → vi < 64 → k < 4 →
    let r := (s.vid vi).ring k
    ∃ s', exec (.evCfgWrite vi k v) s = .next s' ∧
      (s'.vid vi).ring k = { (if bit v 0 && !bit r.cfg 0 then
          { r with tail := 0, head := 0, lost := 0 } else r) with
        cfg := setFld (mergeMask (maskBits 64 0 29) r.cfg v) 1 4 (if bit r.cfg 0 then fld r.cfg 1 4 else fld v 1 4) } ∧
      (∀ n, n ≠ k → (s'.vid vi).ring n = (s.vid vi).ring n) ∧ (∀ n, n ≠ vi → s'.vid n = s.vid n) ∧
      s' = { s with vids := s'.vids, free := s.free + 1, out := [] }) ∧
  (∀ (s : State) (vi : Nat) (v : Dword), s.hub.phase = 3 → vi < 64 → s.hostWaits = false →
    ∃ s', exec (.peerTailWrite vi v) s = .next s' ∧ s'.vid vi = { s.vid vi with peerTail := v.setWidth 32 } ∧
      (∀ n, n ≠ vi → s'.vid n = s.vid n) ∧ s' = { s with vids := s'.vids, free := s.free + 1, out := [] }) ∧
  (∀ (s : State) (off size : Nat) (v : Dword), s.hub.phase = 3 →
    let v' := off / 16
    ∃ s', exec (.gazeMailboxWrite off size v) s = .next s' ∧
      (size = 8 → off % 16 = 0 → off < 256 → (s.view v').en = true →
        s'.view v' = { s.view v' with gaze := v } ∧ s'.hub.gzDrop = s.hub.gzDrop ∧
        ∀ k, k ≠ v' → s'.view k = s.view k) ∧
      (¬ (size = 8 ∧ off % 16 = 0 ∧ off < 256 ∧ (s.view v').en = true) →
        s'.hub.gzDrop = (s.hub.gzDrop + 1) % 2 ^ 32 ∧ s'.hub.views = s.hub.views) ∧
      s' = { s with hub := { s.hub with views := s'.hub.views, gzDrop := s'.hub.gzDrop }, free := s.free + 1,
                    out := [] })

/-- R10: a write of a register has no effect before the module is READY; here of some registers of each block that take what
is written. -/
def Sys2Proof.Claims.RegistersWritten : Prop :=
  (∀ (s : State) (b : RegBlock) (off : Nat) (v : Dword), s.hub.phase ≠ 3 →
    Turns (.registerWrite b off v) s (fun u => u)) ∧
  (∀ (s : State) (vi : Nat) (v : Dword), s.hub.phase = 3 → vi < 64 →
    let wrote (off : Nat) (c : ViCfg) : Prop :=
      ∃ s', exec (.registerWrite (.vi vi) off v) s = .next s' ∧ s'.vi vi = c ∧ (∀ k, k ≠ vi → s'.vi k = s.vi k) ∧
        s' = { s with hub := { s.hub with vis := s'.hub.vis }, free := s.free + 1, out := [] }
    let c := s.vi vi
    wrote 0x008 { c with troot := v &&& 0xFFF0FFFFFFFFE003 } ∧ wrote 0x600 { c with trapCfg := v &&& 3 } ∧
    wrote 0x608 { c with trapEntry := v &&& 0xFFFFFFFFFFFFFC } ∧ wrote 0x610 { c with trapMask := v } ∧
    wrote 0x618 { c with dbgHalt := v } ∧ wrote 0x620 { c with wdog := v &&& 0xFFFF }) ∧
  (∀ (s : State) (core : Nat) (v : Dword), s.hub.phase = 3 → core < 144 → 1 ≤ fld v 0 5 → fld v 0 5 ≤ 16 →
    Turns (.registerWrite (.core core) 0x060 v) s (fun u => { u with
      cores := kset core { s.core core with cadence := fld v 0 5, cadClk := some s.clock.clk } s.cores })) ∧
  (∀ (s : State) (v : Dword), s.hub.phase = 3 → fld v 0 16 ≤ 1900 →
    Turns (.registerWrite .power 0x100 v) s (fun u => { u with hub := { s.hub with pwrCfg := v &&& 0x1FFFFF } })) ∧
  (∀ (s : State) (v : Dword), s.hub.phase = 3 → s.hub.door = false → bit v 0 = true →
    Turns (.registerWrite .ngaskaset 0x100 v) s (fun u => { u with hub := { s.hub with door := true } }))

/-- R10, R27, R45, R52, R63, R103, R113, R116, R203, R204, R219, R477, R483: writes of control registers.  The model's choices
in it: log entries 27, 28, 29, 72, 100 and 115. -/
def Obligations.ControlWritesTakeEffect : Prop := MemoryRegistersWritten ∧ QueueRegistersWritten ∧ RegistersWritten

/-! ### Launch queues, grids and event rings (R204, R207, R219 to R222) -/

/-- R204: LAUNCH_RECORD_CONSUME: an enabled queue of an enabled VI that holds a record, has no error and has fewer than 64
grids pending: the record at HEAD is read and HEAD moves on; where it cannot be read, the queue stops with an error. -/
def Sys2Proof.Claims.RecordsAreConsumed : Prop :=
  ∀ (s : State) (vi : Nat),
    let d := s.vid vi
    let a := fld d.lqBase 7 49 * 128 + 128 * (d.lqHead.toNat % 2 ^ fld d.lqCfg 1 4)
    bit d.lqCfg 0 = true → bit d.lqCfg 8 = false → bit (s.vi vi).cfg 6 = true → d.lqHead ≠ d.lqTail →
    d.consumed = none → (s.grids.filter (fun e => e.2.vi == vi)).length < 64 →
    (∀ b u, (now s).distRead vi a 16 = (.ok b, u) →
      ∃ s', exec (.launchRecordConsume vi) s = .next s' ∧ (s'.vid vi).consumed = some b ∧
        (s'.vid vi).lqHead = d.lqHead + 1 ∧ (s'.vid vi).lqTail = d.lqTail ∧ s'.teams = s.teams ∧ s'.grids = s.grids ∧
        s'.hub = s.hub) ∧
    (∀ c u, (now s).distRead vi a 16 = (.fault c, u) →
      ∃ s', exec (.launchRecordConsume vi) s = .next s' ∧ (s'.vid vi).consumed = none ∧
        (s'.vid vi).lqHead = d.lqHead ∧ bit (s'.vid vi).lqCfg 8 = true ∧ fld (s'.vid vi).lqCfg 9 3 = 2 ∧
        s'.teams = s.teams ∧ s'.grids = s.grids ∧ s'.hub = s.hub)

/-- R207: GRID_ACCEPT: a record that passes its checks becomes a pending grid of its VI; one that does not leaves a completion
record with its status. -/
def Sys2Proof.Claims.GridsAreAccepted : Prop :=
  (∀ (s : State) (vi : Nat) (b : List Byte) (g : Grid) (u : State), (s.vid vi).consumed = some b →
    (now s).accept vi b = (.ok g, u) → (∀ q, u.grid? g.id = some q → q.stopped = false) →
    ∃ s', exec (.gridAccept vi) s = .next s' ∧ (s'.vid vi).consumed = none ∧ s'.grid? g.id = some g ∧
      g.id = s.nextId ∧ g.vi = vi ∧ g.rc = recOf b ∧ s'.teams = s.teams ∧ s'.hub = s.hub ∧
      (∀ k, k ≠ g.id → s'.grid? k = s.grid? k)) ∧
  (∀ (s : State) (vi : Nat) (b : List Byte) (st : Nat) (u : State), (s.vid vi).consumed = some b →
    (now s).accept vi b = (.refuse st, u) →
    ∃ s', exec (.gridAccept vi) s = .next s' ∧ (s'.vid vi).consumed = none ∧ s'.grids = s.grids ∧ s'.teams = s.teams ∧
      (∃ e ∈ (s'.vid vi).events, e.ring = (recOf b).ring ∧ e.kind = 1 ∧ e.time = s.clock.ns ∧
        e.body.take 4 = leBytes 4 (recOf b).launchid ∧ nth 0 e.body 5 = BitVec.ofNat 8 st))

/-- R221, R222: EVENT_RECORD_WRITE writes the oldest record of a ring that is enabled, has room and owes no interrupt, with its
PHASE bit, in the slot of TAIL, and TAIL moves on. -/
def Sys2Proof.Claims.RecordsAreWritten : Prop :=
  ∀ (s : State) (vi k i : Nat) (e : EvRec) (u : State),
    let r := (s.vid vi).ring k
    let n := fld r.cfg 1 4
    let phase : Nat := if r.tail.toNat / 2 ^ n % 2 = 0 then 0x80 else 0
    bit r.cfg 0 = true → (r.tail - r.head).toNat < 2 ^ n →
    findIdx (fun e => e.ring == k) (s.vid vi).events 0 = some (i, e) →
    fld r.cfg 5 8 = 0 ∨ r.since < fld r.cfg 5 8 →
    (now s).agentWrite { vi := vi, cls := 3 } (w64 (fld r.base 5 51 * 32 + 32 * (r.tail.toNat % 2 ^ n)))
      (leBytes 8 e.time ++ (e.body.take 7 ++ leBytes 1 phase ++ e.body.drop 8)) = (.ok (), u) →
    ∃ s', exec (.eventRecordWrite vi k) s = .next s' ∧ ((s'.vid vi).ring k).tail = r.tail + 1 ∧
      ((s'.vid vi).ring k).head = r.head ∧ ((s'.vid vi).ring k).lost = r.lost ∧
      ((s'.vid vi).ring k).since = r.since + 1 ∧
      (s'.vid vi).events = (s.vid vi).events.take i ++ (s.vid vi).events.drop (i + 1) ∧
      (∀ g, e.grid = some g → s'.grid? g = none) ∧ (e.grid = none → s'.grids = s.grids) ∧
      s'.mem = Memory.commit s.mem u.out ∧ s'.hub = s.hub ∧ s'.cores = u.cores

/-- R222: EVENT_RING_COUNT_INTERRUPT and EVENT_RING_TIME_INTERRUPT: an interrupt of the ring's vector, once its threshold is
reached; the count starts anew. -/
def Sys2Proof.Claims.RingsInterrupt : Prop :=
  ∀ (s : State) (vi k : Nat) (i : Instr),
    let r := (s.vid vi).ring k
    (i = .eventRingCountInterrupt vi k ∧ fld r.cfg 5 8 ≠ 0 ∧ fld r.cfg 5 8 ≤ r.since) ∨
    (i = .eventRingTimeInterrupt vi k ∧ fld r.cfg 13 16 ≠ 0 ∧
      ∃ o, r.oldest = some o ∧ o + 1000 * fld r.cfg 13 16 ≤ s.clock.ns) →
    ∃ s', exec i s = .next s' ∧ s'.hub.irqs = (4 * vi + k) :: s.hub.irqs ∧
      (s'.vid vi).ring k = { r with since := 0, oldest := none } ∧
      (∀ n, n ≠ vi → s'.vid n = s.vid n) ∧
      s' = { s with vids := s'.vids, hub := { s.hub with irqs := s'.hub.irqs }, free := s.free + 1, out := [] }

/-- R204, R207, R221, R222: launch queues, grids and event rings.  The model's choices in it: log entries 51, 82 and
100. -/
def Obligations.QueuesAndRingsRun : Prop :=
  RecordsAreConsumed ∧ GridsAreAccepted ∧ RecordsAreWritten ∧ RingsInterrupt

/-! ### The life of a team (R206, R209 to R215, R238, R244, R246, R459, R460) -/

/-- R206, R212: TEAM_PLACE of a partition whose only grid is no braid, no graph and no cluster, and has a team that waits: where
a core holds it, the team starts there, every group at the grid's entry with its lanes. -/
def Sys2Proof.Claims.TeamsArePlaced : Prop :=
  ∀ (s : State) (g : Grid) (o : Nat) (h : Hold), s.grids = [(g.id, g)] → (s.partd g.part).evicting = none →
    g.rc.braid = false → g.rc.graph = false → g.rc.clusterSize ≤ 1 → s.head g = [{ idx := g.nextIdx, saved := none }] →
    s.headPlace g [{ idx := g.nextIdx, saved := none }] = some (o, [(o, h)]) →
    ∃ s' t, exec (.teamPlace g.part) s = .next s' ∧ s'.team? s.nextId = some t ∧ t.core = o ∧ t.grid = g.id ∧ t.vi = g.vi ∧
      t.index = g.nextIdx ∧ t.lanes = g.rc.tlanes ∧ t.regsN = g.rc.regs ∧ t.st = .resident ∧
      t.frags.length = groupsOf g.rc.tlanes ∧
      (∀ q ∈ t.frags, q.pc = g.rc.entry ∧ q.st = .ready ∧ q.fmt = 0 ∧ q.hm = false ∧
        q.lanes = [(q.id, startLanes g.rc.tlanes q.id)]) ∧
      (∀ q ∈ t.groups, q.2.regs = [] ∧ q.2.exec = startLanes g.rc.tlanes q.1 ∧ q.2.exited = 0) ∧ t.scr = [] ∧
      s'.grid? g.id = some { g with headSince := none, nextIdx := g.nextIdx + 1 } ∧ s'.nextId = s.nextId + 1 ∧
      (∀ k, k ≠ s.nextId → s'.team? k = s.team? k) ∧ s'.mem = s.mem ∧ s'.hub = s.hub

/-- R215: EVICTION: where a head has waited long enough and a candidate qualifies, the teams chosen are to be saved, and what
they hold on the candidate's cores is kept for the head. -/
def Sys2Proof.Claims.TeamsAreEvicted : Prop :=
  ∀ (s : State) (g : Grid) (o c : Nat) (us : List EvictUnit) (x : Item) (rest : List Item), s.grids = [(g.id, g)] →
    (s.partd g.part).evicting = none → s.head g = x :: rest → g.headSince = some (x.idx, c) →
    (g.rc.deadline = true ∨ c + fld (s.part g.part).quantum 0 32 ≤ s.clock.clk) → s.headPlace g (s.head g) = none →
    s.evictPlan g (s.head g) = some (o, us) →
    let ts := us.flatMap (fun u => u.1)
    let cores := (itemCores g (s.head g) o).map (fun e => e.2)
    let room := (ts.filterMap s.team?).filterMap (fun t : Team => if cores.contains t.core then some (t.id, t.core, t.hold) else none)
    ∃ s', exec (.eviction g.part) s = .next s' ∧
      (∀ k t, s.team? k = some t → s'.team? k = some (if k ∈ ts then { t with st := .saving } else t)) ∧
      (s'.partd g.part).evicting = some { grid := g.id, items := s.head g, teams := ts, origin := o, room := room } ∧
      (s'.partd g.part).evict = ((s.partd g.part).evict + 1) % 2 ^ 32 ∧
      s' = { s with teams := s'.teams, partds := s'.partds, free := s.free + 1, out := [] }

/-- R459, R460: PREEMPT_SAVE_COMPLETE: a team with nothing at work that a save must wait for, whose execution state is not
lost, leaves its core: it keeps what it holds, and its results that were pending are written; its commands and planes are
saved with it. -/
def Sys2Proof.Claims.TeamsAreSaved : Prop :=
  ∀ (s : State) (t : Team), s.team? t.id = some t → t.st = .saving → t.dead = false → t.lost = false → s.saveReady t = true →
    Unguarded { s with cores := kset t.core { s.core t.core with
      qmx := (s.core t.core).qmx.filter (fun x => x.team != t.id),
      qcp := (s.core t.core).qcp.filter (fun x => x.team != t.id) } s.cores } t.core →
    ∃ s' t', exec (.preemptSaveComplete t.id) s = .next s' ∧ s'.team? t.id = some t' ∧ t'.st = .saved ∧
      t'.resid = t.resid + (s.clock.clk - t.since) ∧ t'.scr = t.scr ∧ t'.acc = t.acc ∧ t'.bars = t.bars ∧
      t'.guards = t.guards ∧ t'.regions = t.regions ∧ t'.frags.map (fun f => (f.pc, f.lanes)) =
        t.frags.map (fun f => (f.pc, f.lanes)) ∧
      (∀ e ∈ t.groups, ∃ e' ∈ t'.groups, e'.1 = e.1 ∧ (e.2.pend = [] → e'.2.regs = e.2.regs ∧ e'.2.exec = e.2.exec)) ∧
      (∀ x ∈ (s.core t.core).qmx, x.team = t.id → (0, x) ∈ t'.saved) ∧
      (∀ x ∈ (s'.core t.core).qmx ++ (s'.core t.core).qcp ++ (s'.core t.core).started, x.team ≠ t.id) ∧
      (∀ e ∈ (s'.core t.core).wbuf, e.vi ≠ t.vi) ∧ (∀ k, k ≠ t.id → s'.team? k = s.team? k)

/-- R238, R452: TEAM_RETIRE: a team of an ordinary grid that is not its last, with nothing left to do, leaves, and its grid
counts it; the VI's buffered stores have been performed. -/
def Sys2Proof.Claims.TeamsRetire : Prop :=
  ∀ (s : State) (t : Team) (g : Grid), s.team? t.id = some t → s.grid? t.grid = some g → g.id = t.grid →
    g.rc.braid = false → g.rc.graph = false → g.stopped = false → g.retired + 1 < g.rc.teams → s.retireReady t = true →
    Unguarded s t.core →
    ∃ s', exec (.teamRetire t.id) s = .next s' ∧ s'.team? t.id = none ∧
      s'.grid? g.id = some { g with retired := g.retired + 1 } ∧ (∀ k, k ≠ t.id → s'.team? k = s.team? k) ∧
      (∀ e ∈ (s'.core t.core).wbuf, e.vi ≠ t.vi) ∧ (∀ p ∈ (s'.core t.core).planes, p.2.owner ≠ t.id) ∧
      (∀ a, Untouched s (buffered s t.core) a → Memory.read s'.mem a = Memory.read s.mem a) ∧ s'.hub = s.hub

/-- R166, R244, R246: GRAPH_TEAM_START makes a team of the record at the head of a deque, with the record in its scratch; a core
with an empty deque takes the record at the tail of its victim's, once the VI's buffered stores there are performed, and
tries again 64 clk later at the earliest. -/
def Sys2Proof.Claims.GraphTeamsStart : Prop :=
  (∀ (s : State) (core gid node depth : Nat) (g : Grid) (bytes : List Byte) (rest : List (Nat × Nat × List Byte))
    (h : Hold) (n : Node), s.grid? gid = some g → g.id = gid →
    kget [] gid (s.core core).deque = (node, depth, bytes) :: rest → s.gridHeld g = false →
    core ∈ s.partCores g.part → s.graphFits core g = some h → g.nodes[node]? = some n →
    ∃ s' t, exec (.graphTeamStart core gid) s = .next s' ∧ s'.team? s.nextId = some t ∧ t.core = core ∧ t.grid = gid ∧
      t.node = node ∧ t.depth = depth ∧ (∀ q ∈ t.frags, q.pc = n.entry ∧ q.st = .ready) ∧
      t.scrRead 0 bytes.length = bytes ∧ kget [] gid (s'.core core).deque = rest ∧
      s'.grid? gid = some { g with nextIdx := g.nextIdx + 1 } ∧ (∀ k, k ≠ s.nextId → s'.team? k = s.team? k) ∧
      s'.mem = s.mem) ∧
  (∀ (s : State) (core gid self : Nat) (g : Grid) (l : List (Nat × Nat × List Byte)) (r : Nat × Nat × List Byte)
    (h : Hold), s.grid? gid = some g → findIdx (fun c => c == core) (s.partCores g.part) 0 = some (self, core) →
    g.rc.graph = true → s.gridHeld g = false → kget [] gid (s.core core).deque = [] → s.graphFits core g = some h →
    let a := kget (0, 0) gid (s.core core).steal
    let victim := nth 0 (s.partCores g.part) ((self + 1 + a.1 * g.step) % (s.partCores g.part).length)
    a.2 ≤ s.clock.clk → 1 < (s.partCores g.part).length → victim ≠ core →
    kget [] gid (s.core victim).deque = l ++ [r] →
    ∃ s', exec (.stealAttempt core gid) s = .next s' ∧ kget [] gid (s'.core core).deque = [r] ∧
      kget [] gid (s'.core victim).deque = l ∧ (s'.core core).steal = kset gid (0, s.clock.clk + 64) (s.core core).steal ∧
      (∀ e ∈ (s'.core victim).wbuf, e.vi ≠ g.vi) ∧
      (∀ k, k ≠ core → k ≠ victim → s'.core k = { s.core k with probes := (s'.core k).probes }) ∧
      (∀ a, Untouched s (buffered s victim) a → Memory.read s'.mem a = Memory.read s.mem a) ∧
      s' = { s with cores := s'.cores, mem := s'.mem, tags := s'.tags, memPoison := s'.memPoison, side := s'.side,
                    free := s.free + 1, out := [] })

/-- R206 to R215, R238, R244, R246, R459: the life of a team.  The model's choices in it: log entries 41, 48, 49, 50, 51, 87
and 101.
-/
def Obligations.TeamsComeAndGo : Prop :=
  TeamsArePlaced ∧ TeamsAreEvicted ∧ TeamsAreSaved ∧ TeamsRetire ∧ GraphTeamsStart

/-! ### Outputs: their registers, the link, latches, deadlines (R408, R409, R429 to R435, R446, R447) -/

/-- R429, R430, R431, R434, R435, R436: DISP_CFG_WRITE of an output that is off writes its fields, and an enable of fields in their
ranges also starts the output anew, where a strip keeps its snapshots unless a latch of it passes silently; one out of range is ignored as a whole; of one that is on, only EN changes, and where it is cleared, the grids that
wait for a latch of the output are not released any more. -/
def Sys2Proof.Claims.OutputsAreConfigured : Prop :=
  ∀ (s : State) (o : Nat) (v : Dword), s.hub.phase = 3 → o < 8 →
    let d := s.disp o
    let c := v &&& 0xFFFF7FFFFFF7
    let sound := 1 ≤ fld c 4 8 ∧ 1 ≤ fld c 12 8 ∧ 1 ≤ fld c 20 6 ∧ fld c 20 6 ≤ 32 ∧ fld c 12 8 % fld c 20 6 = 0 ∧
      128 ≤ fld c 40 8 ∧ fld c 40 8 ≤ 192 ∧ 100000 ≤ fld d.time 0 32 / fld c 20 6 ∧
      fld d.time 32 32 < fld d.time 0 32 / fld c 20 6
    (bit d.cfg 0 = false → bit c 0 = false →
      Turns (.dispCfgWrite o v) s (fun u => u.modDisp o (fun d => { d with cfg := c }))) ∧
    (bit d.cfg 0 = false → bit c 0 = true → ¬ sound → Turns (.dispCfgWrite o v) s (fun u => u)) ∧
    let p := fld d.time 0 32 / fld c 20 6
    let kept := (s.dispd o).snap.filter (fun e => decide (fld c 26 5 * p ≤ e.1 % 32 * p))
    (bit d.cfg 0 = false → bit c 0 = true → sound →
      ∃ s', exec (.dispCfgWrite o v) s = .next s' ∧ (s'.disp o).cfg = c ∧ (s'.disp o).time = d.time ∧
        (s'.dispd o).t0 = (if (s.dispd o).link then some s.clock.ns else none) ∧ (s'.dispd o).lates = 0 ∧
        (s'.dispd o).acc = [] ∧ (s'.dispd o).snap = (if (s.dispd o).link then kept else (s.dispd o).snap) ∧
        (s'.dispd o).store = [] ∧
        (∀ k, k ≠ o → s'.disp k = s.disp k ∧ s'.dispd k = s.dispd k) ∧
        s' = { s with hub := { s.hub with disps := s'.hub.disps }, dispds := s'.dispds, teams := s'.teams,
                      free := s.free + 1, out := [] }) ∧
    (bit d.cfg 0 = true → c >>> 1 ≠ d.cfg >>> 1 → Turns (.dispCfgWrite o v) s (fun u => u)) ∧
    (bit d.cfg 0 = true → c >>> 1 = d.cfg >>> 1 →
      ∃ s', exec (.dispCfgWrite o v) s = .next s' ∧ (s'.disp o).cfg = c ∧ (s'.disp o).time = d.time ∧
        s'.dispd o = (if bit c 0 then { s.dispd o with lates := 0 } else s.dispd o) ∧
        (∀ k, k ≠ o → s'.disp k = s.disp k ∧ s'.dispd k = s.dispd k) ∧
        (∀ k g, s.grid? k = some g → s'.grid? k = some (
          if bit c 0 = false ∧ g.latchHeld = true ∧ g.rc.latchOut = o then { g with latchLost := true } else g)) ∧
        s' = { s with hub := { s.hub with disps := s'.hub.disps }, dispds := s'.dispds, grids := s'.grids,
                      free := s.free + 1, out := [] })

/-- R431, R432, R434, R435: a link that is trained carries its rate and its lanes, and starts the timing of an output that is on
and has none, where a strip of which a latch passes silently loses its snapshots; a link that is lost reads so. -/
def Sys2Proof.Claims.LinksTrain : Prop :=
  ∀ (s : State) (o : Nat), o < 8 →
    let d := s.disp o
    let p := fld d.time 0 32 / fld d.cfg 20 6
    let starts := bit d.cfg 0 = true ∧ (s.dispd o).t0 = none
    let kept := (s.dispd o).snap.filter (fun e => decide (fld d.cfg 26 5 * p ≤ e.1 % 32 * p))
    (∀ rate lanes, rate ≤ 2 → lanes ≤ 2 →
      ∃ s', exec (.linkTrained o rate lanes) s = .next s' ∧ (s'.dispd o).link = true ∧ (s'.dispd o).rate = rate ∧
        (s'.dispd o).lanes = lanes ∧
        (starts → (s'.dispd o).t0 = some s.clock.ns ∧ (s'.dispd o).snap = kept) ∧
        (¬ starts → (s'.dispd o).t0 = (s.dispd o).t0 ∧ (s'.dispd o).snap = (s.dispd o).snap) ∧
        (s'.dispd o).acc = (s.dispd o).acc ∧
        (∀ k, k ≠ o → s'.dispd k = s.dispd k) ∧ s' = { s with dispds := s'.dispds, free := s.free + 1, out := [] }) ∧
    Turns (.linkLost o) s (fun u => { u with dispds := kset o { s.dispd o with link := false } u.dispds })

/-- R434, R435, R436: STRIP_LATCH, once the time of the strip's next latch has come: every view of the output that is on is
copied for the strip, and the grids that wait for this latch are released, but for those that had waited when the output
was disabled. -/
def Sys2Proof.Claims.StripsLatch : Prop :=
  ∀ (s : State) (o strip t0 : Nat),
    let d := s.disp o
    let p := fld d.time 0 32 / fld d.cfg 20 6
    let fr := kget 0 strip (s.dispd o).latch
    let views := (List.range 16).filter (fun v => bit (s.view v).cfg 0 && fld (s.view v).cfg 1 3 == o)
    bit d.cfg 0 = true → strip < fld d.cfg 20 6 → (s.dispd o).t0 = some t0 →
    t0 + fr * fld d.time 0 32 + strip * p - fld d.cfg 26 5 * p ≤ s.clock.ns →
    ∃ s', exec (.stripLatch o strip) s = .next s' ∧
      (∀ v ∈ views, kfind (32 * v + strip) (s'.dispd o).snap = some (s.view v)) ∧
      (∀ k, (∀ v ∈ views, k ≠ 32 * v + strip) → kfind k (s'.dispd o).snap = kfind k (s.dispd o).snap) ∧
      (s'.dispd o).latch = kset strip (fr + 1) (s.dispd o).latch ∧
      s'.dispd o = { s.dispd o with snap := (s'.dispd o).snap, latch := (s'.dispd o).latch } ∧
      (∀ k, k ≠ o → s'.dispd k = s.dispd k) ∧
      (∀ k g, s.grid? k = some g → s'.grid? k = some (
        if g.latchHeld ∧ g.latchLost = false ∧ g.rc.latchOut = o ∧ g.rc.latchStrip = strip then { g with latchHeld := false }
        else g)) ∧
      s' = { s with dispds := s'.dispds, grids := s'.grids, free := s.free + 1, out := [] }

/-- R408, R434, R446, R447: STRIP_DEADLINE, once the time of the strip's next deadline has come: the frame advances, the tiles
accepted for it go to the frame store, and one LATE record counts the tiles that were not, if there are any. -/
def Sys2Proof.Claims.DeadlinesTakeEffect : Prop :=
  ∀ (s : State) (o strip t0 : Nat),
    let d := s.disp o
    let p := fld d.time 0 32 / fld d.cfg 20 6
    let fr := kget 0 strip (s.dispd o).frame
    let at' := t0 + fr * fld d.time 0 32 + strip * p - fld d.time 32 32
    let mine := (s.dispd o).acc.filter (fun e => e.strip == strip)
    let rows := (strip * fld d.cfg 12 8 / fld d.cfg 20 6, (strip + 1) * fld d.cfg 12 8 / fld d.cfg 20 6)
    let missing := (d.tiles strip).filter (fun q => !mine.any (fun e => e.pos == q))
    bit d.cfg 0 = true → strip < fld d.cfg 20 6 → (s.dispd o).t0 = some t0 → at' ≤ s.clock.ns →
    (∀ e ∈ mine, e.bytes.isSome) → (mine.map (fun e => e.pos)).Nodup →
    (∀ q, q ∈ d.tiles strip ↔ ∃ x y, x < fld d.cfg 4 8 ∧ rows.1 ≤ y ∧ y < rows.2 ∧ q = 256 * y + x) ∧
    ∃ s', exec (.stripDeadline o strip) s = .next s' ∧
      (s'.dispd o).frame = kset strip (fr + 1) (s.dispd o).frame ∧
      (s'.dispd o).acc = (s.dispd o).acc.filter (fun e => e.strip != strip) ∧
      (∀ e ∈ mine, kfind e.pos (s'.dispd o).store = e.bytes) ∧
      (∀ q, (∀ e ∈ mine, e.pos ≠ q) → kfind q (s'.dispd o).store = kfind q (s.dispd o).store) ∧
      (∀ k, k ≠ o → s'.dispd k = s.dispd k) ∧ s'.hub = s.hub ∧ s'.teams = s.teams ∧ s'.mem = s.mem ∧
      (missing = [] → (s'.dispd o).lates = (s.dispd o).lates ∧ s'.vids = s.vids) ∧
      (∀ q r, missing = q :: r →
        (s'.dispd o).lates = min ((s.dispd o).lates + 1) 0xFFFF ∧
        (((s.vid (fld d.cfg 32 6)).events.filter (fun x => x.kind != 1)).length < 4096 →
          ∃ e ∈ (s'.vid (fld d.cfg 32 6)).events, e.ring = fld d.cfg 38 2 ∧ e.time = at' ∧ e.kind = 2 ∧ e.grid = none ∧
            e.body = leBytes 4 (fr % 2 ^ 32) ++ leBytes 1 2 ++ leBytes 1 0 ++ leBytes 1 (strip + 32 * o) ++ leBytes 1 0 ++
              leBytes 4 (r.length + 1) ++ leBytes 1 (q % 256) ++ leBytes 1 (q / 256) ++ List.replicate 10 0))

/-- R409: SERIALISER_TILE_READ takes the bytes of an accepted tile from its team's scratch, and the team no longer waits for
that read. -/
def Sys2Proof.Claims.TilesAreRead : Prop :=
  ∀ (s : State) (o n : Nat) (e : Tile) (t : Team), (s.dispd o).acc.find? (fun x => x.read == n && x.bytes.isNone) = some e →
    e.team = t.id → s.team? t.id = some t →
    ∃ s', exec (.serialiserTileRead o n) s = .next s' ∧
      (s'.dispd o).acc = (s.dispd o).acc.map (fun x =>
        if x.read = n then { x with bytes := some (t.scrRead e.offset 4096) } else x) ∧
      s'.dispd o = { s.dispd o with acc := (s'.dispd o).acc } ∧ (∀ k, k ≠ o → s'.dispd k = s.dispd k) ∧
      s'.team? t.id = some { t with reads := t.reads.filter (fun r => r != (o, n)) } ∧
      (∀ k, k ≠ t.id → s'.team? k = s.team? k) ∧
      s' = { s with dispds := s'.dispds, teams := s'.teams, free := s.free + 1, out := [] }

/-- R408, R409, R429 to R435, R446, R447: the moves of an output.  The model's choices in it: log entries 69, 70 and 71. -/
def Obligations.OutputsRun : Prop :=
  OutputsAreConfigured ∧ LinksTrain ∧ StripsLatch ∧ DeadlinesTakeEffect ∧ TilesAreRead

/-! ### Power, the watchdog, halts of a core, errors in stores (R100, R461, R463, R464, R472 to R474) -/

/-- R472: the governor's action at the end of a µs whose mean power is `w`. -/
def Sys2Proof.Claims.GovernorActs : Prop :=
  ∀ (s : State) (w : Nat), w < 65536 →
    let limit := fld s.hub.pwrCfg 0 16
    let low := ∃ c, c < 144 ∧ (s.core c).gfloor < 16
    ∃ s', exec (.governorTick w) s = .next s' ∧ s'.power = w ∧
      (∀ c, s'.core c = { s.core c with gfloor := (s'.core c).gfloor }) ∧
      (limit < w → low → s'.gated = s.gated ∧
        ∀ c, c < 144 → (s'.core c).gfloor = (if (s.core c).gfloor < 16 then (s.core c).gfloor + 1 else (s.core c).gfloor)) ∧
      (limit < w → ¬ low → s'.gated = [0, 1, 2, 3] ∧ ∀ c, c < 144 → (s'.core c).gfloor = (s.core c).gfloor) ∧
      (100 * w ≤ 95 * limit → s.gated ≠ [] → s'.gated = [] ∧ ∀ c, c < 144 → (s'.core c).gfloor = (s.core c).gfloor) ∧
      (100 * w ≤ 95 * limit → s.gated = [] → s'.gated = [] ∧
        ∀ c, c < 144 → (s'.core c).gfloor = (if 1 < (s.core c).gfloor then (s.core c).gfloor - 1 else (s.core c).gfloor)) ∧
      (w ≤ limit → 95 * limit < 100 * w → s'.gated = s.gated ∧ ∀ c, c < 144 → (s'.core c).gfloor = (s.core c).gfloor) ∧
      (∀ vi, kfind vi s.vids ≠ none → (s'.vid vi).denied = [] ∧ (s'.vid vi).notices = 0) ∧
      s' = { s with power := w, gated := s'.gated, cores := s'.cores, vids := s'.vids, free := s.free + 1, out := [] }

/-- R473: at the end of a µs in which a VI was denied issue on one die, a THROTTLE record of it waits for ring 0. -/
def Sys2Proof.Claims.ThrottleIsReported : Prop :=
  ∀ (s : State) (w vi die n : Nat) (d : ViDyn), s.vids = [(vi, d)] → d.denied = [(die, n)] → n ≠ 0 → die < 4 →
    (d.events.filter (fun x => x.kind != 1)).length < 4096 →
    ∃ s' e, exec (.governorTick w) s = .next s' ∧ e ∈ (s'.vid vi).events ∧ e.ring = 0 ∧ e.kind = 3 ∧
      e.time = s.clock.ns ∧ e.body = leBytes 4 vi ++ leBytes 1 3 ++ leBytes 1 0 ++ leBytes 1 die ++ leBytes 1 0 ++
        leBytes 4 n ++ leBytes 4 d.notices ++ List.replicate 8 0 ∧
      (s'.vid vi).events.length = d.events.length + 1

/-- R474: a way that has waited 256 clk enters near-threshold mode, where that mode is permitted. -/
def Sys2Proof.Claims.WaysSlowDown : Prop :=
  ∀ (s : State) (core way : Nat), bit s.hub.pwrCfg 16 = true → 256 ≤ kget 0 way (s.core core).idle →
    ∃ s', exec (.nearThresholdEnter core way) s = .next s' ∧ smem way (s'.core core).nt = true ∧
      (∀ w, w ≠ way → smem w (s'.core core).nt = smem w (s.core core).nt) ∧
      (∀ c, c ≠ core → s'.core c = s.core c) ∧ s'.core core = { s.core core with nt := (s'.core core).nt } ∧
      s' = { s with cores := s'.cores, free := s.free + 1, out := [] }

/-- R463, R452: WATCHDOG stops a waiting home group that is alone in its fragment and whose count has reached the limit: by the
fate of the cause, it enters the handler, its core halts, or its team ends. -/
def Sys2Proof.Claims.WatchdogStops : Prop :=
  ∀ (s : State) (t : Team) (f : Frag) (g : Group) (m : Word), s.team? t.id = some t → t.group? g.num = some g →
    t.frags = [f] → f.lanes = [(g.num, m)] → m ≠ 0 → (∃ b l x, f.st = .barw b l x) → fld (s.vi t.vi).wdog 0 16 ≠ 0 →
    65536 * fld (s.vi t.vi).wdog 0 16 ≤ g.wdog → g.stop = none → g.finished = false → s.barred t = false →
    ∃ s' t' f' g', exec (.watchdog t.id g.num) s = .next s' ∧ s'.team? t.id = some t' ∧ t'.frags = [f'] ∧
      f'.lanes = f.lanes ∧ t'.group? g.num = some g' ∧ (∀ k, k ≠ g.num → t'.group? k = t.group? k) ∧
      (s.fate t g.hm .watchdog ≠ .team → t'.bars = t.bars) ∧ s'.mem = s.mem ∧ s'.hub = s.hub ∧
      (s.fate t g.hm .watchdog = .handler → f'.st = .ready ∧ f'.pc = (s.vi t.vi).trapEntry ∧ f'.hm = true ∧ f'.fmt = 0 ∧
        g'.hm = true ∧ g'.exec = g.exec ||| (m &&& g.alive) ∧ fld g'.tr.tcause 0 6 = Cause.watchdog.code ∧
        g'.tr.tinst = f.pc ∧ g'.tr.texec = g.exec ∧ g'.tr.tfmt = f.fmt) ∧
      (s.fate t g.hm .watchdog = .halt → f'.st = .stopped ∧ f'.pc = f.pc ∧ g'.stop = some (.fault .watchdog g.hm) ∧
        CoreHalts s s' t g.num Cause.watchdog.code) ∧
      (s.fate t g.hm .watchdog = .team → f'.st = .stopped ∧ TeamEnds s s' t t' Cause.watchdog.code f.pc)

/-- R461: a write of HALT as 1 halts a core that runs, for DEBUG_HALT; written 0, it runs again, its groups going on where they
stood if none stopped of itself; a new halt gives up a resumption that still waits. -/
def Sys2Proof.Claims.CoresHaltAndResume : Prop :=
  ∀ (s : State) (core : Nat) (v : Dword), s.hub.phase = 3 → core < 144 →
    let d := (s.core core).dbg
    (d.halt = false →
      ∃ s', exec (.coreDbgHalt core v) s = .next s' ∧ (s'.core core).dbg = { d with
          action := fld v 17 2, step := bit v 19, halt := true, cause := Cause.debugHalt.code, slot := 0, group := 0,
          halted := !s.teams.any (fun e => e.2.core == core && e.2.beingSaved) } ∧
        s'.core core = { s.core core with dbg := (s'.core core).dbg } ∧ (∀ c, c ≠ core → s'.core c = s.core c) ∧
        (∀ m, m ∈ s'.held ↔ m ∈ s.held ∧ ∀ w, m ≠ .resume core w) ∧
        s' = { s with cores := s'.cores, held := s'.held, free := s.free + 1, out := [] }) ∧
    (d.halt = true → (∀ e ∈ s.teams, e.2.core = core → (∀ f ∈ e.2.frags, f.st ≠ .stopped) ∧
        ∀ g ∈ e.2.groups, g.2.stop = none) →
      ∃ s', exec (.coreDbgResume core v) s = .next s' ∧ (s'.core core).dbg = { d with
          action := fld v 17 2, step := bit v 19, halt := false, halted := false } ∧
        s'.core core = { s.core core with dbg := (s'.core core).dbg } ∧ (∀ c, c ≠ core → s'.core c = s.core c) ∧
        s' = { s with cores := s'.cores, free := s.free + 1, out := [] })

/-- R461: at a resumption with ACTION 1 or 3, a group that stopped on a fault or on `sr.tret` ends its team. -/
def Sys2Proof.Claims.ActionEndsTeams : Prop :=
  ∀ (s : State) (core : Nat) (v : Dword) (t : Team) (f : Frag) (g : Group) (m : Word), s.hub.phase = 3 → core < 144 →
    s.teams = [(t.id, t)] → t.core = core → t.frags = [f] → f.lanes = [(g.num, m)] → f.st = .stopped →
    t.group? g.num = some g → g.stop.isSome → t.st ≠ .saved → t.dead = false → (s.core core).dbg.halt = true →
    fld v 17 2 = 1 ∨ fld v 17 2 = 3 →
    ∃ s' t', exec (.coreDbgResume core v) s = .next s' ∧ s'.team? t.id = some t' ∧
      (s'.core core).dbg.halt = false ∧ TeamEnds s s' t t' g.tr.cause.code g.tr.taddr

/-- R58, R77, R89, R93, R100, R464: an error in a team's registers, scratch, private memory or accumulators is counted at its
core, an uncorrectable one poisons its protected word, where that has been written; an uncorrectable one in its execution
state is counted and marks the team, a corrected one leaves everything; of memory an uncorrectable one poisons the line. -/
def Sys2Proof.Claims.ErrorsAreCounted : Prop :=
  (∀ (s : State) (t : Team) (unc : Bool) (site : ErrorSite) (mark : Team), s.team? t.id = some t → t.st ≠ .saved →
    (∃ g r l, t.group? g.num = some g ∧ site = .reg t.id g.num r l ∧ g.bound.contains (r / 8) = true ∧ l < 32 ∧
      mark = { t with groups := kset g.num { g with regPoison := sinsert (32 * r + l) g.regPoison } t.groups }) ∨
    (∃ off, site = .scratch t.id off ∧ off < t.scrSize ∧
      mark = if t.scrW.contains (off / 4096) then { t with scrPoison := sinsert (off / 8) t.scrPoison } else t) ∨
    (∃ g l off, t.group? g.num = some g ∧ site = .priv t.id g.num l off ∧ l < 32 ∧ off < 256 * t.privN ∧
      mark = { t with groups := kset g.num (if g.privW.contains (16 * l + off / 256) then
          { g with privPoison := sinsert ((4096 * l + off) / 8) g.privPoison } else g) t.groups }) ∨
    (∃ a row col, site = .acc t.id a row col ∧ a < t.accN ∧ row < 128 ∧ col < 128 ∧
      mark = if t.accW.contains (128 * a + row) then { t with accPoison := sinsert (16384 * a + 128 * row + col) t.accPoison }
        else t) ∨
    (site = .exec t.id ∧ mark = { t with lost := true }) →
    ∃ s', exec (.softError site unc) s = .next s' ∧ s'.team? t.id = some (if unc then mark else t) ∧
      (∀ k, k ≠ t.id → s'.team? k = s.team? k) ∧ (∀ c, c ≠ t.core → s'.core c = s.core c) ∧
      s'.core t.core = (if unc then { s.core t.core with uncorr := min ((s.core t.core).uncorr + 1) 0xFFFFFFFF }
        else if site = .exec t.id then s.core t.core
        else { s.core t.core with corr := min ((s.core t.core).corr + 1) 0xFFFFFFFF }) ∧
      s' = { s with teams := s'.teams, cores := s'.cores, free := s.free + 1, out := [] }) ∧
  (∀ (s : State) (a : Nat), isNear a = true ∨ isFar a = true →
    Turns (.softError (.mem a) true) s (fun u => { u with memPoison := kset (a / 128) (BitVec.allOnes 128) u.memPoison }))

/-- R100, R461, R463, R464, R472 to R474: power, the watchdog, halts, and errors in stores.  The model's choices in it: log
entries 31, 32, 33, 42, 43, 44 and 114. -/
def Obligations.PowerAndDebugRun : Prop :=
  GovernorActs ∧ ThrottleIsReported ∧ WaysSlowDown ∧ WatchdogStops ∧ CoresHaltAndResume ∧ ActionEndsTeams ∧
    ErrorsAreCounted

/-! ### The mailbox commands, the ports, bring-up (R475 to R486) -/

/-- R479: a mailbox command has completed: its result, GO reads 0, and the interrupt. -/
def Sys2Proof.Claims.answered (r : Nat) (s : State) : State :=
  { s with hub := { s.hub with result := r, door := false, irqs := 256 :: s.hub.irqs } }

/-- R480: the block that a register command names. -/
def Sys2Proof.Claims.NamesBlock (s : State) (b : RegBlock) : Prop :=
  (s.arg 1 1 = 0 ∧ b = .partman) ∨ (s.arg 1 1 = 1 ∧ b = .display) ∨
  (s.arg 1 1 = 2 ∧ s.arg 2 1 < 144 ∧ b = .core (s.arg 2 1)) ∨ (s.arg 1 1 = 3 ∧ b = .memctl) ∨ (s.arg 1 1 = 4 ∧ b = .power)

/-- R480: REG_RD answers with the register it names, REG_WR writes it as a register write does, as here a cadence and a power
limit, and is always answered; a space or a core that does not exist gives BAD_ARG. -/
def Sys2Proof.Claims.RegisterCommandsRun : Prop :=
  ∀ (s : State), s.hub.phase = 3 → s.hub.door = true →
    (∀ b, NamesBlock s b → s.arg 0 1 = 0x01 →
      ∃ s', exec .regRd s = .next s' ∧ s'.arg 16 8 = ((now s).regRead b (s.arg 8 8)).toNat ∧
        (∀ k, k < 16 ∨ 24 ≤ k → zget k s'.hub.mailbox = zget k s.hub.mailbox) ∧
        s' = answered 0 { s with hub := { s.hub with mailbox := s'.hub.mailbox }, free := s.free + 1, out := [] }) ∧
    (∀ b u, NamesBlock s b → s.arg 0 1 = 0x02 →
      exec (.registerWrite b (s.arg 8 8) (w64 (s.arg 16 8))) s = .next u →
      ∃ s', exec .regWr s = .next s' ∧ s' = answered 0 u) ∧
    (∀ b, NamesBlock s b → s.arg 0 1 = 0x02 →
      ∃ s' l, exec .regWr s = .next s' ∧ s'.hub.result = 0 ∧ s'.hub.door = false ∧ s'.hub.irqs = 256 :: l) ∧
    (s.arg 0 1 = 0x02 → s.arg 1 1 = 2 → s.arg 2 1 < 144 → s.arg 8 8 = 0x060 → 1 ≤ s.arg 16 8 % 32 → s.arg 16 8 % 32 ≤ 16 →
      let core := s.arg 2 1
      Turns .regWr s (fun u => answered 0 { u with
        cores := kset core { s.core core with cadence := s.arg 16 8 % 32, cadClk := some s.clock.clk } s.cores })) ∧
    (s.arg 0 1 = 0x02 → s.arg 1 1 = 4 → s.arg 8 8 = 0x100 → s.arg 16 8 % 65536 ≤ 1900 →
      Turns .regWr s (fun u => answered 0 { u with hub := { u.hub with pwrCfg := w64 (s.arg 16 8) &&& 0x1FFFFF } })) ∧
    ((∀ b, ¬ NamesBlock s b) →
      (s.arg 0 1 = 0x01 → Turns .regRd s (answered 2)) ∧ (s.arg 0 1 = 0x02 → Turns .regWr s (answered 2)))

/-- R36, R38, R480, R481: KEY_LOAD fills an empty slot with the key pair that the unwrapping gives, and its owner; a blob that
does not unwrap gives BAD_ARG; KEY_EMPTY of a slot that holds a pair begins to empty it. -/
def Sys2Proof.Claims.KeyCommandsRun : Prop :=
  ∀ (s : State), s.hub.phase = 3 → s.hub.door = true →
    let slot := s.arg 2 2
    let h := s.arg 8 8
    let inRange := slot < 4096 ∧ s.arg 4 1 < 2 ∧ s.arg 5 1 < 64 ∧ h + 1160 ≤ 2 ^ 46
    (s.arg 0 1 = 0x10 →
      (¬ inRange → Turns .keyLoad s (answered 2)) ∧
      (inRange → (∃ k, kfind slot s.hub.keys = some k) → Turns .keyLoad s (answered 3)) ∧
      (inRange → kfind slot s.hub.keys = none → Config.unwrapPair ((now s).hostRead h 1160) = none →
        Turns .keyLoad s (answered 2)) ∧
      (∀ pair, inRange → kfind slot s.hub.keys = none → Config.unwrapPair ((now s).hostRead h 1160) = some pair →
        let k : KeySlot := { pair := pair, byPart := s.arg 4 1 == 1, owner := s.arg 5 1 }
        Turns .keyLoad s (fun u => answered 0 { u with hub := { u.hub with keys := kset slot k u.hub.keys } }))) ∧
    (s.arg 0 1 = 0x11 →
      (4096 ≤ slot → Turns .keyEmpty s (answered 2)) ∧
      (slot < 4096 → kfind slot s.hub.keys = none → Turns .keyEmpty s (answered 0)) ∧
      (∀ k, slot < 4096 → kfind slot s.hub.keys = some k →
        Turns .keyEmpty s (fun u =>
          { u with hub := { u.hub with keys := kset slot { k with emptying := true } u.hub.keys } })))

/-- Bytes that a controller's command leaves in host memory, at a host address; every other byte, and the rest of the machine
but for the answer, as they were. -/
def Sys2Proof.Claims.Reports (s s' : State) (h : Nat) (bs : List Byte) : Prop :=
  (∀ k, k < bs.length → Memory.read s'.mem (0x400000000000 + h + k) = nth 0 bs k) ∧
  (∀ a, Untouched s [(0x400000000000 + h, bs.length, 0)] a → Memory.read s'.mem a = Memory.read s.mem a) ∧
  s' = answered 0 { s with mem := s'.mem, tags := s'.tags, free := s.free + 1, out := [] }

/-- R486: ATTEST writes a report over the nonce, the running image, its version, the serial number, the configuration, the
clock and the encapsulation key, in 200 bytes, with its two signatures, of 64 and 3,309 bytes; ATTEST_KEYS writes the keys. -/
def Sys2Proof.Claims.AttestationsAreWritten : Prop :=
  ∀ (s : State), s.hub.phase = 3 → s.hub.door = true →
    let r := s.box 8 32 ++ sha384 s.hub.running ++ leBytes 4 s.hub.svn ++ leBytes 4 0 ++
      leBytes 8 Config.serial.toNat ++
      sha384 (Config.attestBytes ((List.range 64).map (fun p => (s.part p).geom))
        ((List.range 64).map (fun v => (s.vi v).cfg)) (s.hub.keys.flatMap (fun e => [e.1, b2n e.2.byPart, e.2.owner]))) ++
      leBytes 8 s.clock.ns ++ sha384 ((List.range 1184).map Config.encapsKey)
    r.length = 200 ∧
    (s.arg 0 1 = 0x20 → s.arg 40 8 + 3573 ≤ 2 ^ 46 →
      ∃ s', exec .attest s = .next s' ∧
        Reports s s' (s.arg 40 8) (r ++ (List.range 64).map (Config.signEd25519 r) ++
          (List.range 3309).map (Config.signMldsa r))) ∧
    (s.arg 0 1 = 0x21 → s.arg 8 8 + Config.attestKeys.length ≤ 2 ^ 46 →
      ∃ s', exec .attestKeys s = .next s' ∧ Reports s s' (s.arg 8 8) Config.attestKeys)

/-- R461, R480: DBG_RD and DBG_WR: BAD_ARG where the command names nothing; of a group on a core DENIED where the core has not
halted; else the place that the command names is read into the buffer, or written.  What a command names is the
configuration's, for the spec gives no layout. -/
def Sys2Proof.Claims.DebugCommandsRun : Prop :=
  (∀ (s : State), s.hub.phase = 3 → s.hub.door = true → Config.dbgDecode (s.box 0 256) = none →
    (s.arg 0 1 = 0x30 → Turns .dbgRd s (answered 2)) ∧ (s.arg 0 1 = 0x31 → Turns .dbgWr s (answered 2))) ∧
  ∀ (s : State) (core slot num kind place : Nat), s.hub.phase = 3 → s.hub.door = true →
    Config.dbgDecode (s.box 0 256) = some (core, slot, num, kind, place) →
    ((s.core core).dbg.halted = false →
      (s.arg 0 1 = 0x30 → Turns .dbgRd s (answered 3)) ∧ (s.arg 0 1 = 0x31 → Turns .dbgWr s (answered 3))) ∧
    (∀ (t : Team) (g : Group) (v : Dword), (s.core core).dbg.halted = true → s.teamAt core slot = some t →
      t.group? num = some g → (now s).dbgGet t g kind place = some v →
      (s.arg 0 1 = 0x30 →
        ∃ s', exec .dbgRd s = .next s' ∧
          (∀ k, k < 256 → zget k s'.hub.mailbox =
            (if k < (Config.dbgReply (s.box 0 256) v).length then nth 0 (Config.dbgReply (s.box 0 256) v) k
             else zget k s.hub.mailbox)) ∧
          s' = answered 0 { s with hub := { s.hub with mailbox := s'.hub.mailbox }, free := s.free + 1, out := [] }) ∧
      (s.arg 0 1 = 0x31 → s.team? t.id = some t → g.num = num →
        ∃ s' t' g', exec .dbgWr s = .next s' ∧ s'.team? t.id = some t' ∧ t'.group? num = some g' ∧
          (kind = 0 → g'.reg (place / 32) (place % 32) = (Config.dbgValue (s.box 0 256)).setWidth 32 ∧
            ∀ r l, l < 32 → 32 * r + l ≠ place → g'.reg r l = g.reg r l) ∧
          (kind = 1 → g'.scalar place = (Config.dbgValue (s.box 0 256)).setWidth 32) ∧
          (kind = 8 → g'.hm = bit (Config.dbgValue (s.box 0 256)) 0) ∧
          (kind = 3 → g'.exec = (Config.dbgValue (s.box 0 256)).setWidth 32 &&& g.alive) ∧
          (kind < 4 → t'.frags = t.frags) ∧ (∀ k, k ≠ num → t'.group? k = t.group? k) ∧
          (∀ k, k ≠ t.id → s'.team? k = s.team? k) ∧
          s' = answered 0 { s with teams := s'.teams, free := s.free + 1, out := [] }))

/-- R480, R482, R485: FW_UPDATE stores an image that verifies for the next reset; PEER_BIND binds a port; an unassigned code
gives BAD_CMD. -/
def Sys2Proof.Claims.OtherCommandsRun : Prop :=
  ∀ (s : State), s.hub.phase = 3 → s.hub.door = true →
    (s.arg 0 1 = 0x40 →
      let img := (now s).hostRead (s.arg 8 8) (s.arg 16 4)
      let verified := Config.imageWellFormed img = true ∧ Config.ed25519Ok img = true ∧ Config.mldsaOk img = true ∧
        s.hub.fused ≤ Config.imageSvn img
      let inRange := s.arg 8 8 + s.arg 16 4 ≤ 2 ^ 46
      (inRange → verified → Turns .fwUpdate s (fun u => answered 0 { u with hub := { u.hub with image := some img } })) ∧
      (¬ inRange ∨ ¬ verified → Turns .fwUpdate s (answered 2))) ∧
    (s.arg 0 1 = 0x50 →
      let inRange := s.arg 2 1 < 16 ∧ s.arg 3 1 < 64 ∧ s.arg 4 1 < 64
      let p : Peer := { vi := s.arg 3 1, remoteVi := s.arg 4 1, serial := w64 (s.arg 8 8)
                        remoteBound := s.hub.remoteEnds.contains (s.arg 2 1) }
      (inRange → Turns .peerBind s (fun u =>
        answered 0 { u with hub := { u.hub with
          peers := kset (s.arg 2 1) p u.hub.peers, remoteEnds := sdel (s.arg 2 1) u.hub.remoteEnds } })) ∧
      (¬ inRange → Turns .peerBind s (answered 2))) ∧
    (s.arg 0 1 ∉ [0x01, 0x02, 0x10, 0x11, 0x20, 0x21, 0x30, 0x31, 0x40, 0x50] →
      Turns .ngkUnassignedCommand s (answered 1))

/-- R479 to R482, R485, R486: every mailbox command runs, once GO is set.  The model's choices in it: log entries 3, 73, 74,
75, 76, 77 and 82. -/
def Obligations.HostCommandsRun : Prop :=
  RegisterCommandsRun ∧ KeyCommandsRun ∧ AttestationsAreWritten ∧ DebugCommandsRun ∧ OtherCommandsRun

/-- R476, R482: an access of the host, or of a peer whose port is bound at both ends, to the memory of a VI, where its leaf does
not migrate, its request finds a free entry and no earlier access to its bytes is held: a store that translates writes its bytes and may set bits of its leaf; a load
leaves memory but for those. -/
def Sys2Proof.Claims.PortAccessesRun : Prop :=
  ∀ (s : State) (i : Option (BitVec 128) → Instr) (vi size : Nat) (addr : Dword) (x : XOk), vi < 64 →
    size ∈ [1, 2, 4, 8, 16] →
    (i = .hostMemoryAccess vi size addr) ∨
      (∃ port p, i = .peerRequest port size addr ∧ kfind port s.hub.peers = some p ∧ p.remoteBound = true ∧ p.vi = vi) →
    (now s).migrating x.ea = false →
    (∀ cls, cls = 2 ∨ cls = 3 → (now s).noEntry (x.ask vi cls 0) x = false ∧
      ∀ m ∈ s.held, m.before vi size cls addr = false) →
    (∀ v : BitVec 128, (now s).translate vi addr .store size false = .ok x →
      ∃ s', exec (i (some v)) s = .next s' ∧
        (∀ k, k < size → Memory.read s'.mem (x.pa + k) = nth 0 (leBytes size v.toNat) k) ∧
        (∀ a, Untouched s [(x.pa, size, s.keyTag x.leaf), (x.ea, 8, x.etag)] a →
          Memory.read s'.mem a = Memory.read s.mem a) ∧
        s'.teams = s.teams ∧ s'.hub = s.hub ∧ s'.clock = s.clock ∧ ∀ c, (s'.core c).wbuf = (s.core c).wbuf) ∧
    ((now s).translate vi addr .load size false = .ok x →
      ∃ s', exec (i none) s = .next s' ∧
        (∀ a, Untouched s [(x.ea, 8, x.etag)] a → Memory.read s'.mem a = Memory.read s.mem a) ∧
        s'.teams = s.teams ∧ s'.hub = s.hub ∧ s'.clock = s.clock ∧ ∀ c, (s'.core c).wbuf = (s.core c).wbuf)

/-- R483: PEER_COPY_COMPLETE: the descriptor at HEAD of an enabled peer ring that holds one: after its copy FLAG receives
HEAD + 1, after one that failed 0x8000_0000_0000_0000 and the cause; and HEAD moves on. -/
def Sys2Proof.Claims.PeerCopiesComplete : Prop :=
  ∀ (s : State) (vi : Nat) (data : List Byte) (ok : Bool) (d : List Byte) (u m w : State) (flag : Dword), vi < 64 →
    let v := s.vid vi
    bit v.peerCfg 0 = true → v.peerHead ≠ v.peerTail →
    (now s).agentReads { vi := vi, cls := 2 } 16 2
      (w64 (fld v.peerBase 5 51 * 32 + 32 * (v.peerHead.toNat % 2 ^ fld v.peerCfg 1 4))) [] = (.ok d, u) →
    (u.peerMove vi d data ok = (.ok (), m) ∧ flag = (v.peerHead + 1).setWidth 64) ∨
      (∃ c, u.peerMove vi d data ok = (.fault c, m) ∧ flag = 0x8000000000000000 ||| w64 c) →
    m.agentWrite { vi := vi, cls := 2, pause := false } (w64 (leNat ((d.drop 24).take 8))) (leBytes 8 flag.toNat) = (.ok (), w) →
    ∃ s', exec (.peerCopyComplete vi data ok) s = .next s' ∧ (s'.vid vi).peerHead = (w.vid vi).peerHead + 1 ∧
      s'.mem = Memory.commit s.mem w.out ∧ (∀ k, k ≠ vi → s'.vid k = w.vid k) ∧ s'.hub = w.hub ∧ s'.teams = w.teams ∧
      s'.cores = w.cores

/-- R482: the other end of a port is bound likewise, before or after this one. -/
def Sys2Proof.Claims.PeersBind : Prop :=
  ∀ (s : State) (port : Nat),
    (∀ p : Peer, kfind port s.hub.peers = some p →
      Turns (.peerRemoteBind port) s (fun u =>
        { u with hub := { u.hub with peers := kset port { p with remoteBound := true } u.hub.peers } })) ∧
    (kfind port s.hub.peers = none → port < 16 →
      Turns (.peerRemoteBind port) s (fun u =>
        { u with hub := { u.hub with remoteEnds := sinsert port u.hub.remoteEnds } }))

/-- R484, R485: MODULE_RESET enters phase ROM, with no team or grid, every register at its reset value, and host memory as it
was; ROM_IMAGE_VERIFY enters phase FW with an image that verifies, and FAILED with the first check that fails otherwise;
FW_BRINGUP_COMPLETE enters READY with every block reset, or FAILED. -/
def Sys2Proof.Claims.TheModuleComesUp : Prop :=
  (∀ (s : State),
    ∃ s', exec .moduleReset s = .next s' ∧ s'.hub.phase = 1 ∧ s'.hub.reason = 0 ∧ s'.hub.irqs = 257 :: s.hub.irqs ∧
      s'.hub.fused = s.hub.fused ∧ s'.hub.image = s.hub.image ∧ s'.teams = [] ∧ s'.grids = [] ∧ s'.cores = [] ∧
      s'.clock = {} ∧ s'.hub.vis = [] ∧ s'.hub.parts = State.reset.hub.parts ∧ s'.hub.keys = [] ∧ s'.hub.disps = [] ∧
      s'.hub.views = [] ∧ s'.hub.peers = [] ∧ s'.hub.mailbox = [] ∧ s'.hub.pwrCfg = State.reset.hub.pwrCfg ∧
      (∀ a, isHost a = true → Memory.read s'.mem a = Memory.read s.mem a) ∧
      (∀ a, Memory.read s'.mem a = Memory.read s.mem a ∨ Memory.read s'.mem a = 0)) ∧
  (∀ (s : State), s.hub.phase = 1 →
    let img := s.hub.image.getD Config.romImage
    let wf := Config.imageWellFormed img
    let failed (r : Nat) : Prop := Turns .romImageVerify s (fun u =>
      { u with hub := { u.hub with phase := 7, reason := r, irqs := 257 :: u.hub.irqs } })
    (wf = false → failed 4) ∧ (wf = true → Config.ed25519Ok img = false → failed 1) ∧
    (wf = true → Config.ed25519Ok img = true → Config.mldsaOk img = false → failed 2) ∧
    (wf = true → Config.ed25519Ok img = true → Config.mldsaOk img = true → Config.imageSvn img < s.hub.fused →
      failed 3) ∧
    (wf = true → Config.ed25519Ok img = true → Config.mldsaOk img = true → s.hub.fused ≤ Config.imageSvn img →
      Turns .romImageVerify s (fun u => { u with hub := { u.hub with
        running := img, svn := Config.imageSvn img % 2 ^ 32, phase := 2, reason := 0, irqs := 257 :: u.hub.irqs } }))) ∧
  (∀ (s : State) (first : Nat), s.hub.phase = 2 →
    (∀ fail, fail = 5 ∨ fail = 6 → Turns (.fwBringupComplete fail first) s (fun u =>
      { u with hub := { u.hub with phase := 7, reason := fail, irqs := 257 :: u.hub.irqs } })) ∧
    (first ≤ 0x5FFC00 → first % 1024 = 0 →
      ∃ s', exec (.fwBringupComplete 0 first) s = .next s' ∧ s' = { State.reset with
        mem := s.mem, tags := s.tags, clock := s.clock, inbox := s.inbox, free := s.free + 1
        hub := { State.reset.hub with
          running := s.hub.running, svn := s.hub.svn, image := s.hub.image, fused := max s.hub.fused s.hub.svn,
          fwFirst := first, phase := 3, reason := 0, irqs := 257 :: s.hub.irqs } }))

/-- R476, R482 to R485: the host and peer ports, and bring-up.  The model's choices in it: log entries 78, 79, 80, 81 and 82.
-/
def Obligations.PortsAndBringUpRun : Prop := PortAccessesRun ∧ PeerCopiesComplete ∧ PeersBind ∧ TheModuleComesUp

/-! ### Integer results in numbers (R302 to R307) -/

/-- The width of an integer or bitwise type in bits (R279). -/
def Sys2Proof.Claims.width : Ty → Nat
  | .s8 | .n8 => 8
  | .s16 | .n16 => 16
  | .s64 | .n64 => 64
  | _ => 32

/-- Whether an integer type is signed (R279). -/
def Sys2Proof.Claims.signed : Ty → Bool
  | .s8 | .s16 | .s32 | .s64 => true
  | _ => false

/-- The number that the low bits of an operand stand for, signed or unsigned by type. -/
def Sys2Proof.Claims.number (ty : Ty) (x : Dword) : Int :=
  if signed ty then (BitVec.ofNat (width ty) x.toNat).toInt else ((x.toNat % 2 ^ width ty : Nat) : Int)

/-- What a vector register of a lane holds, or with the register above it a pair. -/
def Sys2Proof.Claims.held (g : Group) (d n l : Nat) : Nat :=
  (g.reg d l).toNat + if n = 2 then 2 ^ 32 * (g.reg (d + 1) l).toNat else 0

/-- A short-class lane instruction completes: in each active lane what the `n` registers at D hold meets `R`; every other
register of every lane, and everything else, is as it was, but for the fragment's address and the counts of an issue. -/
def Sys2Proof.Claims.Yields (i : Instr) (s : State) (t : Team) (f : Frag) (g : Group) (m : Word) (n : Nat)
    (R : Nat → Nat → Prop) : Prop :=
  ∃ s' t' f' g', exec i s = .next s' ∧ Ran s t f g (after i f) s' t' f' g' ∧ RegsOnly g g' ∧
    (∀ l, l < 32 → bit (active i g m) l = true → R l (held g' (ops i).d.toNat n l)) ∧
    (∀ r l, l < 32 → bit (active i g m) l = false ∨ r < (ops i).d.toNat ∨ (ops i).d.toNat + n ≤ r →
      g'.reg r l = g.reg r l)

/-- The registers of a type: a pair for 64 bits. -/
def Sys2Proof.Claims.wide (ty : Ty) : Nat := if width ty = 64 then 2 else 1

/-- R302: `IMULH` writes bits [2w − 1 : w] of the exact product, signed or unsigned by type. -/
def Obligations.HighProducts : Prop :=
  ∀ (i : Instr) (s : State) (t : Team) (f : Frag) (g : Group) (m : Word), Issues i s t f g m →
    (∃ o, i = .imulhShort o) ∨ (∃ o, i = .imulh o) →
    let ty := (ops i).ty
    let n := wide ty
    Yields i s t f g m n (fun l d =>
      (d : Int) = (number ty ((ctx i s t f).srcA (gctx i g m) n l) * number ty ((ctx i s t f).srcB (gctx i g m) n l)) /
        (2 ^ width ty : Nat) % (2 ^ width ty : Nat))

/-- R303: `IDIV` leaves pending, for the registers D of each active lane, all ones where B is zero, A where the most negative
number is divided by -1, and the quotient rounded towards zero otherwise.  The model's choices in it: log entry 36. -/
def Obligations.Quotients : Prop :=
  ∀ (i : Instr) (s : State) (t : Team) (f : Frag) (g : Group) (m : Word), Issues i s t f g m →
    (∃ o, i = .idivShort o) ∨ (∃ o, i = .idiv o) →
    let ty := (ops i).ty
    let n := wide ty
    let a := fun l => number ty ((ctx i s t f).srcA (gctx i g m) n l)
    let b := fun l => number ty ((ctx i s t f).srcB (gctx i g m) n l)
    let q := fun l =>
      if b l = 0 then (2 ^ width ty - 1 : Int)
      else if signed ty = true ∧ a l = -(2 ^ (width ty - 1) : Int) ∧ b l = -1 then a l
      else (a l).tdiv (b l)
    ∃ s' t' f' g', exec i s = .next s' ∧ Ran s t f g (after i f) s' t' f' g' ∧ PendOnly g g' ∧
      (active i g m = 0 → g'.pend = []) ∧
      (active i g m ≠ 0 → ∃ p, g'.pend = [p] ∧ p.preds = [] ∧ p.scal = [] ∧ p.poison = none ∧
        (∀ k v, kfind k p.regs = some v ↔ ∃ l j, l < 32 ∧ bit (active i g m) l = true ∧ j < n ∧
          k = 32 * ((ops i).d.toNat + j) + l ∧
          (v.toNat : Int) = q l % (2 ^ width ty : Nat) / (2 ^ (32 * j) : Nat) % (2 ^ 32 : Nat)))

/-- R304: the shifts, by an amount that is the whole 32-bit unsigned value of B, in the short form imm6. -/
def Obligations.Shifts : Prop :=
  ∀ (i : Instr) (s : State) (t : Team) (f : Frag) (g : Group) (m : Word), Issues i s t f g m →
    let w := width (ops i).ty
    let n := wide (ops i).ty
    let a := fun l j => ((ctx i s t f).srcA (gctx i g m) n l).toNat.testBit j
    let k := fun l => ((ctx i s t f).srcB (gctx i g m) 1 l).toNat % 2 ^ 32
    (∀ o l, o.lit = none → i = .shlShort o ∨ i = .shrlShort o ∨ i = .shraShort o ∨ i = .rotlShort o →
      k l = o.b.toNat) ∧
    ((∃ o, i = .shlShort o) ∨ (∃ o, i = .shl o) → Yields i s t f g m n (fun l d =>
      ∀ j, d.testBit j = (decide (j < w) && decide (k l ≤ j) && a l (j - k l)))) ∧
    ((∃ o, i = .shrlShort o) ∨ (∃ o, i = .shrl o) → Yields i s t f g m n (fun l d =>
      ∀ j, d.testBit j = (decide (j + k l < w) && a l (j + k l)))) ∧
    ((∃ o, i = .shraShort o) ∨ (∃ o, i = .shra o) → Yields i s t f g m n (fun l d =>
      ∀ j, d.testBit j = (decide (j < w) && (if j + k l < w then a l (j + k l) else a l (w - 1))))) ∧
    ((∃ o, i = .rotlShort o) ∨ (∃ o, i = .rotl o) → Yields i s t f g m n (fun l d =>
      ∀ j, d.testBit j = (decide (j < w) && a l ((j + (w - k l % w)) % w))))

/-- R305: `BFX` and `BFI`: a field of A, and a field put into A. -/
def Obligations.BitFields : Prop :=
  ∀ (o : XOps) (s : State) (t : Team) (f : Frag) (g : Group) (m : Word),
    (Issues (.bfx o) s t f g m → Yields (.bfx o) s t f g m 1 (fun l d =>
      let c := ctx (.bfx o) s t f
      let gc := gctx (.bfx o) g m
      let a := fun j => decide (j < 32) && (c.srcA gc 1 l).toNat.testBit j
      let p := min ((c.srcB gc 1 l).toNat % 256) 32
      let n := min ((c.srcC gc 1 l).toNat % 256) 32
      ∀ j, d.testBit j = (decide (j < 32) && (
        if j < n then a (p + j) else decide (0 < n) && decide ((ops (.bfx o)).ty = .s32) && a (p + n - 1))))) ∧
    (Issues (.bfi o) s t f g m → Yields (.bfi o) s t f g m 1 (fun l d =>
      let c := ctx (.bfi o) s t f
      let gc := gctx (.bfi o) g m
      let p := min ((c.srcC gc 1 l).toNat % 256) 32
      let n := min ((c.srcC gc 1 l).toNat / 256 % 256) 32
      ∀ j, d.testBit j = (decide (j < 32) && (
        if p ≤ j ∧ j < p + n then (c.srcB gc 1 l).toNat.testBit (j - p) else (c.srcA gc 1 l).toNat.testBit j))))

/-- A condition of R306 on two numbers. -/
def Sys2Proof.Claims.holds : Cc → Int → Int → Prop
  | .eq, a, b => a = b
  | .ne, a, b => a ≠ b
  | .lt, a, b => a < b
  | .le, a, b => a ≤ b
  | .gt, a, b => b < a
  | .ge, a, b => b ≤ a

/-- R306: `ICMP` writes the comparison of A and B to predicate D in the active lanes, where `p0` takes no write; `ISEL` writes A
where C is not zero at the type's width, and B otherwise. -/
def Obligations.ComparisonsAndSelections : Prop :=
  (∀ (cc : Cc) (o : XOps) (s : State) (t : Team) (f : Frag) (g : Group) (m : Word), Issues (.icmp cc o) s t f g m →
    let i : Instr := .icmp cc o
    let ty := (ops i).ty
    let n := wide ty
    ∃ s' t' f' g', exec i s = .next s' ∧ Ran s t f g (after i f) s' t' f' g' ∧ PredsOnly g g' ∧
      ∀ q l, l < 32 →
        (q = fld (ops i).d 0 3 ∧ q ≠ 0 ∧ bit (active i g m) l = true → (bit (g'.pred q) l = true ↔
          holds cc (number ty ((ctx i s t f).srcA (gctx i g m) n l)) (number ty ((ctx i s t f).srcB (gctx i g m) n l)))) ∧
        (¬ (q = fld (ops i).d 0 3 ∧ q ≠ 0 ∧ bit (active i g m) l = true) → bit (g'.pred q) l = bit (g.pred q) l)) ∧
  (∀ (o : XOps) (s : State) (t : Team) (f : Frag) (g : Group) (m : Word), Issues (.isel o) s t f g m →
    let i : Instr := .isel o
    let n := wide (ops i).ty
    let w := width (ops i).ty
    Yields i s t f g m n (fun l d => d =
      (if ((ctx i s t f).srcC (gctx i g m) n l).toNat % 2 ^ w ≠ 0 then ((ctx i s t f).srcA (gctx i g m) n l).toNat
       else ((ctx i s t f).srcB (gctx i g m) n l).toNat) % 2 ^ w))

/-- R307: `LEA` adds a scaled offset to bits [55:0] of an address, modulo 2^56, and leaves its window byte alone; the
scale is word 3 [2:0], of which the other bits must be zero, and 0 in the short form. -/
def Obligations.ScaledAddresses : Prop :=
  (∀ o : XOps, 8 ≤ o.w3.toNat → formCause (.lea o) = some .reservedField) ∧ (∀ o : SOps, (ops (.leaShort o)).w3 = 0) ∧
  ∀ (i : Instr) (s : State) (t : Team) (f : Frag) (g : Group) (m : Word), Issues i s t f g m →
    (∃ o, i = .leaShort o) ∨ (∃ o, i = .lea o) →
    let ty := (ops i).ty
    Yields i s t f g m 2 (fun l d =>
      let a := ((ctx i s t f).srcA (gctx i g m) 2 l).toNat
      let off := number ty ((ctx i s t f).srcB (gctx i g m) (wide ty) l)
      d / 2 ^ 56 = a / 2 ^ 56 ∧
      ((d % 2 ^ 56 : Nat) : Int) = (((a % 2 ^ 56 : Nat) : Int) + off * (2 ^ ((ops i).w3.toNat % 8) : Nat)) % (2 ^ 56 : Nat))

/-! ### Encoding (R250 to R267) -/

/-- R250 to R266: a well-formed instruction, encoded and decoded, is itself; and words that decode to an instruction, as many as
its length field gives, are what it encodes to. -/
def Obligations.DecodeAndEncodeAgree : Prop :=
  (∀ (i : Instr), i.WellFormed → ∀ ws, encode i = some ws → decodeList ws = .ok i) ∧
  (∀ (i : Instr), i.WellFormed → (form i).isSome → ∃ ws, encode i = some ws ∧ 4 * ws.length = lenOf (ws.headD 0)) ∧
  (∀ (w1 w2 w3 l0 l1 : Word) (i : Instr), decodeList [w1, w2, w3, l0, l1] = .ok i →
    i.WellFormed ∧ encode i = some ([w1, w2, w3, l0, l1].take (lenOf w1 / 4)))

/-- R264, R266, R255: a word of an unassigned major raises ILLEGAL_OPCODE, one of a length that its major does not permit
BAD_LENGTH, and an extended form of the reserved type or edge mode RESERVED_FIELD. -/
def Obligations.ReservedEncodingsRefused : Prop :=
  ∀ (w1 w2 w3 l0 l1 : Word),
    let op := fld w1 3 7
    let len := fld w1 0 2
    let all := [0x01, 0x02, 0x03, 0x04, 0x07, 0x08, 0x09, 0x0B, 0x0C, 0x0D, 0x0E, 0x17, 0x18, 0x19, 0x1A, 0x1C, 0x1D, 0x1F, 0x0F, 0x10,
      0x11, 0x12, 0x38, 0x39, 0x32, 0x33, 0x34, 0x35, 0x36, 0x37, 0x0A, 0x20, 0x24, 0x30, 0x25, 0x31]
    let noLit := [0x26, 0x2B, 0x50, 0x51, 0x52, 0x53, 0x45, 0x46, 0x48, 0x64, 0x65, 0x68, 0x7B, 0x7C, 0x7E, 0x49, 0x60, 0x62,
      0x66, 0x79, 0x7A]
    let word := [0x42, 0x47, 0x4A, 0x4B, 0x4C, 0x5D]
    let long := [0x05, 0x06, 0x13, 0x14, 0x16, 0x1B, 0x22, 0x23, 0x3B, 0x15, 0x1E, 0x3A, 0x21]
    let none' := [0x00, 0x2C, 0x2D, 0x2E, 0x2F, 0x3C, 0x3D, 0x3E, 0x3F, 0x4D, 0x4E, 0x4F, 0x5F, 0x7F]
    let permits := op ∈ all ∨ (op ∈ noLit ∧ len % 2 = 0) ∨ (op ∈ word ∧ len = 0) ∨ (op ∈ long ∧ 2 ≤ len) ∨
      (op = 0x41 ∧ len = 3) ∨ (op ∉ all ∧ op ∉ noLit ∧ op ∉ word ∧ op ∉ long ∧ op ≠ 0x41 ∧ len = 2)
    (op ∈ none' → decodeList [w1, w2, w3, l0, l1] = .error .illegalOpcode) ∧
    (op ∉ none' → ¬ permits → decodeList [w1, w2, w3, l0, l1] = .error .badLength) ∧
    (op ∉ none' → permits → 2 ≤ len → fld w2 26 4 = 15 ∨ fld w2 30 2 = 3 →
      decodeList [w1, w2, w3, l0, l1] = .error .reservedField)

/-- R250 to R268: words that the spec writes out decode to the instructions they stand for. -/
def Obligations.WordsDecode : Prop :=
  decodeList [0x08102280] = .ok (.ldShort { sw := false, lit := none, d := 8, a := 4, b := 2 }) ∧
  decodeList [0x00001929, 0x12345678, 0] =
    .ok (.moviShort { sw := false, lit := some 0x12345678, d := 6, a := 0, b := 0 }) ∧
  decodeList [0x0C08240C] = .ok (.iaddShort { sw := true, lit := none, d := 9, a := 2, b := 3 }) ∧
  decodeList [0x04081E88] = .ok (.stShort { sw := false, lit := none, d := 7, a := 2, b := 1 }) ∧
  decodeList [0x04000710] = .ok (.gclrShort { sw := false, lit := none, d := 1, a := 0, b := 0 }) ∧
  decodeList [0x000C4FE0] = .ok (.wrsrShort { sw := false, lit := none, d := 0x13, a := 3, b := 0 }) ∧
  decodeList [0] = .error .illegalOpcode ∧ decodeList [0x251, 0, 0] = .error .badLength ∧
  decodeList [0x04000250] = .error .reservedField

/-! ### Steps (R9, R51, R217, R250, R255) -/

/-- What memory holds of the code at translated addresses, one word for each. -/
def Sys2Proof.Claims.codeAt (s : State) (xs : List XOk) : List Word :=
  xs.map (fun x => BitVec.ofNat 32 (leNat (s.bytesAs (s.keyTag x.leaf) x.pa 4)))

/-- R35, R48, R120, R250, R255: where a ready fragment has been selected whose groups nothing stops, and the words at its
address, each of them translated by a leaf that does not migrate and read from memory, decode to an instruction, and the
request of the line finds a free entry, a step executes it; fetching has added to caches, probes and the requests of the
memory side, and may have set bits of the leaves used.  The model's choices in it: log entries 11 and 20. -/
def Obligations.StepRunsTheDecodedInstruction : Prop :=
  ∀ (s : State) (t : Team) (f : Frag) (i : Instr) (x : XOk) (xs : List XOk), s.inbox = [] →
    s.cur = some { team := t.id, frag := f.id } → s.team? t.id = some t → t.frag? f.id = some f → f.st = .ready →
    s.barred t = false → t.lost = false → s.quiet.boundary t f = [] →
    (∀ k y, (x :: xs)[k]? = some y →
      s.quiet.translate t.vi (f.pc + w64 (4 * k)) .fetch 4 f.hm = .ok y ∧ bit y.leaf 6 = false ∧
      s.quiet.migrating y.ea = false ∧ s.quiet.poisoned y.pa 4 = false) →
    s.quiet.noEntry (x.ask t.vi (if t.deadline then 0 else 1) 0) x = false →
    4 * (x :: xs).length = lenOf ((codeAt s.quiet (x :: xs)).headD 0) →
    (∀ l ∈ (s.core t.core).icache, l.vi ≠ t.vi ∨ l.line ≠ f.pc.toNat / 128 ∨ f.mayUse l = false) →
    decodeList (codeAt s.quiet (x :: xs)) = .ok i →
    ∃ u, step s = exec i u ∧
      u = { s with mem := u.mem, tags := u.tags, memPoison := u.memPoison, cores := u.cores, vids := u.vids,
                   side := u.side, out := [] } ∧
      (∀ c, u.core c = { s.core c with icache := (u.core c).icache, l1 := (u.core c).l1, probes := (u.core c).probes }) ∧
      (∀ v, u.vid v = { s.vid v with tlb := (u.vid v).tlb }) ∧
      (∀ a, Untouched s ((x :: xs).map (fun y => (y.ea, 8, y.etag))) a → Memory.read u.mem a = Memory.read s.mem a)

/-- R217, R450: a step always answers a next state, where the moves that stand at the interface are not instructions; an
instruction row needs a fragment that has been selected, and every other row answers a next state in every state.  The fault
of an instruction without a selection is the model's own.  The model's choices in it: log entries 83 and 84. -/
def Obligations.EveryStepAnswers : Prop :=
  (∀ (s : State), (∀ i ∈ s.inbox, form i = none) → ∃ s', step s = .next s') ∧
  (∀ (i : Instr) (s : State), form i = none → ∃ s', exec i s = .next s') ∧
  (∀ (i : Instr) (s : State), (form i).isSome → s.cur = none → exec i s = .fault .noIssuer)

/-- No instruction of a program changes a register of the hub (R428, R479) or the clock (R9). -/
def Obligations.ProgramsKeepTheHub : Prop :=
  ∀ (i : Instr) (s s' : State), (form i).isSome → exec i s = .next s' → s'.hub = s.hub ∧ s'.clock = s.clock

/-- Physical memory keeps its canonical form: addresses strictly rising, and no byte listed that reads as an unlisted one;
from every state, by every step.  The model's choices in it: log entries 2 and 10. -/
def Obligations.StepsKeepMemorySettled : Prop := ∀ (s s' : State), Settled s → step s = .next s' → Settled s'

/-- Memory has its canonical form at reset.  The model's choices in it: log entry 2. -/
def Obligations.ResetIsSettled : Prop := Settled State.reset ∧ ∀ a, Memory.read State.reset.mem a = 0

/-- R52, R53, R112, R203, R214, R394, R429 to R433, R453, R472, R479, R484: the values that the spec gives for reset.  That the
clk and the 1 GHz counter stand at 0 at reset is no value of the spec: log entry 97. -/
def Obligations.ResetValues : Prop :=
  let s := State.reset
  s.hub.phase = 0 ∧ s.hub.reason = 0 ∧ s.hub.door = false ∧ s.hub.result = 0 ∧ s.hub.gzDrop = 0 ∧
  fld s.hub.pwrCfg 0 16 = 1900 ∧ bit s.hub.pwrCfg 16 = true ∧ fld s.hub.pwrCfg 17 4 = 8 ∧ s.power = 0 ∧ s.gated = [] ∧
  (∀ o, (s.disp o).cfg = 0x800000100000 ∧ (s.disp o).time = 0 ∧ (s.dispd o).link = false ∧ (s.dispd o).t0 = none) ∧
  (∀ v, (s.view v).cfg = 0x010100 ∧ (s.view v).gaze = 0x3F0000003F000000 ∧ (s.view v).bwx = 0 ∧ (s.view v).bwy = 0 ∧
    (s.view v).den = 0xFFFFFFFFFFFFFFFF) ∧
  (∀ c, (s.core c).cadence = 1 ∧ (s.core c).gfloor = 1 ∧ (s.core c).dbg = {} ∧ (s.core c).corr = 0 ∧ (s.core c).uncorr = 0 ∧
    (s.core c).qmx = [] ∧ (s.core c).qcp = [] ∧ (s.core c).wbuf = []) ∧
  (∀ v, (s.vi v).cfg = 56 ∧ (s.vi v).troot = 0 ∧ (s.vi v).trapCfg = 0 ∧ (s.vi v).trapEntry = 0 ∧
    (s.vi v).trapMask = 0 ∧ (s.vi v).dbgHalt = 0 ∧ (s.vi v).wdog = 0 ∧ (s.vid v).hintdeg = 0 ∧ (s.vid v).lqCfg = 0) ∧
  (∀ p, (s.part p).geom = (if p = 0 then 0x4BB00 else 0) ∧ (s.part p).quantum = 0x100000) ∧ s.hub.keys = [] ∧ s.teams = [] ∧ s.grids = [] ∧ s.clock.clk = 0 ∧ s.clock.ns = 0
end
end

