-- ==== Sys2Proof/Laws/Lists.lean ====
section
/-! SUPPORT. The keyed lists and sparse stores of State: what a lookup gives after a write, and that writes
keep the canonical form. -/

namespace Sys2Proof.Machine

theorem kfind_kset_same {α : Type} (k : Nat) (v : α) (l : List (Nat × α)) : kfind k (kset k v l) = some v := by
  induction l with
  | nil => simp [kset, kfind]
  | cons e r ih =>
    obtain ⟨j, u⟩ := e
    simp only [kset]
    split
    · simp [kfind]
    · split
      · simp [kfind]
      · simp only [kfind]; rw [if_neg (by omega)]; exact ih

theorem kfind_kset_ne {α : Type} {j k : Nat} (h : j ≠ k) (v : α) (l : List (Nat × α)) :
    kfind j (kset k v l) = kfind j l := by
  induction l with
  | nil => simp [kset, kfind, Ne.symm h]
  | cons e r ih =>
    obtain ⟨i, u⟩ := e
    simp only [kset]
    split
    · simp [kfind, Ne.symm h]
    · split
      · next hi => subst hi; simp [kfind, Ne.symm h]
      · simp only [kfind, ih]

/-- What a lookup gives after a write. -/
theorem kfind_kset {α : Type} (j k : Nat) (v : α) (l : List (Nat × α)) :
    kfind j (kset k v l) = if j = k then some v else kfind j l := by
  split
  · next h => subst h; exact kfind_kset_same ..
  · next h => exact kfind_kset_ne h ..

/-- What a lookup gives after a key is deleted. -/
theorem kfind_kdel {α : Type} (j k : Nat) (l : List (Nat × α)) :
    kfind j (kdel k l) = if j = k then none else kfind j l := by
  unfold kdel
  induction l with
  | nil => simp [kfind]
  | cons e r ih =>
    obtain ⟨i, u⟩ := e
    rw [List.filter_cons]
    by_cases hi : i = k <;> by_cases hj : j = k <;> simp_all [kfind]; grind

theorem kget_kset {α : Type} (d : α) (j k : Nat) (v : α) (l : List (Nat × α)) :
    kget d j (kset k v l) = if j = k then v else kget d j l := by
  unfold kget; rw [kfind_kset]; by_cases h : j = k <;> simp [h]

/-- What a sparse store reads as after a write. -/
theorem zget_zset {w : Nat} (j k : Nat) (v : BitVec w) (l : List (Nat × BitVec w)) :
    zget j (zset k v l) = if j = k then v else zget j l := by
  unfold zget zset
  split
  · next h => subst h; unfold kget; rw [kfind_kdel]; by_cases h : j = k <;> simp [h]
  · exact kget_kset ..

@[simp] theorem zget_nil {w : Nat} (j : Nat) : zget j ([] : List (Nat × BitVec w)) = 0 := rfl
@[simp] theorem kfind_nil {α : Type} (j : Nat) : kfind j ([] : List (Nat × α)) = none := rfl

/-- The canonical form, said of the whole list at once. -/
theorem zwf_iff {w : Nat} (l : List (Nat × BitVec w)) :
    zwf l = true ↔ l.Pairwise (fun a b => a.1 < b.1) ∧ ∀ e ∈ l, e.2 ≠ 0 := by
  induction l with
  | nil => simp [zwf]
  | cons e r ih =>
    obtain ⟨j, u⟩ := e
    cases r with
    | nil => simp [zwf]
    | cons e' r' =>
      obtain ⟨k, v⟩ := e'
      simp only [zwf, Bool.and_eq_true, decide_eq_true_eq, bne_iff_ne, ih]
      constructor
      · rintro ⟨⟨hjk, hu⟩, hp, hz⟩
        refine ⟨List.pairwise_cons.2 ⟨?_, hp⟩, ?_⟩
        · intro a ha
          rcases List.mem_cons.1 ha with rfl | ha
          · exact hjk
          · exact Nat.lt_trans hjk ((List.pairwise_cons.1 hp).1 a ha)
        · intro a ha
          rcases List.mem_cons.1 ha with rfl | ha
          · exact hu
          · exact hz a ha
      · rintro ⟨hp, hz⟩
        obtain ⟨h1, h2⟩ := List.pairwise_cons.1 hp
        exact ⟨⟨h1 (k, v) (by simp), hz (j, u) (by simp)⟩, h2, fun a ha => hz a (List.mem_cons_of_mem _ ha)⟩

theorem mem_kset {α : Type} {k : Nat} {v : α} {l : List (Nat × α)} {e : Nat × α} (h : e ∈ kset k v l) :
    e = (k, v) ∨ e ∈ l := by
  induction l with
  | nil => simpa [kset] using h
  | cons x r ih =>
    obtain ⟨j, u⟩ := x
    simp only [kset] at h
    split at h
    · simpa using h
    · split at h
      · rcases List.mem_cons.1 h with h | h
        · exact .inl h
        · exact .inr (List.mem_cons_of_mem _ h)
      · rcases List.mem_cons.1 h with h | h
        · exact .inr (h ▸ List.mem_cons_self)
        · exact (ih h).imp_right (List.mem_cons_of_mem _)

theorem kset_sorted {α : Type} (k : Nat) (v : α) (l : List (Nat × α))
    (h : l.Pairwise (fun a b => a.1 < b.1)) : (kset k v l).Pairwise (fun a b => a.1 < b.1) := by
  induction l with
  | nil => simp [kset]
  | cons x r ih =>
    obtain ⟨j, u⟩ := x
    obtain ⟨h1, h2⟩ := List.pairwise_cons.1 h
    simp only [kset]
    split
    · next hk =>
      refine List.pairwise_cons.2 ⟨?_, h⟩
      intro a ha
      rcases List.mem_cons.1 ha with rfl | ha
      · exact hk
      · exact Nat.lt_trans hk (h1 a ha)
    · split
      · next hj => subst hj; exact List.pairwise_cons.2 ⟨h1, h2⟩
      · refine List.pairwise_cons.2 ⟨?_, ih h2⟩
        intro a ha
        rcases mem_kset ha with rfl | ha
        · change j < k; omega
        · exact h1 a ha

/-- A part of a canonical list is canonical. -/
theorem zwf_filter {w : Nat} (p : Nat × BitVec w → Bool) {l : List (Nat × BitVec w)} (h : zwf l = true) :
    zwf (l.filter p) = true := by
  rw [zwf_iff] at *
  exact ⟨h.1.filter _, fun e he => h.2 e (List.mem_filter.1 he).1⟩

/-- A write keeps the canonical form. -/
theorem zwf_zset {w : Nat} (k : Nat) (v : BitVec w) {l : List (Nat × BitVec w)} (h : zwf l = true) :
    zwf (zset k v l) = true := by
  unfold zset
  split
  · exact zwf_filter _ h
  · next hv =>
    rw [zwf_iff] at *
    refine ⟨kset_sorted _ _ _ h.1, fun e he => ?_⟩
    rcases mem_kset he with rfl | he
    · exact hv
    · exact h.2 e he

end Sys2Proof.Machine
end

