-- ==== Sys2Proof/Laws/State.lean ====
section
/-! SUPPORT. What each update of State, of a team and of a home group leaves alone, field by field, so that
no later proof unfolds a record. -/

namespace Sys2Proof.Machine

@[simp] theorem State.setTeam_mem (s : State) (t : Team) : (s.setTeam t).mem = s.mem := rfl
@[simp] theorem State.setTeam_out (s : State) (t : Team) : (s.setTeam t).out = s.out := rfl
@[simp] theorem State.setTeam_tags (s : State) (t : Team) : (s.setTeam t).tags = s.tags := rfl
@[simp] theorem State.setTeam_memPoison (s : State) (t : Team) : (s.setTeam t).memPoison = s.memPoison := rfl
@[simp] theorem State.setTeam_hub (s : State) (t : Team) : (s.setTeam t).hub = s.hub := rfl
@[simp] theorem State.setTeam_clock (s : State) (t : Team) : (s.setTeam t).clock = s.clock := rfl
@[simp] theorem State.setTeam_cores (s : State) (t : Team) : (s.setTeam t).cores = s.cores := rfl
@[simp] theorem State.setTeam_grids (s : State) (t : Team) : (s.setTeam t).grids = s.grids := rfl
@[simp] theorem State.setTeam_vids (s : State) (t : Team) : (s.setTeam t).vids = s.vids := rfl
@[simp] theorem State.setTeam_partds (s : State) (t : Team) : (s.setTeam t).partds = s.partds := rfl
@[simp] theorem State.setTeam_dispds (s : State) (t : Team) : (s.setTeam t).dispds = s.dispds := rfl
@[simp] theorem State.setTeam_snubs (s : State) (t : Team) : (s.setTeam t).snubs = s.snubs := rfl
@[simp] theorem State.setTeam_power (s : State) (t : Team) : (s.setTeam t).power = s.power := rfl
@[simp] theorem State.setTeam_gated (s : State) (t : Team) : (s.setTeam t).gated = s.gated := rfl
@[simp] theorem State.setTeam_sweep (s : State) (t : Team) : (s.setTeam t).sweep = s.sweep := rfl
@[simp] theorem State.setTeam_side (s : State) (t : Team) : (s.setTeam t).side = s.side := rfl
@[simp] theorem State.setTeam_ticket (s : State) (t : Team) : (s.setTeam t).ticket = s.ticket := rfl
@[simp] theorem State.setTeam_tickDie (s : State) (t : Team) : (s.setTeam t).tickDie = s.tickDie := rfl
@[simp] theorem State.setTeam_tickReq (s : State) (t : Team) : (s.setTeam t).tickReq = s.tickReq := rfl
@[simp] theorem State.setTeam_homeCount (s : State) (t : Team) : (s.setTeam t).homeCount = s.homeCount := rfl
@[simp] theorem State.setTeam_held (s : State) (t : Team) : (s.setTeam t).held = s.held := rfl
@[simp] theorem State.setTeam_nextId (s : State) (t : Team) : (s.setTeam t).nextId = s.nextId := rfl
@[simp] theorem State.setTeam_inbox (s : State) (t : Team) : (s.setTeam t).inbox = s.inbox := rfl
@[simp] theorem State.setTeam_cur (s : State) (t : Team) : (s.setTeam t).cur = s.cur := rfl
@[simp] theorem State.setTeam_rot (s : State) (t : Team) : (s.setTeam t).rot = s.rot := rfl
@[simp] theorem State.setTeam_free (s : State) (t : Team) : (s.setTeam t).free = s.free := rfl

@[simp] theorem State.delTeam_mem (s : State) (i : Nat) : (s.delTeam i).mem = s.mem := rfl
@[simp] theorem State.delTeam_out (s : State) (i : Nat) : (s.delTeam i).out = s.out := rfl
@[simp] theorem State.delTeam_tags (s : State) (i : Nat) : (s.delTeam i).tags = s.tags := rfl
@[simp] theorem State.delTeam_memPoison (s : State) (i : Nat) : (s.delTeam i).memPoison = s.memPoison := rfl
@[simp] theorem State.delTeam_hub (s : State) (i : Nat) : (s.delTeam i).hub = s.hub := rfl
@[simp] theorem State.delTeam_clock (s : State) (i : Nat) : (s.delTeam i).clock = s.clock := rfl
@[simp] theorem State.delTeam_cores (s : State) (i : Nat) : (s.delTeam i).cores = s.cores := rfl
@[simp] theorem State.delTeam_grids (s : State) (i : Nat) : (s.delTeam i).grids = s.grids := rfl
@[simp] theorem State.delTeam_vids (s : State) (i : Nat) : (s.delTeam i).vids = s.vids := rfl
@[simp] theorem State.delTeam_partds (s : State) (i : Nat) : (s.delTeam i).partds = s.partds := rfl
@[simp] theorem State.delTeam_dispds (s : State) (i : Nat) : (s.delTeam i).dispds = s.dispds := rfl
@[simp] theorem State.delTeam_snubs (s : State) (i : Nat) : (s.delTeam i).snubs = s.snubs := rfl
@[simp] theorem State.delTeam_power (s : State) (i : Nat) : (s.delTeam i).power = s.power := rfl
@[simp] theorem State.delTeam_gated (s : State) (i : Nat) : (s.delTeam i).gated = s.gated := rfl
@[simp] theorem State.delTeam_sweep (s : State) (i : Nat) : (s.delTeam i).sweep = s.sweep := rfl
@[simp] theorem State.delTeam_side (s : State) (i : Nat) : (s.delTeam i).side = s.side := rfl
@[simp] theorem State.delTeam_ticket (s : State) (i : Nat) : (s.delTeam i).ticket = s.ticket := rfl
@[simp] theorem State.delTeam_tickDie (s : State) (i : Nat) : (s.delTeam i).tickDie = s.tickDie := rfl
@[simp] theorem State.delTeam_tickReq (s : State) (i : Nat) : (s.delTeam i).tickReq = s.tickReq := rfl
@[simp] theorem State.delTeam_homeCount (s : State) (i : Nat) : (s.delTeam i).homeCount = s.homeCount := rfl
@[simp] theorem State.delTeam_held (s : State) (i : Nat) : (s.delTeam i).held = s.held := rfl
@[simp] theorem State.delTeam_nextId (s : State) (i : Nat) : (s.delTeam i).nextId = s.nextId := rfl
@[simp] theorem State.delTeam_inbox (s : State) (i : Nat) : (s.delTeam i).inbox = s.inbox := rfl
@[simp] theorem State.delTeam_cur (s : State) (i : Nat) : (s.delTeam i).cur = s.cur := rfl
@[simp] theorem State.delTeam_rot (s : State) (i : Nat) : (s.delTeam i).rot = s.rot := rfl
@[simp] theorem State.delTeam_free (s : State) (i : Nat) : (s.delTeam i).free = s.free := rfl

@[simp] theorem State.modTeam_mem (s : State) (i : Nat) (f : Team → Team) : (s.modTeam i f).mem = s.mem := by unfold State.modTeam; split <;> rfl
@[simp] theorem State.modTeam_out (s : State) (i : Nat) (f : Team → Team) : (s.modTeam i f).out = s.out := by unfold State.modTeam; split <;> rfl
@[simp] theorem State.modTeam_tags (s : State) (i : Nat) (f : Team → Team) : (s.modTeam i f).tags = s.tags := by unfold State.modTeam; split <;> rfl
@[simp] theorem State.modTeam_memPoison (s : State) (i : Nat) (f : Team → Team) : (s.modTeam i f).memPoison = s.memPoison := by unfold State.modTeam; split <;> rfl
@[simp] theorem State.modTeam_hub (s : State) (i : Nat) (f : Team → Team) : (s.modTeam i f).hub = s.hub := by unfold State.modTeam; split <;> rfl
@[simp] theorem State.modTeam_clock (s : State) (i : Nat) (f : Team → Team) : (s.modTeam i f).clock = s.clock := by unfold State.modTeam; split <;> rfl
@[simp] theorem State.modTeam_cores (s : State) (i : Nat) (f : Team → Team) : (s.modTeam i f).cores = s.cores := by unfold State.modTeam; split <;> rfl
@[simp] theorem State.modTeam_grids (s : State) (i : Nat) (f : Team → Team) : (s.modTeam i f).grids = s.grids := by unfold State.modTeam; split <;> rfl
@[simp] theorem State.modTeam_vids (s : State) (i : Nat) (f : Team → Team) : (s.modTeam i f).vids = s.vids := by unfold State.modTeam; split <;> rfl
@[simp] theorem State.modTeam_partds (s : State) (i : Nat) (f : Team → Team) : (s.modTeam i f).partds = s.partds := by unfold State.modTeam; split <;> rfl
@[simp] theorem State.modTeam_dispds (s : State) (i : Nat) (f : Team → Team) : (s.modTeam i f).dispds = s.dispds := by unfold State.modTeam; split <;> rfl
@[simp] theorem State.modTeam_snubs (s : State) (i : Nat) (f : Team → Team) : (s.modTeam i f).snubs = s.snubs := by unfold State.modTeam; split <;> rfl
@[simp] theorem State.modTeam_power (s : State) (i : Nat) (f : Team → Team) : (s.modTeam i f).power = s.power := by unfold State.modTeam; split <;> rfl
@[simp] theorem State.modTeam_gated (s : State) (i : Nat) (f : Team → Team) : (s.modTeam i f).gated = s.gated := by unfold State.modTeam; split <;> rfl
@[simp] theorem State.modTeam_sweep (s : State) (i : Nat) (f : Team → Team) : (s.modTeam i f).sweep = s.sweep := by unfold State.modTeam; split <;> rfl
@[simp] theorem State.modTeam_side (s : State) (i : Nat) (f : Team → Team) : (s.modTeam i f).side = s.side := by unfold State.modTeam; split <;> rfl
@[simp] theorem State.modTeam_ticket (s : State) (i : Nat) (f : Team → Team) : (s.modTeam i f).ticket = s.ticket := by unfold State.modTeam; split <;> rfl
@[simp] theorem State.modTeam_tickDie (s : State) (i : Nat) (f : Team → Team) : (s.modTeam i f).tickDie = s.tickDie := by unfold State.modTeam; split <;> rfl
@[simp] theorem State.modTeam_tickReq (s : State) (i : Nat) (f : Team → Team) : (s.modTeam i f).tickReq = s.tickReq := by unfold State.modTeam; split <;> rfl
@[simp] theorem State.modTeam_homeCount (s : State) (i : Nat) (f : Team → Team) : (s.modTeam i f).homeCount = s.homeCount := by unfold State.modTeam; split <;> rfl
@[simp] theorem State.modTeam_held (s : State) (i : Nat) (f : Team → Team) : (s.modTeam i f).held = s.held := by unfold State.modTeam; split <;> rfl
@[simp] theorem State.modTeam_nextId (s : State) (i : Nat) (f : Team → Team) : (s.modTeam i f).nextId = s.nextId := by unfold State.modTeam; split <;> rfl
@[simp] theorem State.modTeam_inbox (s : State) (i : Nat) (f : Team → Team) : (s.modTeam i f).inbox = s.inbox := by unfold State.modTeam; split <;> rfl
@[simp] theorem State.modTeam_cur (s : State) (i : Nat) (f : Team → Team) : (s.modTeam i f).cur = s.cur := by unfold State.modTeam; split <;> rfl
@[simp] theorem State.modTeam_rot (s : State) (i : Nat) (f : Team → Team) : (s.modTeam i f).rot = s.rot := by unfold State.modTeam; split <;> rfl
@[simp] theorem State.modTeam_free (s : State) (i : Nat) (f : Team → Team) : (s.modTeam i f).free = s.free := by unfold State.modTeam; split <;> rfl

@[simp] theorem State.modGroup_mem (s : State) (t g : Nat) (f : Group → Group) : (s.modGroup t g f).mem = s.mem := by unfold State.modGroup; simp
@[simp] theorem State.modGroup_out (s : State) (t g : Nat) (f : Group → Group) : (s.modGroup t g f).out = s.out := by unfold State.modGroup; simp
@[simp] theorem State.modGroup_tags (s : State) (t g : Nat) (f : Group → Group) : (s.modGroup t g f).tags = s.tags := by unfold State.modGroup; simp
@[simp] theorem State.modGroup_memPoison (s : State) (t g : Nat) (f : Group → Group) : (s.modGroup t g f).memPoison = s.memPoison := by unfold State.modGroup; simp
@[simp] theorem State.modGroup_hub (s : State) (t g : Nat) (f : Group → Group) : (s.modGroup t g f).hub = s.hub := by unfold State.modGroup; simp
@[simp] theorem State.modGroup_clock (s : State) (t g : Nat) (f : Group → Group) : (s.modGroup t g f).clock = s.clock := by unfold State.modGroup; simp
@[simp] theorem State.modGroup_cores (s : State) (t g : Nat) (f : Group → Group) : (s.modGroup t g f).cores = s.cores := by unfold State.modGroup; simp
@[simp] theorem State.modGroup_grids (s : State) (t g : Nat) (f : Group → Group) : (s.modGroup t g f).grids = s.grids := by unfold State.modGroup; simp
@[simp] theorem State.modGroup_vids (s : State) (t g : Nat) (f : Group → Group) : (s.modGroup t g f).vids = s.vids := by unfold State.modGroup; simp
@[simp] theorem State.modGroup_partds (s : State) (t g : Nat) (f : Group → Group) : (s.modGroup t g f).partds = s.partds := by unfold State.modGroup; simp
@[simp] theorem State.modGroup_dispds (s : State) (t g : Nat) (f : Group → Group) : (s.modGroup t g f).dispds = s.dispds := by unfold State.modGroup; simp
@[simp] theorem State.modGroup_snubs (s : State) (t g : Nat) (f : Group → Group) : (s.modGroup t g f).snubs = s.snubs := by unfold State.modGroup; simp
@[simp] theorem State.modGroup_power (s : State) (t g : Nat) (f : Group → Group) : (s.modGroup t g f).power = s.power := by unfold State.modGroup; simp
@[simp] theorem State.modGroup_gated (s : State) (t g : Nat) (f : Group → Group) : (s.modGroup t g f).gated = s.gated := by unfold State.modGroup; simp
@[simp] theorem State.modGroup_sweep (s : State) (t g : Nat) (f : Group → Group) : (s.modGroup t g f).sweep = s.sweep := by unfold State.modGroup; simp
@[simp] theorem State.modGroup_side (s : State) (t g : Nat) (f : Group → Group) : (s.modGroup t g f).side = s.side := by unfold State.modGroup; simp
@[simp] theorem State.modGroup_ticket (s : State) (t g : Nat) (f : Group → Group) : (s.modGroup t g f).ticket = s.ticket := by unfold State.modGroup; simp
@[simp] theorem State.modGroup_tickDie (s : State) (t g : Nat) (f : Group → Group) : (s.modGroup t g f).tickDie = s.tickDie := by unfold State.modGroup; simp
@[simp] theorem State.modGroup_tickReq (s : State) (t g : Nat) (f : Group → Group) : (s.modGroup t g f).tickReq = s.tickReq := by unfold State.modGroup; simp
@[simp] theorem State.modGroup_homeCount (s : State) (t g : Nat) (f : Group → Group) : (s.modGroup t g f).homeCount = s.homeCount := by unfold State.modGroup; simp
@[simp] theorem State.modGroup_held (s : State) (t g : Nat) (f : Group → Group) : (s.modGroup t g f).held = s.held := by unfold State.modGroup; simp
@[simp] theorem State.modGroup_nextId (s : State) (t g : Nat) (f : Group → Group) : (s.modGroup t g f).nextId = s.nextId := by unfold State.modGroup; simp
@[simp] theorem State.modGroup_inbox (s : State) (t g : Nat) (f : Group → Group) : (s.modGroup t g f).inbox = s.inbox := by unfold State.modGroup; simp
@[simp] theorem State.modGroup_cur (s : State) (t g : Nat) (f : Group → Group) : (s.modGroup t g f).cur = s.cur := by unfold State.modGroup; simp
@[simp] theorem State.modGroup_rot (s : State) (t g : Nat) (f : Group → Group) : (s.modGroup t g f).rot = s.rot := by unfold State.modGroup; simp
@[simp] theorem State.modGroup_free (s : State) (t g : Nat) (f : Group → Group) : (s.modGroup t g f).free = s.free := by unfold State.modGroup; simp

@[simp] theorem State.setCore_mem (s : State) (c : Nat) (k : Core) : (s.setCore c k).mem = s.mem := rfl
@[simp] theorem State.setCore_out (s : State) (c : Nat) (k : Core) : (s.setCore c k).out = s.out := rfl
@[simp] theorem State.setCore_tags (s : State) (c : Nat) (k : Core) : (s.setCore c k).tags = s.tags := rfl
@[simp] theorem State.setCore_memPoison (s : State) (c : Nat) (k : Core) : (s.setCore c k).memPoison = s.memPoison := rfl
@[simp] theorem State.setCore_hub (s : State) (c : Nat) (k : Core) : (s.setCore c k).hub = s.hub := rfl
@[simp] theorem State.setCore_clock (s : State) (c : Nat) (k : Core) : (s.setCore c k).clock = s.clock := rfl
@[simp] theorem State.setCore_teams (s : State) (c : Nat) (k : Core) : (s.setCore c k).teams = s.teams := rfl
@[simp] theorem State.setCore_grids (s : State) (c : Nat) (k : Core) : (s.setCore c k).grids = s.grids := rfl
@[simp] theorem State.setCore_vids (s : State) (c : Nat) (k : Core) : (s.setCore c k).vids = s.vids := rfl
@[simp] theorem State.setCore_partds (s : State) (c : Nat) (k : Core) : (s.setCore c k).partds = s.partds := rfl
@[simp] theorem State.setCore_dispds (s : State) (c : Nat) (k : Core) : (s.setCore c k).dispds = s.dispds := rfl
@[simp] theorem State.setCore_snubs (s : State) (c : Nat) (k : Core) : (s.setCore c k).snubs = s.snubs := rfl
@[simp] theorem State.setCore_power (s : State) (c : Nat) (k : Core) : (s.setCore c k).power = s.power := rfl
@[simp] theorem State.setCore_gated (s : State) (c : Nat) (k : Core) : (s.setCore c k).gated = s.gated := rfl
@[simp] theorem State.setCore_sweep (s : State) (c : Nat) (k : Core) : (s.setCore c k).sweep = s.sweep := rfl
@[simp] theorem State.setCore_side (s : State) (c : Nat) (k : Core) : (s.setCore c k).side = s.side := rfl
@[simp] theorem State.setCore_ticket (s : State) (c : Nat) (k : Core) : (s.setCore c k).ticket = s.ticket := rfl
@[simp] theorem State.setCore_tickDie (s : State) (c : Nat) (k : Core) : (s.setCore c k).tickDie = s.tickDie := rfl
@[simp] theorem State.setCore_tickReq (s : State) (c : Nat) (k : Core) : (s.setCore c k).tickReq = s.tickReq := rfl
@[simp] theorem State.setCore_homeCount (s : State) (c : Nat) (k : Core) : (s.setCore c k).homeCount = s.homeCount := rfl
@[simp] theorem State.setCore_held (s : State) (c : Nat) (k : Core) : (s.setCore c k).held = s.held := rfl
@[simp] theorem State.setCore_nextId (s : State) (c : Nat) (k : Core) : (s.setCore c k).nextId = s.nextId := rfl
@[simp] theorem State.setCore_inbox (s : State) (c : Nat) (k : Core) : (s.setCore c k).inbox = s.inbox := rfl
@[simp] theorem State.setCore_cur (s : State) (c : Nat) (k : Core) : (s.setCore c k).cur = s.cur := rfl
@[simp] theorem State.setCore_rot (s : State) (c : Nat) (k : Core) : (s.setCore c k).rot = s.rot := rfl
@[simp] theorem State.setCore_free (s : State) (c : Nat) (k : Core) : (s.setCore c k).free = s.free := rfl

@[simp] theorem State.modCore_mem (s : State) (c : Nat) (f : Core → Core) : (s.modCore c f).mem = s.mem := rfl
@[simp] theorem State.modCore_out (s : State) (c : Nat) (f : Core → Core) : (s.modCore c f).out = s.out := rfl
@[simp] theorem State.modCore_tags (s : State) (c : Nat) (f : Core → Core) : (s.modCore c f).tags = s.tags := rfl
@[simp] theorem State.modCore_memPoison (s : State) (c : Nat) (f : Core → Core) : (s.modCore c f).memPoison = s.memPoison := rfl
@[simp] theorem State.modCore_hub (s : State) (c : Nat) (f : Core → Core) : (s.modCore c f).hub = s.hub := rfl
@[simp] theorem State.modCore_clock (s : State) (c : Nat) (f : Core → Core) : (s.modCore c f).clock = s.clock := rfl
@[simp] theorem State.modCore_teams (s : State) (c : Nat) (f : Core → Core) : (s.modCore c f).teams = s.teams := rfl
@[simp] theorem State.modCore_grids (s : State) (c : Nat) (f : Core → Core) : (s.modCore c f).grids = s.grids := rfl
@[simp] theorem State.modCore_vids (s : State) (c : Nat) (f : Core → Core) : (s.modCore c f).vids = s.vids := rfl
@[simp] theorem State.modCore_partds (s : State) (c : Nat) (f : Core → Core) : (s.modCore c f).partds = s.partds := rfl
@[simp] theorem State.modCore_dispds (s : State) (c : Nat) (f : Core → Core) : (s.modCore c f).dispds = s.dispds := rfl
@[simp] theorem State.modCore_snubs (s : State) (c : Nat) (f : Core → Core) : (s.modCore c f).snubs = s.snubs := rfl
@[simp] theorem State.modCore_power (s : State) (c : Nat) (f : Core → Core) : (s.modCore c f).power = s.power := rfl
@[simp] theorem State.modCore_gated (s : State) (c : Nat) (f : Core → Core) : (s.modCore c f).gated = s.gated := rfl
@[simp] theorem State.modCore_sweep (s : State) (c : Nat) (f : Core → Core) : (s.modCore c f).sweep = s.sweep := rfl
@[simp] theorem State.modCore_side (s : State) (c : Nat) (f : Core → Core) : (s.modCore c f).side = s.side := rfl
@[simp] theorem State.modCore_ticket (s : State) (c : Nat) (f : Core → Core) : (s.modCore c f).ticket = s.ticket := rfl
@[simp] theorem State.modCore_tickDie (s : State) (c : Nat) (f : Core → Core) : (s.modCore c f).tickDie = s.tickDie := rfl
@[simp] theorem State.modCore_tickReq (s : State) (c : Nat) (f : Core → Core) : (s.modCore c f).tickReq = s.tickReq := rfl
@[simp] theorem State.modCore_homeCount (s : State) (c : Nat) (f : Core → Core) : (s.modCore c f).homeCount = s.homeCount := rfl
@[simp] theorem State.modCore_held (s : State) (c : Nat) (f : Core → Core) : (s.modCore c f).held = s.held := rfl
@[simp] theorem State.modCore_nextId (s : State) (c : Nat) (f : Core → Core) : (s.modCore c f).nextId = s.nextId := rfl
@[simp] theorem State.modCore_inbox (s : State) (c : Nat) (f : Core → Core) : (s.modCore c f).inbox = s.inbox := rfl
@[simp] theorem State.modCore_cur (s : State) (c : Nat) (f : Core → Core) : (s.modCore c f).cur = s.cur := rfl
@[simp] theorem State.modCore_rot (s : State) (c : Nat) (f : Core → Core) : (s.modCore c f).rot = s.rot := rfl
@[simp] theorem State.modCore_free (s : State) (c : Nat) (f : Core → Core) : (s.modCore c f).free = s.free := rfl

@[simp] theorem State.modGrid_mem (s : State) (i : Nat) (f : Grid → Grid) : (s.modGrid i f).mem = s.mem := by unfold State.modGrid; split <;> rfl
@[simp] theorem State.modGrid_out (s : State) (i : Nat) (f : Grid → Grid) : (s.modGrid i f).out = s.out := by unfold State.modGrid; split <;> rfl
@[simp] theorem State.modGrid_tags (s : State) (i : Nat) (f : Grid → Grid) : (s.modGrid i f).tags = s.tags := by unfold State.modGrid; split <;> rfl
@[simp] theorem State.modGrid_memPoison (s : State) (i : Nat) (f : Grid → Grid) : (s.modGrid i f).memPoison = s.memPoison := by unfold State.modGrid; split <;> rfl
@[simp] theorem State.modGrid_hub (s : State) (i : Nat) (f : Grid → Grid) : (s.modGrid i f).hub = s.hub := by unfold State.modGrid; split <;> rfl
@[simp] theorem State.modGrid_clock (s : State) (i : Nat) (f : Grid → Grid) : (s.modGrid i f).clock = s.clock := by unfold State.modGrid; split <;> rfl
@[simp] theorem State.modGrid_cores (s : State) (i : Nat) (f : Grid → Grid) : (s.modGrid i f).cores = s.cores := by unfold State.modGrid; split <;> rfl
@[simp] theorem State.modGrid_teams (s : State) (i : Nat) (f : Grid → Grid) : (s.modGrid i f).teams = s.teams := by unfold State.modGrid; split <;> rfl
@[simp] theorem State.modGrid_vids (s : State) (i : Nat) (f : Grid → Grid) : (s.modGrid i f).vids = s.vids := by unfold State.modGrid; split <;> rfl
@[simp] theorem State.modGrid_partds (s : State) (i : Nat) (f : Grid → Grid) : (s.modGrid i f).partds = s.partds := by unfold State.modGrid; split <;> rfl
@[simp] theorem State.modGrid_dispds (s : State) (i : Nat) (f : Grid → Grid) : (s.modGrid i f).dispds = s.dispds := by unfold State.modGrid; split <;> rfl
@[simp] theorem State.modGrid_snubs (s : State) (i : Nat) (f : Grid → Grid) : (s.modGrid i f).snubs = s.snubs := by unfold State.modGrid; split <;> rfl
@[simp] theorem State.modGrid_power (s : State) (i : Nat) (f : Grid → Grid) : (s.modGrid i f).power = s.power := by unfold State.modGrid; split <;> rfl
@[simp] theorem State.modGrid_gated (s : State) (i : Nat) (f : Grid → Grid) : (s.modGrid i f).gated = s.gated := by unfold State.modGrid; split <;> rfl
@[simp] theorem State.modGrid_sweep (s : State) (i : Nat) (f : Grid → Grid) : (s.modGrid i f).sweep = s.sweep := by unfold State.modGrid; split <;> rfl
@[simp] theorem State.modGrid_side (s : State) (i : Nat) (f : Grid → Grid) : (s.modGrid i f).side = s.side := by unfold State.modGrid; split <;> rfl
@[simp] theorem State.modGrid_ticket (s : State) (i : Nat) (f : Grid → Grid) : (s.modGrid i f).ticket = s.ticket := by unfold State.modGrid; split <;> rfl
@[simp] theorem State.modGrid_tickDie (s : State) (i : Nat) (f : Grid → Grid) : (s.modGrid i f).tickDie = s.tickDie := by unfold State.modGrid; split <;> rfl
@[simp] theorem State.modGrid_tickReq (s : State) (i : Nat) (f : Grid → Grid) : (s.modGrid i f).tickReq = s.tickReq := by unfold State.modGrid; split <;> rfl
@[simp] theorem State.modGrid_homeCount (s : State) (i : Nat) (f : Grid → Grid) : (s.modGrid i f).homeCount = s.homeCount := by unfold State.modGrid; split <;> rfl
@[simp] theorem State.modGrid_held (s : State) (i : Nat) (f : Grid → Grid) : (s.modGrid i f).held = s.held := by unfold State.modGrid; split <;> rfl
@[simp] theorem State.modGrid_nextId (s : State) (i : Nat) (f : Grid → Grid) : (s.modGrid i f).nextId = s.nextId := by unfold State.modGrid; split <;> rfl
@[simp] theorem State.modGrid_inbox (s : State) (i : Nat) (f : Grid → Grid) : (s.modGrid i f).inbox = s.inbox := by unfold State.modGrid; split <;> rfl
@[simp] theorem State.modGrid_cur (s : State) (i : Nat) (f : Grid → Grid) : (s.modGrid i f).cur = s.cur := by unfold State.modGrid; split <;> rfl
@[simp] theorem State.modGrid_rot (s : State) (i : Nat) (f : Grid → Grid) : (s.modGrid i f).rot = s.rot := by unfold State.modGrid; split <;> rfl
@[simp] theorem State.modGrid_free (s : State) (i : Nat) (f : Grid → Grid) : (s.modGrid i f).free = s.free := by unfold State.modGrid; split <;> rfl

@[simp] theorem State.modVid_mem (s : State) (v : Nat) (f : ViDyn → ViDyn) : (s.modVid v f).mem = s.mem := rfl
@[simp] theorem State.modVid_out (s : State) (v : Nat) (f : ViDyn → ViDyn) : (s.modVid v f).out = s.out := rfl
@[simp] theorem State.modVid_tags (s : State) (v : Nat) (f : ViDyn → ViDyn) : (s.modVid v f).tags = s.tags := rfl
@[simp] theorem State.modVid_memPoison (s : State) (v : Nat) (f : ViDyn → ViDyn) : (s.modVid v f).memPoison = s.memPoison := rfl
@[simp] theorem State.modVid_hub (s : State) (v : Nat) (f : ViDyn → ViDyn) : (s.modVid v f).hub = s.hub := rfl
@[simp] theorem State.modVid_clock (s : State) (v : Nat) (f : ViDyn → ViDyn) : (s.modVid v f).clock = s.clock := rfl
@[simp] theorem State.modVid_cores (s : State) (v : Nat) (f : ViDyn → ViDyn) : (s.modVid v f).cores = s.cores := rfl
@[simp] theorem State.modVid_teams (s : State) (v : Nat) (f : ViDyn → ViDyn) : (s.modVid v f).teams = s.teams := rfl
@[simp] theorem State.modVid_grids (s : State) (v : Nat) (f : ViDyn → ViDyn) : (s.modVid v f).grids = s.grids := rfl
@[simp] theorem State.modVid_partds (s : State) (v : Nat) (f : ViDyn → ViDyn) : (s.modVid v f).partds = s.partds := rfl
@[simp] theorem State.modVid_dispds (s : State) (v : Nat) (f : ViDyn → ViDyn) : (s.modVid v f).dispds = s.dispds := rfl
@[simp] theorem State.modVid_snubs (s : State) (v : Nat) (f : ViDyn → ViDyn) : (s.modVid v f).snubs = s.snubs := rfl
@[simp] theorem State.modVid_power (s : State) (v : Nat) (f : ViDyn → ViDyn) : (s.modVid v f).power = s.power := rfl
@[simp] theorem State.modVid_gated (s : State) (v : Nat) (f : ViDyn → ViDyn) : (s.modVid v f).gated = s.gated := rfl
@[simp] theorem State.modVid_sweep (s : State) (v : Nat) (f : ViDyn → ViDyn) : (s.modVid v f).sweep = s.sweep := rfl
@[simp] theorem State.modVid_side (s : State) (v : Nat) (f : ViDyn → ViDyn) : (s.modVid v f).side = s.side := rfl
@[simp] theorem State.modVid_ticket (s : State) (v : Nat) (f : ViDyn → ViDyn) : (s.modVid v f).ticket = s.ticket := rfl
@[simp] theorem State.modVid_tickDie (s : State) (v : Nat) (f : ViDyn → ViDyn) : (s.modVid v f).tickDie = s.tickDie := rfl
@[simp] theorem State.modVid_tickReq (s : State) (v : Nat) (f : ViDyn → ViDyn) : (s.modVid v f).tickReq = s.tickReq := rfl
@[simp] theorem State.modVid_homeCount (s : State) (v : Nat) (f : ViDyn → ViDyn) : (s.modVid v f).homeCount = s.homeCount := rfl
@[simp] theorem State.modVid_held (s : State) (v : Nat) (f : ViDyn → ViDyn) : (s.modVid v f).held = s.held := rfl
@[simp] theorem State.modVid_nextId (s : State) (v : Nat) (f : ViDyn → ViDyn) : (s.modVid v f).nextId = s.nextId := rfl
@[simp] theorem State.modVid_inbox (s : State) (v : Nat) (f : ViDyn → ViDyn) : (s.modVid v f).inbox = s.inbox := rfl
@[simp] theorem State.modVid_cur (s : State) (v : Nat) (f : ViDyn → ViDyn) : (s.modVid v f).cur = s.cur := rfl
@[simp] theorem State.modVid_rot (s : State) (v : Nat) (f : ViDyn → ViDyn) : (s.modVid v f).rot = s.rot := rfl
@[simp] theorem State.modVid_free (s : State) (v : Nat) (f : ViDyn → ViDyn) : (s.modVid v f).free = s.free := rfl

@[simp] theorem State.modPartd_mem (s : State) (p : Nat) (f : PartDyn → PartDyn) : (s.modPartd p f).mem = s.mem := rfl
@[simp] theorem State.modPartd_out (s : State) (p : Nat) (f : PartDyn → PartDyn) : (s.modPartd p f).out = s.out := rfl
@[simp] theorem State.modPartd_tags (s : State) (p : Nat) (f : PartDyn → PartDyn) : (s.modPartd p f).tags = s.tags := rfl
@[simp] theorem State.modPartd_memPoison (s : State) (p : Nat) (f : PartDyn → PartDyn) : (s.modPartd p f).memPoison = s.memPoison := rfl
@[simp] theorem State.modPartd_hub (s : State) (p : Nat) (f : PartDyn → PartDyn) : (s.modPartd p f).hub = s.hub := rfl
@[simp] theorem State.modPartd_clock (s : State) (p : Nat) (f : PartDyn → PartDyn) : (s.modPartd p f).clock = s.clock := rfl
@[simp] theorem State.modPartd_cores (s : State) (p : Nat) (f : PartDyn → PartDyn) : (s.modPartd p f).cores = s.cores := rfl
@[simp] theorem State.modPartd_teams (s : State) (p : Nat) (f : PartDyn → PartDyn) : (s.modPartd p f).teams = s.teams := rfl
@[simp] theorem State.modPartd_grids (s : State) (p : Nat) (f : PartDyn → PartDyn) : (s.modPartd p f).grids = s.grids := rfl
@[simp] theorem State.modPartd_vids (s : State) (p : Nat) (f : PartDyn → PartDyn) : (s.modPartd p f).vids = s.vids := rfl
@[simp] theorem State.modPartd_dispds (s : State) (p : Nat) (f : PartDyn → PartDyn) : (s.modPartd p f).dispds = s.dispds := rfl
@[simp] theorem State.modPartd_snubs (s : State) (p : Nat) (f : PartDyn → PartDyn) : (s.modPartd p f).snubs = s.snubs := rfl
@[simp] theorem State.modPartd_power (s : State) (p : Nat) (f : PartDyn → PartDyn) : (s.modPartd p f).power = s.power := rfl
@[simp] theorem State.modPartd_gated (s : State) (p : Nat) (f : PartDyn → PartDyn) : (s.modPartd p f).gated = s.gated := rfl
@[simp] theorem State.modPartd_sweep (s : State) (p : Nat) (f : PartDyn → PartDyn) : (s.modPartd p f).sweep = s.sweep := rfl
@[simp] theorem State.modPartd_side (s : State) (p : Nat) (f : PartDyn → PartDyn) : (s.modPartd p f).side = s.side := rfl
@[simp] theorem State.modPartd_ticket (s : State) (p : Nat) (f : PartDyn → PartDyn) : (s.modPartd p f).ticket = s.ticket := rfl
@[simp] theorem State.modPartd_tickDie (s : State) (p : Nat) (f : PartDyn → PartDyn) : (s.modPartd p f).tickDie = s.tickDie := rfl
@[simp] theorem State.modPartd_tickReq (s : State) (p : Nat) (f : PartDyn → PartDyn) : (s.modPartd p f).tickReq = s.tickReq := rfl
@[simp] theorem State.modPartd_homeCount (s : State) (p : Nat) (f : PartDyn → PartDyn) : (s.modPartd p f).homeCount = s.homeCount := rfl
@[simp] theorem State.modPartd_held (s : State) (p : Nat) (f : PartDyn → PartDyn) : (s.modPartd p f).held = s.held := rfl
@[simp] theorem State.modPartd_nextId (s : State) (p : Nat) (f : PartDyn → PartDyn) : (s.modPartd p f).nextId = s.nextId := rfl
@[simp] theorem State.modPartd_inbox (s : State) (p : Nat) (f : PartDyn → PartDyn) : (s.modPartd p f).inbox = s.inbox := rfl
@[simp] theorem State.modPartd_cur (s : State) (p : Nat) (f : PartDyn → PartDyn) : (s.modPartd p f).cur = s.cur := rfl
@[simp] theorem State.modPartd_rot (s : State) (p : Nat) (f : PartDyn → PartDyn) : (s.modPartd p f).rot = s.rot := rfl
@[simp] theorem State.modPartd_free (s : State) (p : Nat) (f : PartDyn → PartDyn) : (s.modPartd p f).free = s.free := rfl

@[simp] theorem State.modDispd_mem (s : State) (o : Nat) (f : DispDyn → DispDyn) : (s.modDispd o f).mem = s.mem := rfl
@[simp] theorem State.modDispd_out (s : State) (o : Nat) (f : DispDyn → DispDyn) : (s.modDispd o f).out = s.out := rfl
@[simp] theorem State.modDispd_tags (s : State) (o : Nat) (f : DispDyn → DispDyn) : (s.modDispd o f).tags = s.tags := rfl
@[simp] theorem State.modDispd_memPoison (s : State) (o : Nat) (f : DispDyn → DispDyn) : (s.modDispd o f).memPoison = s.memPoison := rfl
@[simp] theorem State.modDispd_hub (s : State) (o : Nat) (f : DispDyn → DispDyn) : (s.modDispd o f).hub = s.hub := rfl
@[simp] theorem State.modDispd_clock (s : State) (o : Nat) (f : DispDyn → DispDyn) : (s.modDispd o f).clock = s.clock := rfl
@[simp] theorem State.modDispd_cores (s : State) (o : Nat) (f : DispDyn → DispDyn) : (s.modDispd o f).cores = s.cores := rfl
@[simp] theorem State.modDispd_teams (s : State) (o : Nat) (f : DispDyn → DispDyn) : (s.modDispd o f).teams = s.teams := rfl
@[simp] theorem State.modDispd_grids (s : State) (o : Nat) (f : DispDyn → DispDyn) : (s.modDispd o f).grids = s.grids := rfl
@[simp] theorem State.modDispd_vids (s : State) (o : Nat) (f : DispDyn → DispDyn) : (s.modDispd o f).vids = s.vids := rfl
@[simp] theorem State.modDispd_partds (s : State) (o : Nat) (f : DispDyn → DispDyn) : (s.modDispd o f).partds = s.partds := rfl
@[simp] theorem State.modDispd_snubs (s : State) (o : Nat) (f : DispDyn → DispDyn) : (s.modDispd o f).snubs = s.snubs := rfl
@[simp] theorem State.modDispd_power (s : State) (o : Nat) (f : DispDyn → DispDyn) : (s.modDispd o f).power = s.power := rfl
@[simp] theorem State.modDispd_gated (s : State) (o : Nat) (f : DispDyn → DispDyn) : (s.modDispd o f).gated = s.gated := rfl
@[simp] theorem State.modDispd_sweep (s : State) (o : Nat) (f : DispDyn → DispDyn) : (s.modDispd o f).sweep = s.sweep := rfl
@[simp] theorem State.modDispd_side (s : State) (o : Nat) (f : DispDyn → DispDyn) : (s.modDispd o f).side = s.side := rfl
@[simp] theorem State.modDispd_ticket (s : State) (o : Nat) (f : DispDyn → DispDyn) : (s.modDispd o f).ticket = s.ticket := rfl
@[simp] theorem State.modDispd_tickDie (s : State) (o : Nat) (f : DispDyn → DispDyn) : (s.modDispd o f).tickDie = s.tickDie := rfl
@[simp] theorem State.modDispd_tickReq (s : State) (o : Nat) (f : DispDyn → DispDyn) : (s.modDispd o f).tickReq = s.tickReq := rfl
@[simp] theorem State.modDispd_homeCount (s : State) (o : Nat) (f : DispDyn → DispDyn) : (s.modDispd o f).homeCount = s.homeCount := rfl
@[simp] theorem State.modDispd_held (s : State) (o : Nat) (f : DispDyn → DispDyn) : (s.modDispd o f).held = s.held := rfl
@[simp] theorem State.modDispd_nextId (s : State) (o : Nat) (f : DispDyn → DispDyn) : (s.modDispd o f).nextId = s.nextId := rfl
@[simp] theorem State.modDispd_inbox (s : State) (o : Nat) (f : DispDyn → DispDyn) : (s.modDispd o f).inbox = s.inbox := rfl
@[simp] theorem State.modDispd_cur (s : State) (o : Nat) (f : DispDyn → DispDyn) : (s.modDispd o f).cur = s.cur := rfl
@[simp] theorem State.modDispd_rot (s : State) (o : Nat) (f : DispDyn → DispDyn) : (s.modDispd o f).rot = s.rot := rfl
@[simp] theorem State.modDispd_free (s : State) (o : Nat) (f : DispDyn → DispDyn) : (s.modDispd o f).free = s.free := rfl

@[simp] theorem State.modSnub_mem (s : State) (d : Nat) (f : Snub → Snub) : (s.modSnub d f).mem = s.mem := rfl
@[simp] theorem State.modSnub_out (s : State) (d : Nat) (f : Snub → Snub) : (s.modSnub d f).out = s.out := rfl
@[simp] theorem State.modSnub_tags (s : State) (d : Nat) (f : Snub → Snub) : (s.modSnub d f).tags = s.tags := rfl
@[simp] theorem State.modSnub_memPoison (s : State) (d : Nat) (f : Snub → Snub) : (s.modSnub d f).memPoison = s.memPoison := rfl
@[simp] theorem State.modSnub_hub (s : State) (d : Nat) (f : Snub → Snub) : (s.modSnub d f).hub = s.hub := rfl
@[simp] theorem State.modSnub_clock (s : State) (d : Nat) (f : Snub → Snub) : (s.modSnub d f).clock = s.clock := rfl
@[simp] theorem State.modSnub_cores (s : State) (d : Nat) (f : Snub → Snub) : (s.modSnub d f).cores = s.cores := rfl
@[simp] theorem State.modSnub_teams (s : State) (d : Nat) (f : Snub → Snub) : (s.modSnub d f).teams = s.teams := rfl
@[simp] theorem State.modSnub_grids (s : State) (d : Nat) (f : Snub → Snub) : (s.modSnub d f).grids = s.grids := rfl
@[simp] theorem State.modSnub_vids (s : State) (d : Nat) (f : Snub → Snub) : (s.modSnub d f).vids = s.vids := rfl
@[simp] theorem State.modSnub_partds (s : State) (d : Nat) (f : Snub → Snub) : (s.modSnub d f).partds = s.partds := rfl
@[simp] theorem State.modSnub_dispds (s : State) (d : Nat) (f : Snub → Snub) : (s.modSnub d f).dispds = s.dispds := rfl
@[simp] theorem State.modSnub_power (s : State) (d : Nat) (f : Snub → Snub) : (s.modSnub d f).power = s.power := rfl
@[simp] theorem State.modSnub_gated (s : State) (d : Nat) (f : Snub → Snub) : (s.modSnub d f).gated = s.gated := rfl
@[simp] theorem State.modSnub_sweep (s : State) (d : Nat) (f : Snub → Snub) : (s.modSnub d f).sweep = s.sweep := rfl
@[simp] theorem State.modSnub_side (s : State) (d : Nat) (f : Snub → Snub) : (s.modSnub d f).side = s.side := rfl
@[simp] theorem State.modSnub_ticket (s : State) (d : Nat) (f : Snub → Snub) : (s.modSnub d f).ticket = s.ticket := rfl
@[simp] theorem State.modSnub_tickDie (s : State) (d : Nat) (f : Snub → Snub) : (s.modSnub d f).tickDie = s.tickDie := rfl
@[simp] theorem State.modSnub_tickReq (s : State) (d : Nat) (f : Snub → Snub) : (s.modSnub d f).tickReq = s.tickReq := rfl
@[simp] theorem State.modSnub_homeCount (s : State) (d : Nat) (f : Snub → Snub) : (s.modSnub d f).homeCount = s.homeCount := rfl
@[simp] theorem State.modSnub_held (s : State) (d : Nat) (f : Snub → Snub) : (s.modSnub d f).held = s.held := rfl
@[simp] theorem State.modSnub_nextId (s : State) (d : Nat) (f : Snub → Snub) : (s.modSnub d f).nextId = s.nextId := rfl
@[simp] theorem State.modSnub_inbox (s : State) (d : Nat) (f : Snub → Snub) : (s.modSnub d f).inbox = s.inbox := rfl
@[simp] theorem State.modSnub_cur (s : State) (d : Nat) (f : Snub → Snub) : (s.modSnub d f).cur = s.cur := rfl
@[simp] theorem State.modSnub_rot (s : State) (d : Nat) (f : Snub → Snub) : (s.modSnub d f).rot = s.rot := rfl
@[simp] theorem State.modSnub_free (s : State) (d : Nat) (f : Snub → Snub) : (s.modSnub d f).free = s.free := rfl

@[simp] theorem State.modSide_mem (s : State) (f : Side → Side) : (s.modSide f).mem = s.mem := rfl
@[simp] theorem State.modSide_tags (s : State) (f : Side → Side) : (s.modSide f).tags = s.tags := rfl
@[simp] theorem State.modSide_memPoison (s : State) (f : Side → Side) : (s.modSide f).memPoison = s.memPoison := rfl
@[simp] theorem State.modSide_hub (s : State) (f : Side → Side) : (s.modSide f).hub = s.hub := rfl
@[simp] theorem State.modSide_clock (s : State) (f : Side → Side) : (s.modSide f).clock = s.clock := rfl
@[simp] theorem State.modSide_cores (s : State) (f : Side → Side) : (s.modSide f).cores = s.cores := rfl
@[simp] theorem State.modSide_teams (s : State) (f : Side → Side) : (s.modSide f).teams = s.teams := rfl
@[simp] theorem State.modSide_grids (s : State) (f : Side → Side) : (s.modSide f).grids = s.grids := rfl
@[simp] theorem State.modSide_vids (s : State) (f : Side → Side) : (s.modSide f).vids = s.vids := rfl
@[simp] theorem State.modSide_partds (s : State) (f : Side → Side) : (s.modSide f).partds = s.partds := rfl
@[simp] theorem State.modSide_dispds (s : State) (f : Side → Side) : (s.modSide f).dispds = s.dispds := rfl
@[simp] theorem State.modSide_snubs (s : State) (f : Side → Side) : (s.modSide f).snubs = s.snubs := rfl
@[simp] theorem State.modSide_power (s : State) (f : Side → Side) : (s.modSide f).power = s.power := rfl
@[simp] theorem State.modSide_gated (s : State) (f : Side → Side) : (s.modSide f).gated = s.gated := rfl
@[simp] theorem State.modSide_sweep (s : State) (f : Side → Side) : (s.modSide f).sweep = s.sweep := rfl
@[simp] theorem State.modSide_ticket (s : State) (f : Side → Side) : (s.modSide f).ticket = s.ticket := rfl
@[simp] theorem State.modSide_tickDie (s : State) (f : Side → Side) : (s.modSide f).tickDie = s.tickDie := rfl
@[simp] theorem State.modSide_tickReq (s : State) (f : Side → Side) : (s.modSide f).tickReq = s.tickReq := rfl
@[simp] theorem State.modSide_homeCount (s : State) (f : Side → Side) : (s.modSide f).homeCount = s.homeCount := rfl
@[simp] theorem State.modSide_held (s : State) (f : Side → Side) : (s.modSide f).held = s.held := rfl
@[simp] theorem State.modSide_nextId (s : State) (f : Side → Side) : (s.modSide f).nextId = s.nextId := rfl
@[simp] theorem State.modSide_inbox (s : State) (f : Side → Side) : (s.modSide f).inbox = s.inbox := rfl
@[simp] theorem State.modSide_cur (s : State) (f : Side → Side) : (s.modSide f).cur = s.cur := rfl
@[simp] theorem State.modSide_rot (s : State) (f : Side → Side) : (s.modSide f).rot = s.rot := rfl
@[simp] theorem State.modSide_free (s : State) (f : Side → Side) : (s.modSide f).free = s.free := rfl
@[simp] theorem State.modSide_out (s : State) (f : Side → Side) : (s.modSide f).out = s.out := rfl
@[simp] theorem State.modSide_side (s : State) (f : Side → Side) : (s.modSide f).side = f s.side := rfl

@[simp] theorem State.put_mem (s : State) (a : Nat) (b : Byte) : (s.put a b).mem = s.mem := rfl
@[simp] theorem State.put_tags (s : State) (a : Nat) (b : Byte) : (s.put a b).tags = s.tags := rfl
@[simp] theorem State.put_memPoison (s : State) (a : Nat) (b : Byte) : (s.put a b).memPoison = s.memPoison := rfl
@[simp] theorem State.put_hub (s : State) (a : Nat) (b : Byte) : (s.put a b).hub = s.hub := rfl
@[simp] theorem State.put_clock (s : State) (a : Nat) (b : Byte) : (s.put a b).clock = s.clock := rfl
@[simp] theorem State.put_cores (s : State) (a : Nat) (b : Byte) : (s.put a b).cores = s.cores := rfl
@[simp] theorem State.put_teams (s : State) (a : Nat) (b : Byte) : (s.put a b).teams = s.teams := rfl
@[simp] theorem State.put_grids (s : State) (a : Nat) (b : Byte) : (s.put a b).grids = s.grids := rfl
@[simp] theorem State.put_vids (s : State) (a : Nat) (b : Byte) : (s.put a b).vids = s.vids := rfl
@[simp] theorem State.put_partds (s : State) (a : Nat) (b : Byte) : (s.put a b).partds = s.partds := rfl
@[simp] theorem State.put_dispds (s : State) (a : Nat) (b : Byte) : (s.put a b).dispds = s.dispds := rfl
@[simp] theorem State.put_snubs (s : State) (a : Nat) (b : Byte) : (s.put a b).snubs = s.snubs := rfl
@[simp] theorem State.put_power (s : State) (a : Nat) (b : Byte) : (s.put a b).power = s.power := rfl
@[simp] theorem State.put_gated (s : State) (a : Nat) (b : Byte) : (s.put a b).gated = s.gated := rfl
@[simp] theorem State.put_sweep (s : State) (a : Nat) (b : Byte) : (s.put a b).sweep = s.sweep := rfl
@[simp] theorem State.put_side (s : State) (a : Nat) (b : Byte) : (s.put a b).side = s.side := rfl
@[simp] theorem State.put_ticket (s : State) (a : Nat) (b : Byte) : (s.put a b).ticket = s.ticket := rfl
@[simp] theorem State.put_tickDie (s : State) (a : Nat) (b : Byte) : (s.put a b).tickDie = s.tickDie := rfl
@[simp] theorem State.put_tickReq (s : State) (a : Nat) (b : Byte) : (s.put a b).tickReq = s.tickReq := rfl
@[simp] theorem State.put_homeCount (s : State) (a : Nat) (b : Byte) : (s.put a b).homeCount = s.homeCount := rfl
@[simp] theorem State.put_held (s : State) (a : Nat) (b : Byte) : (s.put a b).held = s.held := rfl
@[simp] theorem State.put_nextId (s : State) (a : Nat) (b : Byte) : (s.put a b).nextId = s.nextId := rfl
@[simp] theorem State.put_inbox (s : State) (a : Nat) (b : Byte) : (s.put a b).inbox = s.inbox := rfl
@[simp] theorem State.put_cur (s : State) (a : Nat) (b : Byte) : (s.put a b).cur = s.cur := rfl
@[simp] theorem State.put_rot (s : State) (a : Nat) (b : Byte) : (s.put a b).rot = s.rot := rfl
@[simp] theorem State.put_free (s : State) (a : Nat) (b : Byte) : (s.put a b).free = s.free := rfl

@[simp] theorem Team.setGroup_id (t : Team) (g : Group) : (t.setGroup g).id = t.id := rfl
@[simp] theorem Team.setGroup_grid (t : Team) (g : Group) : (t.setGroup g).grid = t.grid := rfl
@[simp] theorem Team.setGroup_vi (t : Team) (g : Group) : (t.setGroup g).vi = t.vi := rfl
@[simp] theorem Team.setGroup_index (t : Team) (g : Group) : (t.setGroup g).index = t.index := rfl
@[simp] theorem Team.setGroup_x (t : Team) (g : Group) : (t.setGroup g).x = t.x := rfl
@[simp] theorem Team.setGroup_y (t : Team) (g : Group) : (t.setGroup g).y = t.y := rfl
@[simp] theorem Team.setGroup_z (t : Team) (g : Group) : (t.setGroup g).z = t.z := rfl
@[simp] theorem Team.setGroup_cluster (t : Team) (g : Group) : (t.setGroup g).cluster = t.cluster := rfl
@[simp] theorem Team.setGroup_rank (t : Team) (g : Group) : (t.setGroup g).rank = t.rank := rfl
@[simp] theorem Team.setGroup_core (t : Team) (g : Group) : (t.setGroup g).core = t.core := rfl
@[simp] theorem Team.setGroup_slot (t : Team) (g : Group) : (t.setGroup g).slot = t.slot := rfl
@[simp] theorem Team.setGroup_st (t : Team) (g : Group) : (t.setGroup g).st = t.st := rfl
@[simp] theorem Team.setGroup_stamp (t : Team) (g : Group) : (t.setGroup g).stamp = t.stamp := rfl
@[simp] theorem Team.setGroup_since (t : Team) (g : Group) : (t.setGroup g).since = t.since := rfl
@[simp] theorem Team.setGroup_deadline (t : Team) (g : Group) : (t.setGroup g).deadline = t.deadline := rfl
@[simp] theorem Team.setGroup_lanes (t : Team) (g : Group) : (t.setGroup g).lanes = t.lanes := rfl
@[simp] theorem Team.setGroup_regsN (t : Team) (g : Group) : (t.setGroup g).regsN = t.regsN := rfl
@[simp] theorem Team.setGroup_scrSize (t : Team) (g : Group) : (t.setGroup g).scrSize = t.scrSize := rfl
@[simp] theorem Team.setGroup_scrBase (t : Team) (g : Group) : (t.setGroup g).scrBase = t.scrBase := rfl
@[simp] theorem Team.setGroup_scr (t : Team) (g : Group) : (t.setGroup g).scr = t.scr := rfl
@[simp] theorem Team.setGroup_scrW (t : Team) (g : Group) : (t.setGroup g).scrW = t.scrW := rfl
@[simp] theorem Team.setGroup_scrPoison (t : Team) (g : Group) : (t.setGroup g).scrPoison = t.scrPoison := rfl
@[simp] theorem Team.setGroup_privN (t : Team) (g : Group) : (t.setGroup g).privN = t.privN := rfl
@[simp] theorem Team.setGroup_accN (t : Team) (g : Group) : (t.setGroup g).accN = t.accN := rfl
@[simp] theorem Team.setGroup_acc (t : Team) (g : Group) : (t.setGroup g).acc = t.acc := rfl
@[simp] theorem Team.setGroup_accW (t : Team) (g : Group) : (t.setGroup g).accW = t.accW := rfl
@[simp] theorem Team.setGroup_accPoison (t : Team) (g : Group) : (t.setGroup g).accPoison = t.accPoison := rfl
@[simp] theorem Team.setGroup_accOld (t : Team) (g : Group) : (t.setGroup g).accOld = t.accOld := rfl
@[simp] theorem Team.setGroup_barsN (t : Team) (g : Group) : (t.setGroup g).barsN = t.barsN := rfl
@[simp] theorem Team.setGroup_bars (t : Team) (g : Group) : (t.setGroup g).bars = t.bars := rfl
@[simp] theorem Team.setGroup_guards (t : Team) (g : Group) : (t.setGroup g).guards = t.guards := rfl
@[simp] theorem Team.setGroup_tagwin (t : Team) (g : Group) : (t.setGroup g).tagwin = t.tagwin := rfl
@[simp] theorem Team.setGroup_binding (t : Team) (g : Group) : (t.setGroup g).binding = t.binding := rfl
@[simp] theorem Team.setGroup_subs (t : Team) (g : Group) : (t.setGroup g).subs = t.subs := rfl
@[simp] theorem Team.setGroup_qsat (t : Team) (g : Group) : (t.setGroup g).qsat = t.qsat := rfl
@[simp] theorem Team.setGroup_qnan (t : Team) (g : Group) : (t.setGroup g).qnan = t.qnan := rfl
@[simp] theorem Team.setGroup_fsat (t : Team) (g : Group) : (t.setGroup g).fsat = t.fsat := rfl
@[simp] theorem Team.setGroup_node (t : Team) (g : Group) : (t.setGroup g).node = t.node := rfl
@[simp] theorem Team.setGroup_depth (t : Team) (g : Group) : (t.setGroup g).depth = t.depth := rfl
@[simp] theorem Team.setGroup_frags (t : Team) (g : Group) : (t.setGroup g).frags = t.frags := rfl
@[simp] theorem Team.setGroup_regions (t : Team) (g : Group) : (t.setGroup g).regions = t.regions := rfl
@[simp] theorem Team.setGroup_nextFrag (t : Team) (g : Group) : (t.setGroup g).nextFrag = t.nextFrag := rfl
@[simp] theorem Team.setGroup_nextRegion (t : Team) (g : Group) : (t.setGroup g).nextRegion = t.nextRegion := rfl
@[simp] theorem Team.setGroup_splice (t : Team) (g : Group) : (t.setGroup g).splice = t.splice := rfl
@[simp] theorem Team.setGroup_saved (t : Team) (g : Group) : (t.setGroup g).saved = t.saved := rfl
@[simp] theorem Team.setGroup_savedPlanes (t : Team) (g : Group) : (t.setGroup g).savedPlanes = t.savedPlanes := rfl
@[simp] theorem Team.setGroup_reads (t : Team) (g : Group) : (t.setGroup g).reads = t.reads := rfl
@[simp] theorem Team.setGroup_dead (t : Team) (g : Group) : (t.setGroup g).dead = t.dead := rfl
@[simp] theorem Team.setGroup_lost (t : Team) (g : Group) : (t.setGroup g).lost = t.lost := rfl
@[simp] theorem Team.setGroup_kern (t : Team) (g : Group) : (t.setGroup g).kern = t.kern := rfl
@[simp] theorem Team.setGroup_resid (t : Team) (g : Group) : (t.setGroup g).resid = t.resid := rfl
@[simp] theorem Team.setGroup_reqs (t : Team) (g : Group) : (t.setGroup g).reqs = t.reqs := rfl
@[simp] theorem Team.setGroup_reqDone (t : Team) (g : Group) : (t.setGroup g).reqDone = t.reqDone := rfl

@[simp] theorem Team.modGroup_id (t : Team) (n : Nat) (f : Group → Group) : (t.modGroup n f).id = t.id := by unfold Team.modGroup; split <;> rfl
@[simp] theorem Team.modGroup_grid (t : Team) (n : Nat) (f : Group → Group) : (t.modGroup n f).grid = t.grid := by unfold Team.modGroup; split <;> rfl
@[simp] theorem Team.modGroup_vi (t : Team) (n : Nat) (f : Group → Group) : (t.modGroup n f).vi = t.vi := by unfold Team.modGroup; split <;> rfl
@[simp] theorem Team.modGroup_index (t : Team) (n : Nat) (f : Group → Group) : (t.modGroup n f).index = t.index := by unfold Team.modGroup; split <;> rfl
@[simp] theorem Team.modGroup_x (t : Team) (n : Nat) (f : Group → Group) : (t.modGroup n f).x = t.x := by unfold Team.modGroup; split <;> rfl
@[simp] theorem Team.modGroup_y (t : Team) (n : Nat) (f : Group → Group) : (t.modGroup n f).y = t.y := by unfold Team.modGroup; split <;> rfl
@[simp] theorem Team.modGroup_z (t : Team) (n : Nat) (f : Group → Group) : (t.modGroup n f).z = t.z := by unfold Team.modGroup; split <;> rfl
@[simp] theorem Team.modGroup_cluster (t : Team) (n : Nat) (f : Group → Group) : (t.modGroup n f).cluster = t.cluster := by unfold Team.modGroup; split <;> rfl
@[simp] theorem Team.modGroup_rank (t : Team) (n : Nat) (f : Group → Group) : (t.modGroup n f).rank = t.rank := by unfold Team.modGroup; split <;> rfl
@[simp] theorem Team.modGroup_core (t : Team) (n : Nat) (f : Group → Group) : (t.modGroup n f).core = t.core := by unfold Team.modGroup; split <;> rfl
@[simp] theorem Team.modGroup_slot (t : Team) (n : Nat) (f : Group → Group) : (t.modGroup n f).slot = t.slot := by unfold Team.modGroup; split <;> rfl
@[simp] theorem Team.modGroup_st (t : Team) (n : Nat) (f : Group → Group) : (t.modGroup n f).st = t.st := by unfold Team.modGroup; split <;> rfl
@[simp] theorem Team.modGroup_stamp (t : Team) (n : Nat) (f : Group → Group) : (t.modGroup n f).stamp = t.stamp := by unfold Team.modGroup; split <;> rfl
@[simp] theorem Team.modGroup_since (t : Team) (n : Nat) (f : Group → Group) : (t.modGroup n f).since = t.since := by unfold Team.modGroup; split <;> rfl
@[simp] theorem Team.modGroup_deadline (t : Team) (n : Nat) (f : Group → Group) : (t.modGroup n f).deadline = t.deadline := by unfold Team.modGroup; split <;> rfl
@[simp] theorem Team.modGroup_lanes (t : Team) (n : Nat) (f : Group → Group) : (t.modGroup n f).lanes = t.lanes := by unfold Team.modGroup; split <;> rfl
@[simp] theorem Team.modGroup_regsN (t : Team) (n : Nat) (f : Group → Group) : (t.modGroup n f).regsN = t.regsN := by unfold Team.modGroup; split <;> rfl
@[simp] theorem Team.modGroup_scrSize (t : Team) (n : Nat) (f : Group → Group) : (t.modGroup n f).scrSize = t.scrSize := by unfold Team.modGroup; split <;> rfl
@[simp] theorem Team.modGroup_scrBase (t : Team) (n : Nat) (f : Group → Group) : (t.modGroup n f).scrBase = t.scrBase := by unfold Team.modGroup; split <;> rfl
@[simp] theorem Team.modGroup_scr (t : Team) (n : Nat) (f : Group → Group) : (t.modGroup n f).scr = t.scr := by unfold Team.modGroup; split <;> rfl
@[simp] theorem Team.modGroup_scrW (t : Team) (n : Nat) (f : Group → Group) : (t.modGroup n f).scrW = t.scrW := by unfold Team.modGroup; split <;> rfl
@[simp] theorem Team.modGroup_scrPoison (t : Team) (n : Nat) (f : Group → Group) : (t.modGroup n f).scrPoison = t.scrPoison := by unfold Team.modGroup; split <;> rfl
@[simp] theorem Team.modGroup_privN (t : Team) (n : Nat) (f : Group → Group) : (t.modGroup n f).privN = t.privN := by unfold Team.modGroup; split <;> rfl
@[simp] theorem Team.modGroup_accN (t : Team) (n : Nat) (f : Group → Group) : (t.modGroup n f).accN = t.accN := by unfold Team.modGroup; split <;> rfl
@[simp] theorem Team.modGroup_acc (t : Team) (n : Nat) (f : Group → Group) : (t.modGroup n f).acc = t.acc := by unfold Team.modGroup; split <;> rfl
@[simp] theorem Team.modGroup_accW (t : Team) (n : Nat) (f : Group → Group) : (t.modGroup n f).accW = t.accW := by unfold Team.modGroup; split <;> rfl
@[simp] theorem Team.modGroup_accPoison (t : Team) (n : Nat) (f : Group → Group) : (t.modGroup n f).accPoison = t.accPoison := by unfold Team.modGroup; split <;> rfl
@[simp] theorem Team.modGroup_accOld (t : Team) (n : Nat) (f : Group → Group) : (t.modGroup n f).accOld = t.accOld := by unfold Team.modGroup; split <;> rfl
@[simp] theorem Team.modGroup_barsN (t : Team) (n : Nat) (f : Group → Group) : (t.modGroup n f).barsN = t.barsN := by unfold Team.modGroup; split <;> rfl
@[simp] theorem Team.modGroup_bars (t : Team) (n : Nat) (f : Group → Group) : (t.modGroup n f).bars = t.bars := by unfold Team.modGroup; split <;> rfl
@[simp] theorem Team.modGroup_guards (t : Team) (n : Nat) (f : Group → Group) : (t.modGroup n f).guards = t.guards := by unfold Team.modGroup; split <;> rfl
@[simp] theorem Team.modGroup_tagwin (t : Team) (n : Nat) (f : Group → Group) : (t.modGroup n f).tagwin = t.tagwin := by unfold Team.modGroup; split <;> rfl
@[simp] theorem Team.modGroup_binding (t : Team) (n : Nat) (f : Group → Group) : (t.modGroup n f).binding = t.binding := by unfold Team.modGroup; split <;> rfl
@[simp] theorem Team.modGroup_subs (t : Team) (n : Nat) (f : Group → Group) : (t.modGroup n f).subs = t.subs := by unfold Team.modGroup; split <;> rfl
@[simp] theorem Team.modGroup_qsat (t : Team) (n : Nat) (f : Group → Group) : (t.modGroup n f).qsat = t.qsat := by unfold Team.modGroup; split <;> rfl
@[simp] theorem Team.modGroup_qnan (t : Team) (n : Nat) (f : Group → Group) : (t.modGroup n f).qnan = t.qnan := by unfold Team.modGroup; split <;> rfl
@[simp] theorem Team.modGroup_fsat (t : Team) (n : Nat) (f : Group → Group) : (t.modGroup n f).fsat = t.fsat := by unfold Team.modGroup; split <;> rfl
@[simp] theorem Team.modGroup_node (t : Team) (n : Nat) (f : Group → Group) : (t.modGroup n f).node = t.node := by unfold Team.modGroup; split <;> rfl
@[simp] theorem Team.modGroup_depth (t : Team) (n : Nat) (f : Group → Group) : (t.modGroup n f).depth = t.depth := by unfold Team.modGroup; split <;> rfl
@[simp] theorem Team.modGroup_frags (t : Team) (n : Nat) (f : Group → Group) : (t.modGroup n f).frags = t.frags := by unfold Team.modGroup; split <;> rfl
@[simp] theorem Team.modGroup_regions (t : Team) (n : Nat) (f : Group → Group) : (t.modGroup n f).regions = t.regions := by unfold Team.modGroup; split <;> rfl
@[simp] theorem Team.modGroup_nextFrag (t : Team) (n : Nat) (f : Group → Group) : (t.modGroup n f).nextFrag = t.nextFrag := by unfold Team.modGroup; split <;> rfl
@[simp] theorem Team.modGroup_nextRegion (t : Team) (n : Nat) (f : Group → Group) : (t.modGroup n f).nextRegion = t.nextRegion := by unfold Team.modGroup; split <;> rfl
@[simp] theorem Team.modGroup_splice (t : Team) (n : Nat) (f : Group → Group) : (t.modGroup n f).splice = t.splice := by unfold Team.modGroup; split <;> rfl
@[simp] theorem Team.modGroup_saved (t : Team) (n : Nat) (f : Group → Group) : (t.modGroup n f).saved = t.saved := by unfold Team.modGroup; split <;> rfl
@[simp] theorem Team.modGroup_savedPlanes (t : Team) (n : Nat) (f : Group → Group) : (t.modGroup n f).savedPlanes = t.savedPlanes := by unfold Team.modGroup; split <;> rfl
@[simp] theorem Team.modGroup_reads (t : Team) (n : Nat) (f : Group → Group) : (t.modGroup n f).reads = t.reads := by unfold Team.modGroup; split <;> rfl
@[simp] theorem Team.modGroup_dead (t : Team) (n : Nat) (f : Group → Group) : (t.modGroup n f).dead = t.dead := by unfold Team.modGroup; split <;> rfl
@[simp] theorem Team.modGroup_lost (t : Team) (n : Nat) (f : Group → Group) : (t.modGroup n f).lost = t.lost := by unfold Team.modGroup; split <;> rfl
@[simp] theorem Team.modGroup_kern (t : Team) (n : Nat) (f : Group → Group) : (t.modGroup n f).kern = t.kern := by unfold Team.modGroup; split <;> rfl
@[simp] theorem Team.modGroup_resid (t : Team) (n : Nat) (f : Group → Group) : (t.modGroup n f).resid = t.resid := by unfold Team.modGroup; split <;> rfl
@[simp] theorem Team.modGroup_reqs (t : Team) (n : Nat) (f : Group → Group) : (t.modGroup n f).reqs = t.reqs := by unfold Team.modGroup; split <;> rfl
@[simp] theorem Team.modGroup_reqDone (t : Team) (n : Nat) (f : Group → Group) : (t.modGroup n f).reqDone = t.reqDone := by unfold Team.modGroup; split <;> rfl

@[simp] theorem Team.setFrag_id (t : Team) (f : Frag) : (t.setFrag f).id = t.id := by unfold Team.setFrag; split <;> rfl
@[simp] theorem Team.setFrag_grid (t : Team) (f : Frag) : (t.setFrag f).grid = t.grid := by unfold Team.setFrag; split <;> rfl
@[simp] theorem Team.setFrag_vi (t : Team) (f : Frag) : (t.setFrag f).vi = t.vi := by unfold Team.setFrag; split <;> rfl
@[simp] theorem Team.setFrag_index (t : Team) (f : Frag) : (t.setFrag f).index = t.index := by unfold Team.setFrag; split <;> rfl
@[simp] theorem Team.setFrag_x (t : Team) (f : Frag) : (t.setFrag f).x = t.x := by unfold Team.setFrag; split <;> rfl
@[simp] theorem Team.setFrag_y (t : Team) (f : Frag) : (t.setFrag f).y = t.y := by unfold Team.setFrag; split <;> rfl
@[simp] theorem Team.setFrag_z (t : Team) (f : Frag) : (t.setFrag f).z = t.z := by unfold Team.setFrag; split <;> rfl
@[simp] theorem Team.setFrag_cluster (t : Team) (f : Frag) : (t.setFrag f).cluster = t.cluster := by unfold Team.setFrag; split <;> rfl
@[simp] theorem Team.setFrag_rank (t : Team) (f : Frag) : (t.setFrag f).rank = t.rank := by unfold Team.setFrag; split <;> rfl
@[simp] theorem Team.setFrag_core (t : Team) (f : Frag) : (t.setFrag f).core = t.core := by unfold Team.setFrag; split <;> rfl
@[simp] theorem Team.setFrag_slot (t : Team) (f : Frag) : (t.setFrag f).slot = t.slot := by unfold Team.setFrag; split <;> rfl
@[simp] theorem Team.setFrag_st (t : Team) (f : Frag) : (t.setFrag f).st = t.st := by unfold Team.setFrag; split <;> rfl
@[simp] theorem Team.setFrag_stamp (t : Team) (f : Frag) : (t.setFrag f).stamp = t.stamp := by unfold Team.setFrag; split <;> rfl
@[simp] theorem Team.setFrag_since (t : Team) (f : Frag) : (t.setFrag f).since = t.since := by unfold Team.setFrag; split <;> rfl
@[simp] theorem Team.setFrag_deadline (t : Team) (f : Frag) : (t.setFrag f).deadline = t.deadline := by unfold Team.setFrag; split <;> rfl
@[simp] theorem Team.setFrag_lanes (t : Team) (f : Frag) : (t.setFrag f).lanes = t.lanes := by unfold Team.setFrag; split <;> rfl
@[simp] theorem Team.setFrag_regsN (t : Team) (f : Frag) : (t.setFrag f).regsN = t.regsN := by unfold Team.setFrag; split <;> rfl
@[simp] theorem Team.setFrag_scrSize (t : Team) (f : Frag) : (t.setFrag f).scrSize = t.scrSize := by unfold Team.setFrag; split <;> rfl
@[simp] theorem Team.setFrag_scrBase (t : Team) (f : Frag) : (t.setFrag f).scrBase = t.scrBase := by unfold Team.setFrag; split <;> rfl
@[simp] theorem Team.setFrag_scr (t : Team) (f : Frag) : (t.setFrag f).scr = t.scr := by unfold Team.setFrag; split <;> rfl
@[simp] theorem Team.setFrag_scrW (t : Team) (f : Frag) : (t.setFrag f).scrW = t.scrW := by unfold Team.setFrag; split <;> rfl
@[simp] theorem Team.setFrag_scrPoison (t : Team) (f : Frag) : (t.setFrag f).scrPoison = t.scrPoison := by unfold Team.setFrag; split <;> rfl
@[simp] theorem Team.setFrag_privN (t : Team) (f : Frag) : (t.setFrag f).privN = t.privN := by unfold Team.setFrag; split <;> rfl
@[simp] theorem Team.setFrag_accN (t : Team) (f : Frag) : (t.setFrag f).accN = t.accN := by unfold Team.setFrag; split <;> rfl
@[simp] theorem Team.setFrag_acc (t : Team) (f : Frag) : (t.setFrag f).acc = t.acc := by unfold Team.setFrag; split <;> rfl
@[simp] theorem Team.setFrag_accW (t : Team) (f : Frag) : (t.setFrag f).accW = t.accW := by unfold Team.setFrag; split <;> rfl
@[simp] theorem Team.setFrag_accPoison (t : Team) (f : Frag) : (t.setFrag f).accPoison = t.accPoison := by unfold Team.setFrag; split <;> rfl
@[simp] theorem Team.setFrag_accOld (t : Team) (f : Frag) : (t.setFrag f).accOld = t.accOld := by unfold Team.setFrag; split <;> rfl
@[simp] theorem Team.setFrag_barsN (t : Team) (f : Frag) : (t.setFrag f).barsN = t.barsN := by unfold Team.setFrag; split <;> rfl
@[simp] theorem Team.setFrag_bars (t : Team) (f : Frag) : (t.setFrag f).bars = t.bars := by unfold Team.setFrag; split <;> rfl
@[simp] theorem Team.setFrag_guards (t : Team) (f : Frag) : (t.setFrag f).guards = t.guards := by unfold Team.setFrag; split <;> rfl
@[simp] theorem Team.setFrag_tagwin (t : Team) (f : Frag) : (t.setFrag f).tagwin = t.tagwin := by unfold Team.setFrag; split <;> rfl
@[simp] theorem Team.setFrag_binding (t : Team) (f : Frag) : (t.setFrag f).binding = t.binding := by unfold Team.setFrag; split <;> rfl
@[simp] theorem Team.setFrag_subs (t : Team) (f : Frag) : (t.setFrag f).subs = t.subs := by unfold Team.setFrag; split <;> rfl
@[simp] theorem Team.setFrag_qsat (t : Team) (f : Frag) : (t.setFrag f).qsat = t.qsat := by unfold Team.setFrag; split <;> rfl
@[simp] theorem Team.setFrag_qnan (t : Team) (f : Frag) : (t.setFrag f).qnan = t.qnan := by unfold Team.setFrag; split <;> rfl
@[simp] theorem Team.setFrag_fsat (t : Team) (f : Frag) : (t.setFrag f).fsat = t.fsat := by unfold Team.setFrag; split <;> rfl
@[simp] theorem Team.setFrag_node (t : Team) (f : Frag) : (t.setFrag f).node = t.node := by unfold Team.setFrag; split <;> rfl
@[simp] theorem Team.setFrag_depth (t : Team) (f : Frag) : (t.setFrag f).depth = t.depth := by unfold Team.setFrag; split <;> rfl
@[simp] theorem Team.setFrag_groups (t : Team) (f : Frag) : (t.setFrag f).groups = t.groups := by unfold Team.setFrag; split <;> rfl
@[simp] theorem Team.setFrag_regions (t : Team) (f : Frag) : (t.setFrag f).regions = t.regions := by unfold Team.setFrag; split <;> rfl
@[simp] theorem Team.setFrag_nextFrag (t : Team) (f : Frag) : (t.setFrag f).nextFrag = t.nextFrag := by unfold Team.setFrag; split <;> rfl
@[simp] theorem Team.setFrag_nextRegion (t : Team) (f : Frag) : (t.setFrag f).nextRegion = t.nextRegion := by unfold Team.setFrag; split <;> rfl
@[simp] theorem Team.setFrag_splice (t : Team) (f : Frag) : (t.setFrag f).splice = t.splice := by unfold Team.setFrag; split <;> rfl
@[simp] theorem Team.setFrag_saved (t : Team) (f : Frag) : (t.setFrag f).saved = t.saved := by unfold Team.setFrag; split <;> rfl
@[simp] theorem Team.setFrag_savedPlanes (t : Team) (f : Frag) : (t.setFrag f).savedPlanes = t.savedPlanes := by unfold Team.setFrag; split <;> rfl
@[simp] theorem Team.setFrag_reads (t : Team) (f : Frag) : (t.setFrag f).reads = t.reads := by unfold Team.setFrag; split <;> rfl
@[simp] theorem Team.setFrag_dead (t : Team) (f : Frag) : (t.setFrag f).dead = t.dead := by unfold Team.setFrag; split <;> rfl
@[simp] theorem Team.setFrag_lost (t : Team) (f : Frag) : (t.setFrag f).lost = t.lost := by unfold Team.setFrag; split <;> rfl
@[simp] theorem Team.setFrag_kern (t : Team) (f : Frag) : (t.setFrag f).kern = t.kern := by unfold Team.setFrag; split <;> rfl
@[simp] theorem Team.setFrag_resid (t : Team) (f : Frag) : (t.setFrag f).resid = t.resid := by unfold Team.setFrag; split <;> rfl
@[simp] theorem Team.setFrag_reqs (t : Team) (f : Frag) : (t.setFrag f).reqs = t.reqs := by unfold Team.setFrag; split <;> rfl
@[simp] theorem Team.setFrag_reqDone (t : Team) (f : Frag) : (t.setFrag f).reqDone = t.reqDone := by unfold Team.setFrag; split <;> rfl

@[simp] theorem Team.delFrag_id (t : Team) (i : Nat) : (t.delFrag i).id = t.id := rfl
@[simp] theorem Team.delFrag_grid (t : Team) (i : Nat) : (t.delFrag i).grid = t.grid := rfl
@[simp] theorem Team.delFrag_vi (t : Team) (i : Nat) : (t.delFrag i).vi = t.vi := rfl
@[simp] theorem Team.delFrag_index (t : Team) (i : Nat) : (t.delFrag i).index = t.index := rfl
@[simp] theorem Team.delFrag_x (t : Team) (i : Nat) : (t.delFrag i).x = t.x := rfl
@[simp] theorem Team.delFrag_y (t : Team) (i : Nat) : (t.delFrag i).y = t.y := rfl
@[simp] theorem Team.delFrag_z (t : Team) (i : Nat) : (t.delFrag i).z = t.z := rfl
@[simp] theorem Team.delFrag_cluster (t : Team) (i : Nat) : (t.delFrag i).cluster = t.cluster := rfl
@[simp] theorem Team.delFrag_rank (t : Team) (i : Nat) : (t.delFrag i).rank = t.rank := rfl
@[simp] theorem Team.delFrag_core (t : Team) (i : Nat) : (t.delFrag i).core = t.core := rfl
@[simp] theorem Team.delFrag_slot (t : Team) (i : Nat) : (t.delFrag i).slot = t.slot := rfl
@[simp] theorem Team.delFrag_st (t : Team) (i : Nat) : (t.delFrag i).st = t.st := rfl
@[simp] theorem Team.delFrag_stamp (t : Team) (i : Nat) : (t.delFrag i).stamp = t.stamp := rfl
@[simp] theorem Team.delFrag_since (t : Team) (i : Nat) : (t.delFrag i).since = t.since := rfl
@[simp] theorem Team.delFrag_deadline (t : Team) (i : Nat) : (t.delFrag i).deadline = t.deadline := rfl
@[simp] theorem Team.delFrag_lanes (t : Team) (i : Nat) : (t.delFrag i).lanes = t.lanes := rfl
@[simp] theorem Team.delFrag_regsN (t : Team) (i : Nat) : (t.delFrag i).regsN = t.regsN := rfl
@[simp] theorem Team.delFrag_scrSize (t : Team) (i : Nat) : (t.delFrag i).scrSize = t.scrSize := rfl
@[simp] theorem Team.delFrag_scrBase (t : Team) (i : Nat) : (t.delFrag i).scrBase = t.scrBase := rfl
@[simp] theorem Team.delFrag_scr (t : Team) (i : Nat) : (t.delFrag i).scr = t.scr := rfl
@[simp] theorem Team.delFrag_scrW (t : Team) (i : Nat) : (t.delFrag i).scrW = t.scrW := rfl
@[simp] theorem Team.delFrag_scrPoison (t : Team) (i : Nat) : (t.delFrag i).scrPoison = t.scrPoison := rfl
@[simp] theorem Team.delFrag_privN (t : Team) (i : Nat) : (t.delFrag i).privN = t.privN := rfl
@[simp] theorem Team.delFrag_accN (t : Team) (i : Nat) : (t.delFrag i).accN = t.accN := rfl
@[simp] theorem Team.delFrag_acc (t : Team) (i : Nat) : (t.delFrag i).acc = t.acc := rfl
@[simp] theorem Team.delFrag_accW (t : Team) (i : Nat) : (t.delFrag i).accW = t.accW := rfl
@[simp] theorem Team.delFrag_accPoison (t : Team) (i : Nat) : (t.delFrag i).accPoison = t.accPoison := rfl
@[simp] theorem Team.delFrag_accOld (t : Team) (i : Nat) : (t.delFrag i).accOld = t.accOld := rfl
@[simp] theorem Team.delFrag_barsN (t : Team) (i : Nat) : (t.delFrag i).barsN = t.barsN := rfl
@[simp] theorem Team.delFrag_bars (t : Team) (i : Nat) : (t.delFrag i).bars = t.bars := rfl
@[simp] theorem Team.delFrag_guards (t : Team) (i : Nat) : (t.delFrag i).guards = t.guards := rfl
@[simp] theorem Team.delFrag_tagwin (t : Team) (i : Nat) : (t.delFrag i).tagwin = t.tagwin := rfl
@[simp] theorem Team.delFrag_binding (t : Team) (i : Nat) : (t.delFrag i).binding = t.binding := rfl
@[simp] theorem Team.delFrag_subs (t : Team) (i : Nat) : (t.delFrag i).subs = t.subs := rfl
@[simp] theorem Team.delFrag_qsat (t : Team) (i : Nat) : (t.delFrag i).qsat = t.qsat := rfl
@[simp] theorem Team.delFrag_qnan (t : Team) (i : Nat) : (t.delFrag i).qnan = t.qnan := rfl
@[simp] theorem Team.delFrag_fsat (t : Team) (i : Nat) : (t.delFrag i).fsat = t.fsat := rfl
@[simp] theorem Team.delFrag_node (t : Team) (i : Nat) : (t.delFrag i).node = t.node := rfl
@[simp] theorem Team.delFrag_depth (t : Team) (i : Nat) : (t.delFrag i).depth = t.depth := rfl
@[simp] theorem Team.delFrag_groups (t : Team) (i : Nat) : (t.delFrag i).groups = t.groups := rfl
@[simp] theorem Team.delFrag_regions (t : Team) (i : Nat) : (t.delFrag i).regions = t.regions := rfl
@[simp] theorem Team.delFrag_nextFrag (t : Team) (i : Nat) : (t.delFrag i).nextFrag = t.nextFrag := rfl
@[simp] theorem Team.delFrag_nextRegion (t : Team) (i : Nat) : (t.delFrag i).nextRegion = t.nextRegion := rfl
@[simp] theorem Team.delFrag_splice (t : Team) (i : Nat) : (t.delFrag i).splice = t.splice := rfl
@[simp] theorem Team.delFrag_saved (t : Team) (i : Nat) : (t.delFrag i).saved = t.saved := rfl
@[simp] theorem Team.delFrag_savedPlanes (t : Team) (i : Nat) : (t.delFrag i).savedPlanes = t.savedPlanes := rfl
@[simp] theorem Team.delFrag_reads (t : Team) (i : Nat) : (t.delFrag i).reads = t.reads := rfl
@[simp] theorem Team.delFrag_dead (t : Team) (i : Nat) : (t.delFrag i).dead = t.dead := rfl
@[simp] theorem Team.delFrag_lost (t : Team) (i : Nat) : (t.delFrag i).lost = t.lost := rfl
@[simp] theorem Team.delFrag_kern (t : Team) (i : Nat) : (t.delFrag i).kern = t.kern := rfl
@[simp] theorem Team.delFrag_resid (t : Team) (i : Nat) : (t.delFrag i).resid = t.resid := rfl
@[simp] theorem Team.delFrag_reqs (t : Team) (i : Nat) : (t.delFrag i).reqs = t.reqs := rfl
@[simp] theorem Team.delFrag_reqDone (t : Team) (i : Nat) : (t.delFrag i).reqDone = t.reqDone := rfl

@[simp] theorem Group.setReg_num (g : Group) (r l : Nat) (v : Word) : (g.setReg r l v).num = g.num := rfl
@[simp] theorem Group.setReg_way (g : Group) (r l : Nat) (v : Word) : (g.setReg r l v).way = g.way := rfl
@[simp] theorem Group.setReg_exec (g : Group) (r l : Nat) (v : Word) : (g.setReg r l v).exec = g.exec := rfl
@[simp] theorem Group.setReg_launched (g : Group) (r l : Nat) (v : Word) : (g.setReg r l v).launched = g.launched := rfl
@[simp] theorem Group.setReg_exited (g : Group) (r l : Nat) (v : Word) : (g.setReg r l v).exited = g.exited := rfl
@[simp] theorem Group.setReg_win (g : Group) (r l : Nat) (v : Word) : (g.setReg r l v).win = g.win := rfl
@[simp] theorem Group.setReg_scal (g : Group) (r l : Nat) (v : Word) : (g.setReg r l v).scal = g.scal := rfl
@[simp] theorem Group.setReg_preds (g : Group) (r l : Nat) (v : Word) : (g.setReg r l v).preds = g.preds := rfl
@[simp] theorem Group.setReg_fmt (g : Group) (r l : Nat) (v : Word) : (g.setReg r l v).fmt = g.fmt := rfl
@[simp] theorem Group.setReg_pend (g : Group) (r l : Nat) (v : Word) : (g.setReg r l v).pend = g.pend := rfl
@[simp] theorem Group.setReg_priv (g : Group) (r l : Nat) (v : Word) : (g.setReg r l v).priv = g.priv := rfl
@[simp] theorem Group.setReg_privW (g : Group) (r l : Nat) (v : Word) : (g.setReg r l v).privW = g.privW := rfl
@[simp] theorem Group.setReg_privPoison (g : Group) (r l : Nat) (v : Word) : (g.setReg r l v).privPoison = g.privPoison := rfl
@[simp] theorem Group.setReg_hm (g : Group) (r l : Nat) (v : Word) : (g.setReg r l v).hm = g.hm := rfl
@[simp] theorem Group.setReg_tr (g : Group) (r l : Nat) (v : Word) : (g.setReg r l v).tr = g.tr := rfl
@[simp] theorem Group.setReg_ep (g : Group) (r l : Nat) (v : Word) : (g.setReg r l v).ep = g.ep := rfl
@[simp] theorem Group.setReg_ap (g : Group) (r l : Nat) (v : Word) : (g.setReg r l v).ap = g.ap := rfl
@[simp] theorem Group.setReg_opfRegs (g : Group) (r l : Nat) (v : Word) : (g.setReg r l v).opfRegs = g.opfRegs := rfl
@[simp] theorem Group.setReg_mesh (g : Group) (r l : Nat) (v : Word) : (g.setReg r l v).mesh = g.mesh := rfl
@[simp] theorem Group.setReg_inflight (g : Group) (r l : Nat) (v : Word) : (g.setReg r l v).inflight = g.inflight := rfl
@[simp] theorem Group.setReg_qix (g : Group) (r l : Nat) (v : Word) : (g.setReg r l v).qix = g.qix := rfl
@[simp] theorem Group.setReg_perf (g : Group) (r l : Nat) (v : Word) : (g.setReg r l v).perf = g.perf := rfl
@[simp] theorem Group.setReg_wdog (g : Group) (r l : Nat) (v : Word) : (g.setReg r l v).wdog = g.wdog := rfl
@[simp] theorem Group.setReg_exempt (g : Group) (r l : Nat) (v : Word) : (g.setReg r l v).exempt = g.exempt := rfl
@[simp] theorem Group.setReg_notice (g : Group) (r l : Nat) (v : Word) : (g.setReg r l v).notice = g.notice := rfl
@[simp] theorem Group.setReg_stop (g : Group) (r l : Nat) (v : Word) : (g.setReg r l v).stop = g.stop := rfl
@[simp] theorem Group.setReg_skip (g : Group) (r l : Nat) (v : Word) : (g.setReg r l v).skip = g.skip := rfl
@[simp] theorem Group.setReg_xch (g : Group) (r l : Nat) (v : Word) : (g.setReg r l v).xch = g.xch := rfl
@[simp] theorem Group.setReg_sc (g : Group) (r l : Nat) (v : Word) : (g.setReg r l v).sc = g.sc := rfl

@[simp] theorem Group.setPred_num (g : Group) (p : Nat) (lanes v : Word) : (g.setPred p lanes v).num = g.num := by unfold Group.setPred; split <;> rfl
@[simp] theorem Group.setPred_way (g : Group) (p : Nat) (lanes v : Word) : (g.setPred p lanes v).way = g.way := by unfold Group.setPred; split <;> rfl
@[simp] theorem Group.setPred_exec (g : Group) (p : Nat) (lanes v : Word) : (g.setPred p lanes v).exec = g.exec := by unfold Group.setPred; split <;> rfl
@[simp] theorem Group.setPred_launched (g : Group) (p : Nat) (lanes v : Word) : (g.setPred p lanes v).launched = g.launched := by unfold Group.setPred; split <;> rfl
@[simp] theorem Group.setPred_exited (g : Group) (p : Nat) (lanes v : Word) : (g.setPred p lanes v).exited = g.exited := by unfold Group.setPred; split <;> rfl
@[simp] theorem Group.setPred_win (g : Group) (p : Nat) (lanes v : Word) : (g.setPred p lanes v).win = g.win := by unfold Group.setPred; split <;> rfl
@[simp] theorem Group.setPred_regs (g : Group) (p : Nat) (lanes v : Word) : (g.setPred p lanes v).regs = g.regs := by unfold Group.setPred; split <;> rfl
@[simp] theorem Group.setPred_bound (g : Group) (p : Nat) (lanes v : Word) : (g.setPred p lanes v).bound = g.bound := by unfold Group.setPred; split <;> rfl
@[simp] theorem Group.setPred_regPoison (g : Group) (p : Nat) (lanes v : Word) : (g.setPred p lanes v).regPoison = g.regPoison := by unfold Group.setPred; split <;> rfl
@[simp] theorem Group.setPred_scal (g : Group) (p : Nat) (lanes v : Word) : (g.setPred p lanes v).scal = g.scal := by unfold Group.setPred; split <;> rfl
@[simp] theorem Group.setPred_fmt (g : Group) (p : Nat) (lanes v : Word) : (g.setPred p lanes v).fmt = g.fmt := by unfold Group.setPred; split <;> rfl
@[simp] theorem Group.setPred_pend (g : Group) (p : Nat) (lanes v : Word) : (g.setPred p lanes v).pend = g.pend := by unfold Group.setPred; split <;> rfl
@[simp] theorem Group.setPred_priv (g : Group) (p : Nat) (lanes v : Word) : (g.setPred p lanes v).priv = g.priv := by unfold Group.setPred; split <;> rfl
@[simp] theorem Group.setPred_privW (g : Group) (p : Nat) (lanes v : Word) : (g.setPred p lanes v).privW = g.privW := by unfold Group.setPred; split <;> rfl
@[simp] theorem Group.setPred_privPoison (g : Group) (p : Nat) (lanes v : Word) : (g.setPred p lanes v).privPoison = g.privPoison := by unfold Group.setPred; split <;> rfl
@[simp] theorem Group.setPred_hm (g : Group) (p : Nat) (lanes v : Word) : (g.setPred p lanes v).hm = g.hm := by unfold Group.setPred; split <;> rfl
@[simp] theorem Group.setPred_tr (g : Group) (p : Nat) (lanes v : Word) : (g.setPred p lanes v).tr = g.tr := by unfold Group.setPred; split <;> rfl
@[simp] theorem Group.setPred_ep (g : Group) (p : Nat) (lanes v : Word) : (g.setPred p lanes v).ep = g.ep := by unfold Group.setPred; split <;> rfl
@[simp] theorem Group.setPred_ap (g : Group) (p : Nat) (lanes v : Word) : (g.setPred p lanes v).ap = g.ap := by unfold Group.setPred; split <;> rfl
@[simp] theorem Group.setPred_opfRegs (g : Group) (p : Nat) (lanes v : Word) : (g.setPred p lanes v).opfRegs = g.opfRegs := by unfold Group.setPred; split <;> rfl
@[simp] theorem Group.setPred_mesh (g : Group) (p : Nat) (lanes v : Word) : (g.setPred p lanes v).mesh = g.mesh := by unfold Group.setPred; split <;> rfl
@[simp] theorem Group.setPred_inflight (g : Group) (p : Nat) (lanes v : Word) : (g.setPred p lanes v).inflight = g.inflight := by unfold Group.setPred; split <;> rfl
@[simp] theorem Group.setPred_qix (g : Group) (p : Nat) (lanes v : Word) : (g.setPred p lanes v).qix = g.qix := by unfold Group.setPred; split <;> rfl
@[simp] theorem Group.setPred_perf (g : Group) (p : Nat) (lanes v : Word) : (g.setPred p lanes v).perf = g.perf := by unfold Group.setPred; split <;> rfl
@[simp] theorem Group.setPred_wdog (g : Group) (p : Nat) (lanes v : Word) : (g.setPred p lanes v).wdog = g.wdog := by unfold Group.setPred; split <;> rfl
@[simp] theorem Group.setPred_exempt (g : Group) (p : Nat) (lanes v : Word) : (g.setPred p lanes v).exempt = g.exempt := by unfold Group.setPred; split <;> rfl
@[simp] theorem Group.setPred_notice (g : Group) (p : Nat) (lanes v : Word) : (g.setPred p lanes v).notice = g.notice := by unfold Group.setPred; split <;> rfl
@[simp] theorem Group.setPred_stop (g : Group) (p : Nat) (lanes v : Word) : (g.setPred p lanes v).stop = g.stop := by unfold Group.setPred; split <;> rfl
@[simp] theorem Group.setPred_skip (g : Group) (p : Nat) (lanes v : Word) : (g.setPred p lanes v).skip = g.skip := by unfold Group.setPred; split <;> rfl
@[simp] theorem Group.setPred_xch (g : Group) (p : Nat) (lanes v : Word) : (g.setPred p lanes v).xch = g.xch := by unfold Group.setPred; split <;> rfl
@[simp] theorem Group.setPred_sc (g : Group) (p : Nat) (lanes v : Word) : (g.setPred p lanes v).sc = g.sc := by unfold Group.setPred; split <;> rfl

@[simp] theorem Group.setScalar_num (g : Group) (n : Nat) (v : Word) : (g.setScalar n v).num = g.num := rfl
@[simp] theorem Group.setScalar_way (g : Group) (n : Nat) (v : Word) : (g.setScalar n v).way = g.way := rfl
@[simp] theorem Group.setScalar_exec (g : Group) (n : Nat) (v : Word) : (g.setScalar n v).exec = g.exec := rfl
@[simp] theorem Group.setScalar_launched (g : Group) (n : Nat) (v : Word) : (g.setScalar n v).launched = g.launched := rfl
@[simp] theorem Group.setScalar_exited (g : Group) (n : Nat) (v : Word) : (g.setScalar n v).exited = g.exited := rfl
@[simp] theorem Group.setScalar_win (g : Group) (n : Nat) (v : Word) : (g.setScalar n v).win = g.win := rfl
@[simp] theorem Group.setScalar_regs (g : Group) (n : Nat) (v : Word) : (g.setScalar n v).regs = g.regs := rfl
@[simp] theorem Group.setScalar_bound (g : Group) (n : Nat) (v : Word) : (g.setScalar n v).bound = g.bound := rfl
@[simp] theorem Group.setScalar_regPoison (g : Group) (n : Nat) (v : Word) : (g.setScalar n v).regPoison = g.regPoison := rfl
@[simp] theorem Group.setScalar_preds (g : Group) (n : Nat) (v : Word) : (g.setScalar n v).preds = g.preds := rfl
@[simp] theorem Group.setScalar_fmt (g : Group) (n : Nat) (v : Word) : (g.setScalar n v).fmt = g.fmt := rfl
@[simp] theorem Group.setScalar_pend (g : Group) (n : Nat) (v : Word) : (g.setScalar n v).pend = g.pend := rfl
@[simp] theorem Group.setScalar_priv (g : Group) (n : Nat) (v : Word) : (g.setScalar n v).priv = g.priv := rfl
@[simp] theorem Group.setScalar_privW (g : Group) (n : Nat) (v : Word) : (g.setScalar n v).privW = g.privW := rfl
@[simp] theorem Group.setScalar_privPoison (g : Group) (n : Nat) (v : Word) : (g.setScalar n v).privPoison = g.privPoison := rfl
@[simp] theorem Group.setScalar_hm (g : Group) (n : Nat) (v : Word) : (g.setScalar n v).hm = g.hm := rfl
@[simp] theorem Group.setScalar_tr (g : Group) (n : Nat) (v : Word) : (g.setScalar n v).tr = g.tr := rfl
@[simp] theorem Group.setScalar_ep (g : Group) (n : Nat) (v : Word) : (g.setScalar n v).ep = g.ep := rfl
@[simp] theorem Group.setScalar_ap (g : Group) (n : Nat) (v : Word) : (g.setScalar n v).ap = g.ap := rfl
@[simp] theorem Group.setScalar_opfRegs (g : Group) (n : Nat) (v : Word) : (g.setScalar n v).opfRegs = g.opfRegs := rfl
@[simp] theorem Group.setScalar_mesh (g : Group) (n : Nat) (v : Word) : (g.setScalar n v).mesh = g.mesh := rfl
@[simp] theorem Group.setScalar_inflight (g : Group) (n : Nat) (v : Word) : (g.setScalar n v).inflight = g.inflight := rfl
@[simp] theorem Group.setScalar_qix (g : Group) (n : Nat) (v : Word) : (g.setScalar n v).qix = g.qix := rfl
@[simp] theorem Group.setScalar_perf (g : Group) (n : Nat) (v : Word) : (g.setScalar n v).perf = g.perf := rfl
@[simp] theorem Group.setScalar_wdog (g : Group) (n : Nat) (v : Word) : (g.setScalar n v).wdog = g.wdog := rfl
@[simp] theorem Group.setScalar_exempt (g : Group) (n : Nat) (v : Word) : (g.setScalar n v).exempt = g.exempt := rfl
@[simp] theorem Group.setScalar_notice (g : Group) (n : Nat) (v : Word) : (g.setScalar n v).notice = g.notice := rfl
@[simp] theorem Group.setScalar_stop (g : Group) (n : Nat) (v : Word) : (g.setScalar n v).stop = g.stop := rfl
@[simp] theorem Group.setScalar_skip (g : Group) (n : Nat) (v : Word) : (g.setScalar n v).skip = g.skip := rfl
@[simp] theorem Group.setScalar_xch (g : Group) (n : Nat) (v : Word) : (g.setScalar n v).xch = g.xch := rfl
@[simp] theorem Group.setScalar_sc (g : Group) (n : Nat) (v : Word) : (g.setScalar n v).sc = g.sc := rfl

@[simp] theorem Group.perfAdd_num (g : Group) (n k : Nat) : (g.perfAdd n k).num = g.num := rfl
@[simp] theorem Group.perfAdd_way (g : Group) (n k : Nat) : (g.perfAdd n k).way = g.way := rfl
@[simp] theorem Group.perfAdd_exec (g : Group) (n k : Nat) : (g.perfAdd n k).exec = g.exec := rfl
@[simp] theorem Group.perfAdd_launched (g : Group) (n k : Nat) : (g.perfAdd n k).launched = g.launched := rfl
@[simp] theorem Group.perfAdd_exited (g : Group) (n k : Nat) : (g.perfAdd n k).exited = g.exited := rfl
@[simp] theorem Group.perfAdd_win (g : Group) (n k : Nat) : (g.perfAdd n k).win = g.win := rfl
@[simp] theorem Group.perfAdd_regs (g : Group) (n k : Nat) : (g.perfAdd n k).regs = g.regs := rfl
@[simp] theorem Group.perfAdd_bound (g : Group) (n k : Nat) : (g.perfAdd n k).bound = g.bound := rfl
@[simp] theorem Group.perfAdd_regPoison (g : Group) (n k : Nat) : (g.perfAdd n k).regPoison = g.regPoison := rfl
@[simp] theorem Group.perfAdd_scal (g : Group) (n k : Nat) : (g.perfAdd n k).scal = g.scal := rfl
@[simp] theorem Group.perfAdd_preds (g : Group) (n k : Nat) : (g.perfAdd n k).preds = g.preds := rfl
@[simp] theorem Group.perfAdd_fmt (g : Group) (n k : Nat) : (g.perfAdd n k).fmt = g.fmt := rfl
@[simp] theorem Group.perfAdd_pend (g : Group) (n k : Nat) : (g.perfAdd n k).pend = g.pend := rfl
@[simp] theorem Group.perfAdd_priv (g : Group) (n k : Nat) : (g.perfAdd n k).priv = g.priv := rfl
@[simp] theorem Group.perfAdd_privW (g : Group) (n k : Nat) : (g.perfAdd n k).privW = g.privW := rfl
@[simp] theorem Group.perfAdd_privPoison (g : Group) (n k : Nat) : (g.perfAdd n k).privPoison = g.privPoison := rfl
@[simp] theorem Group.perfAdd_hm (g : Group) (n k : Nat) : (g.perfAdd n k).hm = g.hm := rfl
@[simp] theorem Group.perfAdd_tr (g : Group) (n k : Nat) : (g.perfAdd n k).tr = g.tr := rfl
@[simp] theorem Group.perfAdd_ep (g : Group) (n k : Nat) : (g.perfAdd n k).ep = g.ep := rfl
@[simp] theorem Group.perfAdd_ap (g : Group) (n k : Nat) : (g.perfAdd n k).ap = g.ap := rfl
@[simp] theorem Group.perfAdd_opfRegs (g : Group) (n k : Nat) : (g.perfAdd n k).opfRegs = g.opfRegs := rfl
@[simp] theorem Group.perfAdd_mesh (g : Group) (n k : Nat) : (g.perfAdd n k).mesh = g.mesh := rfl
@[simp] theorem Group.perfAdd_inflight (g : Group) (n k : Nat) : (g.perfAdd n k).inflight = g.inflight := rfl
@[simp] theorem Group.perfAdd_qix (g : Group) (n k : Nat) : (g.perfAdd n k).qix = g.qix := rfl
@[simp] theorem Group.perfAdd_wdog (g : Group) (n k : Nat) : (g.perfAdd n k).wdog = g.wdog := rfl
@[simp] theorem Group.perfAdd_exempt (g : Group) (n k : Nat) : (g.perfAdd n k).exempt = g.exempt := rfl
@[simp] theorem Group.perfAdd_notice (g : Group) (n k : Nat) : (g.perfAdd n k).notice = g.notice := rfl
@[simp] theorem Group.perfAdd_stop (g : Group) (n k : Nat) : (g.perfAdd n k).stop = g.stop := rfl
@[simp] theorem Group.perfAdd_skip (g : Group) (n k : Nat) : (g.perfAdd n k).skip = g.skip := rfl
@[simp] theorem Group.perfAdd_xch (g : Group) (n k : Nat) : (g.perfAdd n k).xch = g.xch := rfl
@[simp] theorem Group.perfAdd_sc (g : Group) (n k : Nat) : (g.perfAdd n k).sc = g.sc := rfl

@[simp] theorem Group.complete_num (g : Group) : (g.complete).num = g.num := rfl
@[simp] theorem Group.complete_way (g : Group) : (g.complete).way = g.way := rfl
@[simp] theorem Group.complete_exec (g : Group) : (g.complete).exec = g.exec := rfl
@[simp] theorem Group.complete_launched (g : Group) : (g.complete).launched = g.launched := rfl
@[simp] theorem Group.complete_exited (g : Group) : (g.complete).exited = g.exited := rfl
@[simp] theorem Group.complete_win (g : Group) : (g.complete).win = g.win := rfl
@[simp] theorem Group.complete_regs (g : Group) : (g.complete).regs = g.regs := rfl
@[simp] theorem Group.complete_bound (g : Group) : (g.complete).bound = g.bound := rfl
@[simp] theorem Group.complete_regPoison (g : Group) : (g.complete).regPoison = g.regPoison := rfl
@[simp] theorem Group.complete_scal (g : Group) : (g.complete).scal = g.scal := rfl
@[simp] theorem Group.complete_preds (g : Group) : (g.complete).preds = g.preds := rfl
@[simp] theorem Group.complete_fmt (g : Group) : (g.complete).fmt = g.fmt := rfl
@[simp] theorem Group.complete_pend (g : Group) : (g.complete).pend = g.pend := rfl
@[simp] theorem Group.complete_priv (g : Group) : (g.complete).priv = g.priv := rfl
@[simp] theorem Group.complete_privW (g : Group) : (g.complete).privW = g.privW := rfl
@[simp] theorem Group.complete_privPoison (g : Group) : (g.complete).privPoison = g.privPoison := rfl
@[simp] theorem Group.complete_hm (g : Group) : (g.complete).hm = g.hm := rfl
@[simp] theorem Group.complete_tr (g : Group) : (g.complete).tr = g.tr := rfl
@[simp] theorem Group.complete_ep (g : Group) : (g.complete).ep = g.ep := rfl
@[simp] theorem Group.complete_ap (g : Group) : (g.complete).ap = g.ap := rfl
@[simp] theorem Group.complete_opfRegs (g : Group) : (g.complete).opfRegs = g.opfRegs := rfl
@[simp] theorem Group.complete_mesh (g : Group) : (g.complete).mesh = g.mesh := rfl
@[simp] theorem Group.complete_inflight (g : Group) : (g.complete).inflight = g.inflight := rfl
@[simp] theorem Group.complete_qix (g : Group) : (g.complete).qix = g.qix := rfl
@[simp] theorem Group.complete_perf (g : Group) : (g.complete).perf = g.perf := rfl
@[simp] theorem Group.complete_notice (g : Group) : (g.complete).notice = g.notice := rfl
@[simp] theorem Group.complete_stop (g : Group) : (g.complete).stop = g.stop := rfl
@[simp] theorem Group.complete_xch (g : Group) : (g.complete).xch = g.xch := rfl
@[simp] theorem Group.complete_sc (g : Group) : (g.complete).sc = g.sc := rfl

end Sys2Proof.Machine
end

