-- ==== Sys2Proof/Laws/Lookup.lean ====
section
/-! SUPPORT. What a lookup of a team, a home group, a fragment or a core gives after an update. -/

namespace Sys2Proof.Machine

theorem State.team?_id {s : State} {i : Nat} {t : Team} (h : s.team? i = some t) : t.id = i := by
  unfold State.team? at h
  cases hk : kfind i s.teams with
  | none => simp [hk] at h
  | some x => simp [hk] at h; rw [← h]

theorem Team.group?_num {t : Team} {n : Nat} {g : Group} (h : t.group? n = some g) : g.num = n := by
  unfold Team.group? at h
  cases hk : kfind n t.groups with
  | none => simp [hk] at h
  | some x => simp [hk] at h; rw [← h]

theorem Team.frag?_id {t : Team} {n : Nat} {f : Frag} (h : t.frag? n = some f) : f.id = n := by
  have := List.find?_some h
  simpa using this

theorem State.team?_setTeam (s : State) (t : Team) (i : Nat) :
    (s.setTeam t).team? i = if i = t.id then some t else s.team? i := by
  simp only [State.team?, State.setTeam, kfind_kset]
  by_cases h : i = t.id
  · simp [h]
  · simp [h]

theorem State.team?_modTeam (s : State) (i j : Nat) (f : Team → Team) (hf : ∀ t, (f t).id = t.id) :
    (s.modTeam i f).team? j = if j = i then (s.team? i).map f else s.team? j := by
  unfold State.modTeam
  split
  · next t ht =>
    have hid := State.team?_id ht
    rw [State.team?_setTeam, hf, hid, ht]; rfl
  · next ht => by_cases h : j = i <;> simp [h, ht]

theorem Team.group?_setGroup (t : Team) (g : Group) (n : Nat) :
    (t.setGroup g).group? n = if n = g.num then some g else t.group? n := by
  simp only [Team.group?, Team.setGroup, kfind_kset]
  by_cases h : n = g.num
  · simp [h]
  · simp [h]

theorem Team.group?_modGroup (t : Team) (n m : Nat) (f : Group → Group) (hf : ∀ g, (f g).num = g.num) :
    (t.modGroup n f).group? m = if m = n then (t.group? n).map f else t.group? m := by
  unfold Team.modGroup
  split
  · next g hg =>
    have hn := Team.group?_num hg
    rw [Team.group?_setGroup, hf, hn, hg]; rfl
  · next hg => by_cases h : m = n <;> simp [h, hg]

theorem find_map_same {l : List Frag} {f g : Frag} (h : l.find? (fun x => x.id == g.id) = some f) :
    (l.map (fun x => if x.id == g.id then g else x)).find? (fun x => x.id == g.id) = some g := by
  induction l with
  | nil => cases h
  | cons x r ih =>
    rw [List.find?_cons] at h
    rw [List.map_cons, List.find?_cons]
    by_cases hx : (x.id == g.id) = true
    · simp [hx]
    · rw [Bool.not_eq_true] at hx
      simp only [hx, Bool.false_eq_true, if_false] at h ⊢
      exact ih h

/-- A fragment replaced in its place. -/
theorem Team.frag?_setFrag_same {t : Team} {f g : Frag} (h : t.frag? g.id = some f) :
    (t.setFrag g).frag? g.id = some g := by
  unfold Team.frag? at h
  have hany : t.frags.any (fun x => x.id == g.id) = true :=
    List.any_eq_true.2 ⟨f, List.mem_of_find?_eq_some h, List.find?_some (p := fun x : Frag => x.id == g.id) h⟩
  unfold Team.setFrag
  rw [if_pos hany]
  exact find_map_same h

@[simp] theorem Team.frag?_setGroup (t : Team) (g : Group) (i : Nat) : (t.setGroup g).frag? i = t.frag? i := rfl
@[simp] theorem Team.frag?_modGroup (t : Team) (n : Nat) (f : Group → Group) (i : Nat) :
    (t.modGroup n f).frag? i = t.frag? i := by unfold Team.modGroup; split <;> rfl
@[simp] theorem Team.group?_setFrag (t : Team) (f : Frag) (n : Nat) : (t.setFrag f).group? n = t.group? n := by
  unfold Team.group?; simp
@[simp] theorem Team.group?_delFrag (t : Team) (i n : Nat) : (t.delFrag i).group? n = t.group? n := rfl

@[simp] theorem State.team?_setCore (s : State) (c : Nat) (k : Core) (i : Nat) : (s.setCore c k).team? i = s.team? i := rfl
@[simp] theorem State.team?_modCore (s : State) (c : Nat) (f : Core → Core) (i : Nat) :
    (s.modCore c f).team? i = s.team? i := rfl

theorem State.core_modCore (s : State) (c d : Nat) (f : Core → Core) :
    (s.modCore c f).core d = if d = c then f (s.core c) else s.core d := by
  simp only [State.modCore, State.setCore, State.core, kget_kset]

@[simp] theorem State.core_setTeam (s : State) (t : Team) (c : Nat) : (s.setTeam t).core c = s.core c := rfl
@[simp] theorem State.core_modTeam (s : State) (i : Nat) (f : Team → Team) (c : Nat) :
    (s.modTeam i f).core c = s.core c := by unfold State.core; simp
@[simp] theorem State.core_modGroup (s : State) (i n : Nat) (f : Group → Group) (c : Nat) :
    (s.modGroup i n f).core c = s.core c := by unfold State.core; simp

end Sys2Proof.Machine
end

