-- ==== Sys2Proof/Laws/Memory.lean ====
section
/-! SUPPORT. Physical memory: a read after a write, the canonical form kept by every operation, and what the
outcome of an instruction or of an event row leaves of memory, of the hub and of the clock. -/

namespace Sys2Proof.Machine

theorem Memory.wf_nil : Memory.wf [] = true := rfl

/-- A write keeps the canonical form. -/
theorem Memory.wf_write {m : Memory} (a : Nat) (b : Byte) (h : Memory.wf m = true) : Memory.wf (m.write a b) = true :=
  zwf_zset a b h

/-- A part of a canonical memory is canonical. -/
theorem Memory.wf_filter {m : Memory} (p : Host.Cell → Bool) (h : Memory.wf m = true) :
    Memory.wf (m.filter p) = true := zwf_filter p h

/-- The writes of a step keep the canonical form. -/
theorem Memory.wf_commit {m : Memory} (out : List Host.Cell) (h : Memory.wf m = true) :
    Memory.wf (m.commit out) = true := by
  induction out with
  | nil => exact h
  | cons c r ih => exact Memory.wf_write _ _ ih

/-- A read after a write. -/
theorem Memory.read_write (m : Memory) (a a' : Nat) (b : Byte) :
    (m.write a b).read a' = if a' = a then b else m.read a' := zget_zset ..

/-- A read after the writes of a step: the latest of them, else what memory held. -/
theorem Memory.read_commit (m : Memory) (out : List Host.Cell) (a : Nat) :
    (m.commit out).read a = match kfind a out with | some b => b | none => m.read a := by
  induction out with
  | nil => rfl
  | cons c r ih =>
    obtain ⟨k, b⟩ := c
    simp only [Memory.commit, List.foldr_cons, Memory.read_write, kfind]
    by_cases h : a = k
    · simp [h]
    · rw [if_neg h, if_neg (Ne.symm h)]; exact ih

@[simp] theorem sealMem_mem (s t : State) : (sealMem s t).mem = Memory.commit s.mem t.out := rfl
@[simp] theorem sealMem_out (s t : State) : (sealMem s t).out = [] := rfl
@[simp] theorem sealStep_mem (s t : State) : (sealStep s t).mem = Memory.commit s.mem t.out := rfl
@[simp] theorem sealStep_out (s t : State) : (sealStep s t).out = [] := rfl
@[simp] theorem sealStep_hub (s t : State) : (sealStep s t).hub = s.hub := rfl
@[simp] theorem sealStep_clock (s t : State) : (sealStep s t).clock = s.clock := rfl

/-- What an instruction row answers: a next state whose memory has the writes of the step, with the hub and the
clock as they were. -/
theorem issue_next {i : Instr} {s t : State} {body : Ctx → State → State} (h : issue i s body = .next t) :
    ∃ u : State, t = sealStep s u := by
  unfold issue at h
  split at h
  · cases h
  · split at h
    · cases h
    · split at h
      · cases h
      · exact ⟨_, (Host.Outcome.next.inj h).symm⟩

/-- What an event row answers. -/
theorem event_next {s t : State} {f : State → State} (h : event s f = .next t) :
    t = sealMem s (f { s with out := [], free := s.free + 1 }) := (Host.Outcome.next.inj h).symm

/-- A move keeps the canonical form of memory. -/
def Keeps (m : State → Host.Outcome State Fault Refusal) : Prop :=
  ∀ s t, Memory.wf s.mem = true → m s = .next t → Memory.wf t.mem = true

theorem issue_keeps (i : Instr) (body : Ctx → State → State) : Keeps (fun s => issue i s body) := by
  intro s t hw h
  obtain ⟨u, rfl⟩ := issue_next h
  exact Memory.wf_commit _ hw

theorem event_keeps (f : State → State) : Keeps (fun s => event s f) := by
  intro s t hw h
  rw [event_next h]
  exact Memory.wf_commit _ hw

end Sys2Proof.Machine
end

