-- ==== Sys2Proof/Laws/Issue.lean ====
section
/-! SUPPORT. What the shared part of every instruction comes to for a fragment of one home group: the bookkeeping
of the issue, the checks before the effect, and how the fragment goes on after it. -/

namespace Sys2Proof.Machine

open Sys2Proof.Safety

@[simp] theorem Frag.counted_id (f : Frag) : f.counted.id = f.id := rfl
@[simp] theorem Frag.counted_lanes (f : Frag) : f.counted.lanes = f.lanes := rfl
@[simp] theorem Frag.counted_pc (f : Frag) : f.counted.pc = f.pc := rfl
@[simp] theorem Frag.counted_fmt (f : Frag) : f.counted.fmt = f.fmt := rfl
@[simp] theorem Frag.counted_hm (f : Frag) : f.counted.hm = f.hm := rfl
@[simp] theorem Frag.counted_region (f : Frag) : f.counted.region = f.region := rfl
@[simp] theorem Frag.counted_rank (f : Frag) : f.counted.rank = f.rank := rfl

/-! ### What stays the same, said once for each kind of update -/

/-- Of a team only its home groups and fragments differ. -/
def TeamRest (t t' : Team) : Prop := t' = { t with groups := t'.groups, frags := t'.frags }

theorem TeamRest.refl (t : Team) : TeamRest t t := rfl
theorem TeamRest.trans {a b c : Team} (h1 : TeamRest a b) (h2 : TeamRest b c) : TeamRest a c := by
  unfold TeamRest at *
  exact h2.trans (by rw [h1])
theorem TeamRest.modGroup (t : Team) (n : Nat) (f : Group → Group) : TeamRest t (t.modGroup n f) := by
  unfold TeamRest Team.modGroup; split <;> rfl
theorem TeamRest.setFrag (t : Team) (f : Frag) : TeamRest t (t.setFrag f) := by
  unfold TeamRest Team.setFrag; split <;> rfl

/-- Of the machine only teams, cores, the selection, the count of free values and the writes of the step differ. -/
def StateRest (s s' : State) : Prop :=
  s' = { s with teams := s'.teams, cores := s'.cores, cur := s'.cur, free := s'.free, out := s'.out }

theorem StateRest.refl (s : State) : StateRest s s := rfl
theorem StateRest.trans {a b c : State} (h1 : StateRest a b) (h2 : StateRest b c) : StateRest a c := by
  unfold StateRest at *
  exact h2.trans (by rw [h1])
theorem StateRest.setTeam (s : State) (t : Team) : StateRest s (s.setTeam t) := rfl
theorem StateRest.modTeam (s : State) (i : Nat) (f : Team → Team) : StateRest s (s.modTeam i f) := by
  unfold StateRest State.modTeam; split <;> rfl
theorem StateRest.modGroup (s : State) (i n : Nat) (f : Group → Group) : StateRest s (s.modGroup i n f) :=
  StateRest.modTeam ..
theorem StateRest.modCore (s : State) (c : Nat) (f : Core → Core) : StateRest s (s.modCore c f) := rfl

/-- Of a core only the record of which fragments its ways issued differs. -/
def CoreRest (k k' : Core) : Prop :=
  k' = { k with last := k'.last, lastClk := k'.lastClk, nt := k'.nt, idle := k'.idle }

/-! ### Fragments by their numbers -/

theorem find_map_ne {l : List Frag} {g : Frag} {k : Nat} (hk : k ≠ g.id) :
    (l.map (fun x => if x.id == g.id then g else x)).find? (fun x => x.id == k) = l.find? (fun x => x.id == k) := by
  induction l with
  | nil => rfl
  | cons x r ih =>
    rw [List.map_cons, List.find?_cons, List.find?_cons]
    by_cases hx : x.id = g.id
    · have h1 : (g.id == k) = false := by simpa using Ne.symm hk
      have h2 : (x.id == k) = false := by rw [hx]; exact h1
      rw [if_pos (by simpa using hx)]; simp only [h1, h2]; exact ih
    · have : (if (x.id == g.id) = true then g else x) = x := by simp [hx]
      rw [this, ih]

theorem Team.frag?_setFrag_ne {t : Team} {f g : Frag} {k : Nat} (h : t.frag? g.id = some f) (hk : k ≠ g.id) :
    (t.setFrag g).frag? k = t.frag? k := by
  unfold Team.frag? at h
  have hany : t.frags.any (fun x => x.id == g.id) = true :=
    List.any_eq_true.2 ⟨f, List.mem_of_find?_eq_some h, List.find?_some (p := fun x : Frag => x.id == g.id) h⟩
  unfold Team.setFrag
  rw [if_pos hany]
  exact find_map_ne hk

/-! ### The bookkeeping of an issue -/

/-- A team after a change of one of its home groups. -/
structure TeamStep (t t' : Team) (f f' : Frag) (g' : Group) : Prop where
  id : t'.id = t.id
  frag : t'.frag? f.id = some f'
  group : t'.group? g'.num = some g'
  rest : TeamRest t t'
  groups : ∀ k, k ≠ g'.num → t'.group? k = t.group? k
  frags : ∀ k, k ≠ f.id → t'.frag? k = t.frag? k

theorem counted_one {t : Team} {f : Frag} {g : Group} {m : Word}
    (hf : t.frag? f.id = some f) (hl : f.lanes = [(g.num, m)]) (hg : t.group? g.num = some g) :
    TeamStep t (t.counted f) f f.counted (g.perfAdd 0 1) := by
  have e : t.counted f = (t.modGroup g.num (fun g => g.perfAdd 0 1)).setFrag f.counted := by
    unfold Team.counted; rw [hl]; rfl
  have hgrp : ∀ k, (t.counted f).group? k = if k = g.num then some (g.perfAdd 0 1) else t.group? k := by
    intro k
    rw [e, Team.group?_setFrag, Team.group?_modGroup t g.num k (fun g => g.perfAdd 0 1) (fun _ => rfl), hg]; rfl
  have hfr : (t.modGroup g.num (fun g => g.perfAdd 0 1)).frag? f.counted.id = some f := by simpa using hf
  refine ⟨by rw [e]; simp, by rw [e]; exact Team.frag?_setFrag_same hfr, ?_, ?_, ?_, ?_⟩
  · rw [hgrp]; exact if_pos rfl
  · rw [e]; exact (TeamRest.modGroup ..).trans (TeamRest.setFrag ..)
  · intro k hk; rw [hgrp]; exact if_neg hk
  · intro k hk; rw [e, Team.frag?_setFrag_ne hfr hk]; simp

theorem Group.commitPend_nil (g : Group) (fr : Nat) (h : g.pend = []) : g.commitPend fr = g := by
  unfold Group.commitPend
  rw [h]
  simp only [List.foldl_nil, List.filter_nil, List.map_nil, List.flatMap_nil, List.length_nil, Nat.zero_le, if_true, Group.writePend]
  rw [← h]

theorem Group.commitLanes_nil (g : Group) (fr : Nat) (m : Word) (h : g.pend = []) : g.commitLanes fr m = g := by
  unfold Group.commitLanes
  have e : ({ g with pend := g.pend.map (fun (p : Pend) => p.inLanes m) } : Group) = g := by rw [h]; simp only [List.map_nil]; rw [← h]
  rw [e]
  simp only [Group.commitPend_nil g fr h, h, List.map_nil, List.filter_nil, List.append_nil]
  rw [← h]

/-- What a marker leaves of a home group with nothing pending: the group. -/
theorem Group.marked_nil (g : Group) (fr : Nat) (whole : Bool) (m : Word) (h : g.pend = []) :
    (if whole then g.commitPend fr else g.commitLanes fr m) = g := by
  cases whole
  · exact g.commitLanes_nil fr m h
  · exact g.commitPend_nil fr h

/-- The switch marker of a fragment whose group has nothing pending only passes. -/
theorem marker_one {s : State} {t : Team} {f : Frag} {g : Group} {m word : Word} {fr : Nat} {whole : Bool}
    (ht : s.team? t.id = some t) (hl : f.lanes = [(g.num, m)]) (hg : t.group? g.num = some g) (hp : g.pend = []) :
    s.marker t.id f word fr whole = (s.modTeam t.id (fun t => t.modGroup g.num (fun g =>
      if whole then g.commitPend fr else g.commitLanes fr (glanes f.lanes g.num))), true) := by
  unfold State.marker
  rw [ht]
  simp [hl, hg, hp, Group.poisoned]

theorem liveCause_congr {s u : State} {t t' : Team} {f f' : Frag} {i : Instr} {g : Group} {m : Word}
    (hs : u.grids = s.grids) (hid : t'.grid = t.grid) (hl : f.lanes = [(g.num, m)]) (hl' : f'.lanes = f.lanes)
    (hm : f'.hm = f.hm) (hg : t.group? g.num = some g) (hg' : t'.group? g.num = some (g.perfAdd 0 1)) :
    u.liveCause t' f' i = s.liveCause t f i := by
  unfold State.liveCause State.grid?
  rw [hs, hid, hm, hl', hl]
  simp only [List.any_cons, List.any_nil, hg, hg', Group.perfAdd_win]
  rfl

/-- A change of one team that only changes one of its home groups. -/
theorem modTeam_step {s : State} {t : Team} {f : Frag} {g g' : Group} {F : Group → Group} (ht : s.team? t.id = some t)
    (hf : t.frag? f.id = some f) (hg : t.group? g.num = some g) (hF : F g = g') :
    ∃ t', (s.modTeam t.id (fun t => t.modGroup g.num F)).team? t.id = some t' ∧ TeamStep t t' f f g' ∧
      ∀ k, k ≠ t.id → (s.modTeam t.id (fun t => t.modGroup g.num F)).team? k = s.team? k := by
  have e : s.modTeam t.id (fun t => t.modGroup g.num F) = s.setTeam (t.setGroup g') := by
    unfold State.modTeam; rw [ht]; simp only; unfold Team.modGroup; rw [hg]; simp only [hF]
  rw [e]
  refine ⟨t.setGroup g', ?_, ⟨rfl, hf, ?_, rfl, ?_, fun _ _ => rfl⟩, ?_⟩
  · rw [State.team?_setTeam]; simp
  · rw [Team.group?_setGroup]; simp
  · intro k hk; rw [Team.group?_setGroup]; exact if_neg hk
  · intro k hk; rw [State.team?_setTeam]; exact if_neg hk

/-- Where the effect of an instruction begins: the state, and what the instruction sees, once its issue has been
counted and its checks are passed. -/
structure AtIssue (i : Instr) (s : State) (t : Team) (f : Frag) (g : Group) (c : Ctx) (u : State) : Prop where
  instr : c.i = i
  ops : c.o = Safety.ops i
  lit : c.lit = litPos i
  core : c.core = t.core
  len : c.len = lenOf (firstWord i)
  word : c.word = firstWord i
  free : c.free = s.free
  fragment : c.frag = f.counted
  team : u.team? t.id = some c.team
  step : TeamStep t c.team f f.counted (g.perfAdd 0 1)
  rest : StateRest s u
  cur : u.cur = none
  freeNext : u.free = s.free + 1
  out : u.out = []
  cores : ∀ k, CoreRest (s.core k) (u.core k)
  teams : ∀ k, k ≠ t.id → u.team? k = s.team? k

theorem TeamStep.trans {t t' t'' : Team} {f f' f'' : Frag} {g g' : Group} (h1 : TeamStep t t' f f' g)
    (h2 : TeamStep t' t'' f' f'' g') (hf : f'.id = f.id) (hg : g'.num = g.num) : TeamStep t t'' f f'' g' := by
  refine ⟨h2.id.trans h1.id, hf ▸ h2.frag, h2.group, h1.rest.trans h2.rest, ?_, ?_⟩
  · intro k hk; rw [h2.groups k hk]; exact h1.groups k (by rw [← hg]; exact hk)
  · intro k hk; rw [h2.frags k (by rw [hf]; exact hk)]; exact h1.frags k hk

/-- An instruction that issues comes to its effect, and answers what its effect comes to. -/
theorem issue_at {i : Instr} {s : State} {t : Team} {f : Frag} {g : Group} {m : Word} (h : Issues i s t f g m) :
    AtIssue i s t f g (sees i s t f) (begins i s t f) ∧ ∀ body : Ctx → State → State,
      issue i s body = .next (sealStep s (body (sees i s t f) (begins i s t f))) := by
  obtain ⟨fm, hfm⟩ := Option.isSome_iff_exists.1 h.row
  have hops : fm.x = Safety.ops i := by unfold Safety.ops; rw [hfm]
  have hlit : fm.spec.lit = litPos i := by unfold litPos; rw [hfm]
  have hc := counted_one h.frag h.lanes h.group
  -- the state once the issue has been counted
  let b : State := s.quiet.begun t f
  have hbt : b.team? t.id = some (t.counted f) := by
    change (s.quiet.setTeam (t.counted f)).team? t.id = _
    rw [State.team?_setTeam, hc.id]; simp
  have hbts : ∀ k, k ≠ t.id → b.team? k = s.team? k := by
    intro k hk
    change (s.quiet.setTeam (t.counted f)).team? k = _
    rw [State.team?_setTeam, hc.id, if_neg hk]; rfl
  have hbc : ∀ k, CoreRest (s.core k) (b.core k) := by
    intro k
    have : b.core k = if k = t.core then (s.core t.core).issued f.way s.clock.clk t.id f.id else s.core k :=
      State.core_modCore (s.quiet.setTeam (t.counted f)) t.core k
        (fun k => k.issued f.way s.clock.clk t.id f.id)
    rw [CoreRest, this]
    split
    · next hk => subst hk; rfl
    · rfl
  have hrest : StateRest s b := rfl
  have key : ∃ u t2, b.waited fm t.id f (firstWord i) s.free = (u, true) ∧
      u.team? t.id = some t2 ∧ TeamStep t t2 f f.counted (g.perfAdd 0 1) ∧ StateRest s u ∧ u.cur = none ∧
      u.free = s.free + 1 ∧ u.out = [] ∧ (∀ k, CoreRest (s.core k) (u.core k)) ∧ (∀ k, k ≠ t.id → u.team? k = s.team? k) := by
    unfold State.waited
    split
    · have hmk := marker_one (s := b) (t := t.counted f) (f := f) (g := g.perfAdd 0 1) (m := m) (word := firstWord i)
        (fr := s.free) (whole := fm.x.sw) (by rw [hc.id]; exact hbt) h.lanes hc.group h.settled
      obtain ⟨t2, h1, h2, h3⟩ := modTeam_step (s := b) (t := t.counted f) (f := f.counted) (g := g.perfAdd 0 1)
        (F := fun g => if fm.x.sw then g.commitPend s.free else g.commitLanes s.free (glanes f.lanes g.num))
        (by rw [hc.id]; exact hbt) hc.frag hc.group (Group.marked_nil _ _ _ _ h.settled)
      rw [hc.id] at hmk h1 h3
      refine ⟨_, t2, hmk, h1, hc.trans h2 rfl rfl, hrest.trans (StateRest.modTeam ..), by simp; rfl, by simp; rfl, by simp; rfl,
        ?_, ?_⟩
      · intro k; rw [State.core_modTeam]; exact hbc k
      · intro k hk; rw [h3 k hk]; exact hbts k hk
    · exact ⟨b, _, rfl, hbt, hc, hrest, rfl, rfl, rfl, hbc, hbts⟩
  obtain ⟨u, t2, hm, h1, h2, h3, h4, h5, h6, h7, h8⟩ := key
  have hgrids : u.grids = s.grids := by rw [h3]
  have hgrid : t2.grid = t.grid := by rw [h2.rest]
  have hcore : t2.core = t.core := by rw [h2.rest]
  have hlive : u.liveCause t2 f.counted i = none := by
    rw [liveCause_congr (f' := f.counted) hgrids hgrid h.lanes rfl rfl h.group h2.group, h.live]
  have hu : begins i s t f = u := by
    unfold begins; rw [hfm]
    exact congrArg Prod.fst hm
  have ht2 : teamNow i s t f = t2 := by unfold teamNow; rw [hu, h1]; rfl
  have hc2 : sees i s t f =
      ({ i := i, o := fm.x, lit := fm.spec.lit, core := t2.core, team := t2, frag := f.counted,
         len := lenOf (firstWord i), word := firstWord i, free := s.free } : Ctx) := by
    unfold sees; rw [ht2, ← hops, ← hlit]
  rw [hu, hc2]
  refine ⟨⟨rfl, hops, hlit, hcore, rfl, rfl, rfl, rfl, h1, h2, h3, h4, h5, h6, h7, h8⟩, fun body => ?_⟩
  have hp : u.perform i fm t.id f.id s.free body = body
      { i := i, o := fm.x, lit := fm.spec.lit, core := t2.core, team := t2, frag := f.counted,
        len := lenOf (firstWord i), word := firstWord i, free := s.free } u := by
    unfold State.perform; simp only [h1, h2.frag, hlive]
  have ha : s.quiet.issueAt i t f body = u.perform i fm t.id f.id s.free body := by
    unfold State.issueAt
    rw [hfm, h.fields]
    have hm' : (s.quiet.begun t f).waited fm t.id f (firstWord i) s.quiet.free = (u, true) := hm
    simp only [hm', if_true]; rfl
  unfold issue
  rw [h.selected]
  simp only [h.team, h.frag]
  rw [ha, hp]

/-- An instruction that issues comes to its effect, and answers what its effect comes to. -/
theorem issue_one {i : Instr} {s : State} {t : Team} {f : Frag} {g : Group} {m : Word} (h : Issues i s t f g m)
    (body : Ctx → State → State) :
    ∃ c u, AtIssue i s t f g c u ∧ issue i s body = .next (sealStep s (body c u)) :=
  ⟨_, _, (issue_at h).1, (issue_at h).2 body⟩

/-! ### How a fragment goes on -/

@[simp] theorem Frag.looped_region (f : Frag) (b : Bool) (x y : Dword) (n : Nat) : (f.looped b x y n).region = f.region := by
  unfold Frag.looped; grind
@[simp] theorem Frag.looped_rank (f : Frag) (b : Bool) (x y : Dword) (n : Nat) : (f.looped b x y n).rank = f.rank := by
  unfold Frag.looped; grind

/-- A fragment of one home group goes on whole. -/
theorem goOn_one {t : Team} {f : Frag} {g : Group} {m word : Word} {n : Next} (hf : t.frag? f.id = some f)
    (hl : f.lanes = [(g.num, m)]) (hm : m ≠ 0) (hg : t.group? g.num = some g) :
    TeamStep t (t.goOn f.id word [(g.num, n)]) f (f.goes word f.id n f.lanes) g := by
  have hin : f.lanesIn [g.num] = f.lanes := by unfold Frag.lanesIn; rw [hl]; simpa using hm
  have hne : f.lanes.isEmpty = false := by rw [hl]; rfl
  have e : t.goOn f.id word [(g.num, n)] = t.setFrag (f.goes word f.id n f.lanes) := by
    unfold Team.goOn
    rw [hf]
    simp only [classes, List.foldl_cons, List.foldl_nil, List.find?_nil, List.nil_append, hin, hne, Bool.false_eq_true, if_false]
  have hfr : t.frag? (f.goes word f.id n f.lanes).id = some f := hf
  rw [e]
  refine ⟨by simp, Team.frag?_setFrag_same hfr, by simpa using hg, TeamRest.setFrag .., ?_, ?_⟩
  · intro k _; simp
  · intro k hk; exact Team.frag?_setFrag_ne hfr hk

/-- The state after a fragment of one home group has gone on, against the state before. -/
structure Settled (v w : State) (tid : Nat) : Prop where
  rest : StateRest v w
  cur : w.cur = v.cur
  free : w.free = v.free
  out : w.out = v.out
  cores : ∀ k, w.core k = v.core k
  teams : ∀ k, k ≠ tid → w.team? k = v.team? k

/-- A fragment of one home group whose instruction is done goes on, on a core that does not step. -/
theorem settle_ready {v : State} {t : Team} {f0 f : Frag} {g : Group} {m word : Word} {fr : Nat} {n : Next}
    (ht : v.team? t.id = some t) (h0 : f0.id = f.id) (hf : t.frag? f.id = some f) (hl : f.lanes = [(g.num, m)])
    (hm : m ≠ 0) (hg : t.group? g.num = some g) (hs : (v.core t.core).dbg.step = false) (hn : n.st = .ready) :
    ∃ t', (v.settle t.id f0 word fr [(g.num, .go n)]).team? t.id = some t' ∧
      TeamStep t t' f (f.goes word f.id n f.lanes) g.complete ∧
      Settled v (v.settle t.id f0 word fr [(g.num, .go n)]) t.id := by
  obtain ⟨t1, a1, a2, a3⟩ := modTeam_step (F := Group.complete) ht hf hg rfl
  have e : v.settle t.id f0 word fr [(g.num, .go n)]
      = (v.modTeam t.id (fun t => t.modGroup g.num Group.complete)).modTeam t.id (fun t => t.goOn f.id word [(g.num, n)]) := by
    unfold State.settle
    simp only [ht, hs, List.foldl_cons, List.foldl_nil, hn, beq_self_eq_true, if_true, Bool.false_eq_true, if_false,
      List.nil_append, List.append_nil, h0]
    rfl
  have hgo := goOn_one (g := g.complete) (word := word) (n := n) (m := m) a2.frag hl hm a2.group
  rw [e]
  generalize hb : v.modTeam t.id (fun t => t.modGroup g.num Group.complete) = b at *
  have e2 : b.modTeam t.id (fun t => t.goOn f.id word [(g.num, n)]) = b.setTeam (t1.goOn f.id word [(g.num, n)]) := by
    unfold State.modTeam; rw [a1]
  have hid : (t1.goOn f.id word [(g.num, n)]).id = t.id := hgo.id.trans a2.id
  rw [e2]
  refine ⟨t1.goOn f.id word [(g.num, n)], by rw [State.team?_setTeam, hid]; simp, a2.trans hgo rfl rfl, ?_⟩
  have hb' : StateRest v b := by rw [← hb]; exact StateRest.modTeam ..
  refine ⟨hb'.trans (StateRest.setTeam ..), ?_, ?_, ?_, ?_, ?_⟩
  · rw [← hb]; simp
  · rw [← hb]; simp
  · rw [← hb]; simp
  · intro k; rw [← hb]; simp
  · intro k hk; rw [State.team?_setTeam, hid, if_neg hk, a3 k hk]

/-- A fragment of one home group whose instruction makes it wait. -/
theorem settle_waits {v : State} {t : Team} {f0 f : Frag} {g : Group} {m word : Word} {fr : Nat} {n : Next}
    (ht : v.team? t.id = some t) (h0 : f0.id = f.id) (hf : t.frag? f.id = some f) (hl : f.lanes = [(g.num, m)])
    (hm : m ≠ 0) (hg : t.group? g.num = some g) (hn : n.st ≠ .ready) :
    ∃ t', (v.settle t.id f0 word fr [(g.num, .go n)]).team? t.id = some t' ∧
      TeamStep t t' f (f.goes word f.id n f.lanes) g ∧
      Settled v (v.settle t.id f0 word fr [(g.num, .go n)]) t.id := by
  have e : v.settle t.id f0 word fr [(g.num, .go n)] = v.modTeam t.id (fun t => t.goOn f.id word [(g.num, n)]) := by
    unfold State.settle
    have hb : (n.st == FState.ready) = false := by simpa using hn
    have ha : ([(g.num, GOut.go n)].all fun e => e.2 == GOut.hold) = false := rfl
    simp only [List.foldl_cons, List.foldl_nil, hb, Bool.false_eq_true, if_false, List.nil_append, List.append_nil, h0, ha]
  have hgo := goOn_one (word := word) (n := n) hf hl hm hg
  have e2 : v.modTeam t.id (fun t => t.goOn f.id word [(g.num, n)]) = v.setTeam (t.goOn f.id word [(g.num, n)]) := by
    unfold State.modTeam; rw [ht]
  rw [e, e2]
  refine ⟨t.goOn f.id word [(g.num, n)], by rw [State.team?_setTeam, hgo.id]; simp, hgo, StateRest.setTeam .., rfl, rfl, rfl,
    fun _ => rfl, ?_⟩
  intro k hk; rw [State.team?_setTeam, hgo.id, if_neg hk]

end Sys2Proof.Machine
end

