-- ==== Sys2Proof/Laws/Effects.lean ====
section
/-! SUPPORT. What an instruction that acts on nothing but its home group comes to, for each shape of instruction: the
group after it, and that nothing else has changed. -/

namespace Sys2Proof.Machine

open Sys2Proof.Safety

theorem Group.readReg_nil {g : Group} (h : g.pend = []) (fr r l : Nat) : g.readReg fr r l = g.reg r l := by
  unfold Group.readReg; rw [h]; rfl
theorem Group.readPred_nil {g : Group} (h : g.pend = []) (fr p : Nat) : g.readPred fr p = g.pred p := by
  unfold Group.readPred; rw [h]; rfl
theorem Group.readScal_nil {g : Group} (h : g.pend = []) (fr n : Nat) : g.readScal fr n = g.scalar n := by
  unfold Group.readScal; rw [h]; rfl

theorem activeR_nil {g : Group} (h : g.pend = []) (fr : Nat) (m : Word) (o : XOps) : g.activeR fr m o = g.active m o := by
  unfold Group.activeR Group.active Group.predMask; rw [Group.readPred_nil h]

/-- The home groups the instruction sees: the one of its fragment. -/
theorem AtIssue.groups_eq {i : Instr} {s : State} {t : Team} {f : Frag} {g : Group} {m : Word} {c : Ctx} {u : State}
    (a : AtIssue i s t f g c u) (h : Issues i s t f g m) :
    c.groups = [{ g := g.perfAdd 0 1, carried := m, act := active i g m }] := by
  have hg : c.team.group? g.num = some (g.perfAdd 0 1) := a.step.group
  unfold Ctx.groups
  rw [a.fragment, Frag.counted_lanes, h.lanes]
  simp only [List.filterMap_cons, List.filterMap_nil, hg, Option.map_some]
  rw [activeR_nil (g := g.perfAdd 0 1) h.settled, a.ops]
  rfl

/-- The home groups in the claims' context. -/
theorem ctx_groups {i : Instr} {s : State} {t : Team} {f : Frag} {g : Group} {m : Word} (h : Issues i s t f g m) :
    (ctx i s t f).groups = [gctx i g m] := by
  unfold Ctx.groups ctx gctx
  simp only [h.lanes, List.filterMap_cons, List.filterMap_nil, h.group, Option.map_some]
  rw [activeR_nil h.settled]; rfl

/-- R195: in a fragment of one home group every operand is read from that group. -/
theorem readLane_one {c : Ctx} {gc : GCtx} (hg : c.groups = [gc]) (k : Kind) (l : Nat) (y : Group × Nat)
    (h : c.readLane gc k l = some y) : y.1 = gc.g := by
  have hcol : ∀ n x, c.column n = some x → x = gc := by
    intro n x hx
    unfold Ctx.column at hx
    rw [hg] at hx
    have := List.mem_of_find?_eq_some hx
    simpa using this
  revert h
  unfold Ctx.readLane
  simp only
  have side : ∀ (n : Nat) (z : Group × Nat), (match c.column n with
      | some g => if bit g.act n = true then some (g.g, n) else none
      | none => none) = some z → z.1 = gc.g := by
    intro n z
    split
    · next x hx => rw [hcol n x hx]; split <;> intro h <;> cases h; rfl
    · intro h; cases h
  have orOwn : ∀ n, ((match c.column n with
      | some g => if bit g.act n = true then some (g.g, n) else none
      | none => none).getD (gc.g, l)).1 = gc.g := by
    intro n
    cases hx : (match c.column n with
      | some g => if bit g.act n = true then some (g.g, n) else none
      | none => none) with
    | none => rfl
    | some z => exact side n z hx
  have all : ∀ (out : Bool) (n : Nat), (match c.o.edge with
      | .zero => if out = true then none else (match c.column n with
        | some g => if bit g.act n = true then some (g.g, n) else none
        | none => none)
      | .clamp => if out = true then some (gc.g, l) else some ((match c.column n with
        | some g => if bit g.act n = true then some (g.g, n) else none
        | none => none).getD (gc.g, l))
      | .wrap => some ((match c.column n with
        | some g => if bit g.act n = true then some (g.g, n) else none
        | none => none).getD (gc.g, l))) = some y → y.1 = gc.g := by
    intro out n
    split
    · split
      · intro h; cases h
      · exact side n y
    · split
      · intro h; cases h; rfl
      · intro h; cases h; exact orOwn n
    · intro h; cases h; exact orOwn n
  split
  · exact all _ _
  · exact all _ _
  · intro h; cases h; rfl

/-- R100: no operand of a fragment of one home group is poisoned where no register of the group is. -/
theorem poisonedOperand_clean {c : Ctx} {gc : GCtx} (hg : c.groups = [gc]) (hp : gc.g.regPoison = []) :
    c.poisonedOperand gc = false := by
  unfold Ctx.poisonedOperand
  split
  · rfl
  · have own : ∀ (l : List Nat) (p : GCtx × Nat → Bool), (∀ n, p (gc, n) = false) → (l.map (fun n => (gc, n))).any p = false := by
      intro l p h
      induction l with
      | nil => rfl
      | cons n l ih => simp [h n, ih]
    have first : ∀ (p : GCtx × Nat → Bool), (∀ n, p (gc, n) = false) → c.firstLane.any p = false := by
      intro p h
      unfold Ctx.firstLane
      rw [hg]
      simp only [List.find?_cons, List.find?_nil]
      split
      · next x hx =>
        have : x = gc := by split at hx <;> simp_all
        subst this; exact own _ p h
      · rfl
    have hit : ∀ n, ((srcRuns c.i).any fun r => match c.readLane gc r.1 n with
        | none => false
        | some y => (List.range r.2.2).any fun k => smem (32 * (r.2.1 + k) + y.2) y.1.regPoison) = false := by
      intro n
      rw [List.any_eq_false]
      intro r _
      split
      · simp
      · next y hy =>
        rw [readLane_one hg _ _ _ hy, hp]
        simp [smem]
    simp only
    split <;> first
      | exact own _ _ hit
      | (split
         · rfl
         · first | exact own _ _ hit | exact first _ hit)

/-- The check of the one home group passes, and its effect is had. -/
theorem runGroups_one {α : Type} {c : Ctx} {gc : GCtx} {check : GCtx → State → GRes α × State}
    {perform : List (GCtx × α) → State → State} {u v : State} {a : α} {n : Next} (hg : c.groups = [gc])
    (hp : gc.g.regPoison = []) (hc : check gc u = (.ok a n, v)) :
    c.runGroups check perform u = c.settle [(gc.g.num, .go n)] (perform [(gc, a)] v) := by
  have hno : c.poisonedOperand gc = false := poisonedOperand_clean hg hp
  unfold Ctx.runGroups
  rw [hg]
  simp only [List.foldl_cons, List.foldl_nil, hc, hno, Bool.false_eq_true, if_false, List.nil_append]

theorem mapGroups_one {α : Type} (c : Ctx) (F : GCtx → α → Group → Group) (gc : GCtx) (a : α) (v : State) :
    c.mapGroups F [(gc, a)] v = v.modTeam c.team.id (fun t => t.modGroup gc.g.num (F gc a)) := rfl

/-- An instruction whose effect is on its home group alone: it answers a next state, with that effect. -/
theorem issue_group {i : Instr} {s : State} {t : Team} {f : Frag} {g : Group} {m : Word} (h : Issues i s t f g m)
    {body : Ctx → State → State} {F : Ctx → Group → Group} {pc : Ctx → Dword}
    (hF : ∀ c, (F c (g.perfAdd 0 1)).num = g.num)
    (hb : ∀ c u, AtIssue i s t f g c u → body c u = c.settle
      [(g.num, .go { pc := pc c, fmt := f.fmt, hm := f.hm })] (u.modTeam c.team.id (fun t => t.modGroup g.num (F c)))) :
    ∃ c u s' t' f', AtIssue i s t f g c u ∧ issue i s body = .next s' ∧
      Ran s t f g (pc c) s' t' f' (F c (g.perfAdd 0 1)).complete := by
  obtain ⟨c, u, a, e⟩ := issue_one h body
  rw [hb c u a] at e
  have hid : c.team.id = t.id := a.step.id
  have hcore : c.team.core = t.core := by rw [a.step.rest]
  obtain ⟨t1, b1, b2, b3⟩ := modTeam_step (s := u) (t := c.team) (f := f.counted) (g := g.perfAdd 0 1) (F := F c)
    (by rw [hid]; exact a.team) a.step.frag a.step.group rfl
  have hrest1 : StateRest s (u.modTeam c.team.id (fun t => t.modGroup g.num (F c))) := a.rest.trans (StateRest.modTeam ..)
  have hstep : ((u.modTeam c.team.id (fun t => t.modGroup g.num (F c))).core t1.core).dbg.step = false := by
    have h1 : t1.core = t.core := by rw [b2.rest]; exact hcore
    rw [State.core_modTeam, h1, a.cores t.core]; exact h.running
  obtain ⟨t2, d1, d2, d3⟩ := settle_ready (v := u.modTeam c.team.id (fun t => t.modGroup g.num (F c))) (t := t1)
    (f0 := c.frag) (f := f.counted) (g := F c (g.perfAdd 0 1)) (m := m) (word := c.word) (fr := c.free)
    (n := { pc := pc c, fmt := f.fmt, hm := f.hm }) (by rw [b2.id]; exact b1) (by rw [a.fragment]) b2.frag
    (by rw [hF]; exact h.lanes) h.carried b2.group hstep rfl
  rw [b2.id, hF] at d1 d3
  generalize hw : (u.modTeam c.team.id (fun t => t.modGroup g.num (F c))) = v at *
  have hset : c.settle [(g.num, .go { pc := pc c, fmt := f.fmt, hm := f.hm })] v
      = v.settle c.team.id c.frag c.word c.free [(g.num, .go { pc := pc c, fmt := f.fmt, hm := f.hm })] := rfl
  rw [hset] at e
  generalize hz : v.settle c.team.id c.frag c.word c.free [(g.num, .go { pc := pc c, fmt := f.fmt, hm := f.hm })] = w at *
  rw [hid] at d1 d3
  have hall := (a.step.trans b2 rfl (hF c)).trans d2 rfl rfl
  have hgn : ((F c (g.perfAdd 0 1)).complete).num = g.num := hF c
  have hrest : StateRest s w := hrest1.trans d3.rest
  have hout : w.out = [] := by rw [d3.out, ← hw]; simp [a.out]
  have hcur : w.cur = none := by rw [d3.cur, ← hw]; simp [a.cur]
  have hfree : w.free = s.free + 1 := by rw [d3.free, ← hw]; simp [a.freeNext]
  have hmem : (sealStep s w).mem = s.mem := by rw [sealStep_mem, hout]; rfl
  refine ⟨c, u, sealStep s w, t2, _, a, e, ⟨d1, hall.frag, ?_, ?_, ?_, ?_, ?_, ?_, hall.rest, ?_, hall.frags⟩⟩
  · have := hall.group; rw [hgn] at this; exact this
  · refine ⟨rfl, rfl, rfl, rfl, rfl, ?_, ?_⟩ <;> simp [Frag.goes]
  · intro x; rw [hmem]
  · have : sealStep s w = { w with mem := s.mem, out := [], hub := s.hub, clock := s.clock } := by
      unfold sealStep sealMem; rw [hout]; rfl
    rw [this, hrest, hcur, hfree]
  · intro k
    have : (sealStep s w).core k = w.core k := rfl
    rw [this, d3.cores k, ← hw, State.core_modTeam]; exact a.cores k
  · intro k hk
    have : (sealStep s w).team? k = w.team? k := rfl
    rw [this, d3.teams k hk, ← hw, State.team?_modTeam _ _ _ _ (fun _ => by simp), if_neg (by rw [hid]; exact hk)]
    exact a.teams k hk
  · intro k hk; exact hall.groups k (by rw [hgn]; exact hk)

/-! ### Registers written lane by lane -/

theorem key_inj {r r' l l' : Nat} (h : l < 32) (h' : l' < 32) (e : 32 * r + l = 32 * r' + l') : r = r' ∧ l = l' := by omega

theorem Group.reg_setReg (g : Group) (r l r' l' : Nat) (v : Word) (h : l < 32) (h' : l' < 32) :
    (g.setReg r l v).reg r' l' = if r' = r ∧ l' = l then v else g.reg r' l' := by
  unfold Group.reg Group.setReg
  rw [zget_zset]
  by_cases e : 32 * r' + l' = 32 * r + l
  · obtain ⟨e1, e2⟩ := key_inj h' h e; simp [e1, e2]
  · have : ¬ (r' = r ∧ l' = l) := by rintro ⟨rfl, rfl⟩; exact e rfl
    simp [e, this]

/-- Of a home group only registers and their granules have changed. -/
def RegRest (g g' : Group) : Prop := g' = { g with regs := g'.regs, bound := g'.bound }

theorem RegRest.refl (g : Group) : RegRest g g := rfl
theorem RegRest.trans {a b c : Group} (h1 : RegRest a b) (h2 : RegRest b c) : RegRest a c := by
  unfold RegRest at *
  exact h2.trans (by rw [h1])

theorem writeReg_clean {g : Group} (hp : g.pend = []) (fr r l : Nat) (v : Word) : g.writeReg fr r l v = g.setReg r l v := by
  unfold Group.writeReg; rw [hp]
  simp only [List.map_nil]; rw [← hp]

theorem setReg_rest {g : Group} (hq : g.regPoison = []) (r l : Nat) (v : Word) : RegRest g (g.setReg r l v) := by
  unfold RegRest Group.setReg
  simp [hq, sdel]

theorem writeLane_clean {g : Group} (hp : g.pend = []) (hq : g.regPoison = []) (fr l : Nat) (hl : l < 32)
    (ws : List (Nat × Word)) :
    RegRest g (g.writeLane fr l ws) ∧ ∀ r' l', l' < 32 → (g.writeLane fr l ws).reg r' l'
      = if l' = l then ws.foldl (fun old e => if e.1 = r' then e.2 else old) (g.reg r' l') else g.reg r' l' := by
  unfold Group.writeLane
  induction ws generalizing g with
  | nil => exact ⟨RegRest.refl g, by intro r' l' _; simp⟩
  | cons w ws ih =>
    rw [List.foldl_cons, writeReg_clean hp]
    have hr := setReg_rest hq w.1 l w.2
    obtain ⟨i1, i2⟩ := ih (g := g.setReg w.1 l w.2) (by rw [hr]; exact hp) (by rw [hr]; exact hq)
    refine ⟨hr.trans i1, ?_⟩
    intro r' l' hl'
    rw [i2 r' l' hl', Group.reg_setReg _ _ _ _ _ _ hl hl']
    by_cases e : l' = l
    · subst e
      simp only [if_true, and_true, List.foldl_cons]
      by_cases e' : w.1 = r'
      · simp [e']
      · simp [e', Ne.symm e']
    · simp [e]

theorem writeLanes_clean {g : Group} (hp : g.pend = []) (hq : g.regPoison = []) (fr : Nat) (L : List Nat)
    (hL : ∀ l ∈ L, l < 32) (hn : L.Nodup) (W : Nat → List (Nat × Word)) :
    RegRest g (g.writeLanes fr (L.map (fun l => (l, W l)))) ∧
      ∀ r' l', l' < 32 → (g.writeLanes fr (L.map (fun l => (l, W l)))).reg r' l'
        = if l' ∈ L then (W l').foldl (fun old e => if e.1 = r' then e.2 else old) (g.reg r' l') else g.reg r' l' := by
  unfold Group.writeLanes
  induction L generalizing g with
  | nil => exact ⟨RegRest.refl g, by intro r' l' _; simp⟩
  | cons l L ih =>
    rw [List.map_cons, List.foldl_cons]
    obtain ⟨k1, k2⟩ := writeLane_clean hp hq fr l (hL l List.mem_cons_self) (W l)
    obtain ⟨n1, n2⟩ := List.nodup_cons.1 hn
    obtain ⟨i1, i2⟩ := ih (g := g.writeLane fr l (W l)) (by rw [k1]; exact hp) (by rw [k1]; exact hq)
      (fun x hx => hL x (List.mem_cons_of_mem _ hx)) n2
    refine ⟨k1.trans i1, ?_⟩
    intro r' l' hl'
    rw [i2 r' l' hl', k2 r' l' hl']
    by_cases e : l' = l
    · subst e; simp [n1]
    · simp [e]

theorem lanesOf_lt {m : Word} {l : Nat} (h : l ∈ lanesOf m) : l < 32 := by
  unfold lanesOf at h; exact List.mem_range.1 (List.mem_filter.1 h).1
theorem lanesOf_nodup (m : Word) : (lanesOf m).Nodup := by
  unfold lanesOf; exact List.Pairwise.filter _ List.nodup_range
theorem mem_lanesOf {m : Word} {l : Nat} (h : l < 32) : l ∈ lanesOf m ↔ bit m l = true := by
  unfold lanesOf bit; simp [h]

/-- The words of a result, register by register. -/
theorem destWords_fold (d n r : Nat) (v : Dword) (old : Word) :
    (destWords d n v).foldl (fun old e => if e.1 = r then e.2 else old) old = (kfind r (destWords d n v)).getD old := by
  unfold destWords
  by_cases h : n = 2
  · simp only [h, if_true, List.foldl_cons, List.foldl_nil, kfind]
    by_cases e : d = r
    · simp [e]
    · simp [e]; split <;> rfl
  · simp only [h, if_false, List.foldl_cons, List.foldl_nil, kfind]
    split <;> rfl

/-! ### Operands, as the instruction reads them and as the claims say them -/

section
variable {i : Instr} {s : State} {t : Team} {f : Frag} {g : Group} {m : Word} {c : Ctx} {u : State}

theorem val_eq (a : AtIssue i s t f g c u) (h : Issues i s t f g m) (k : Kind) (b : BitVec 8) (n l : Nat) :
    c.val (seen i g m) k b n l = (ctx i s t f).val (gctx i g m) k b n l := by
  have hg : c.groups = [seen i g m] := a.groups_eq h
  have hc := ctx_groups h
  have hv : ∀ fr n r l, (g.perfAdd 0 1).val fr n r l = g.val fr n r l := fun _ _ _ _ => rfl
  have hs : ∀ fr n r, (g.perfAdd 0 1).sval fr n r = g.sval fr n r := fun _ _ _ => rfl
  have hcol : ∀ n r l, c.columnVal n r l = (ctx i s t f).columnVal n r l := by
    intro n r l
    unfold Ctx.columnVal Ctx.column
    rw [hg, hc, a.free]
    have h1 : ∀ p : GCtx → Bool, List.find? p [seen i g m] = if p (seen i g m) then some (seen i g m) else none := by
      intro p; rw [List.find?_cons]; cases p (seen i g m) <;> rfl
    have h2 : ∀ p : GCtx → Bool, List.find? p [gctx i g m] = if p (gctx i g m) then some (gctx i g m) else none := by
      intro p; rw [List.find?_cons]; cases p (gctx i g m) <;> rfl
    rw [h1, h2]
    have hb : ∀ b : Bool, bit m l = b → (seen i g m).carried.getLsbD l = b ∧ (gctx i g m).carried.getLsbD l = b :=
      fun b hb => ⟨hb, hb⟩
    cases hm : bit m l <;> simp only [bit, hb _ hm, Bool.false_eq_true, if_false, if_true] <;> rfl
  have hnb : ∀ left n r l, c.neighbour (seen i g m) left n r l = (ctx i s t f).neighbour (gctx i g m) left n r l := by
    intro left n r l
    unfold Ctx.neighbour
    rw [a.ops, a.free]
    simp only [hcol]
    rfl
  unfold Ctx.val
  cases k
  · rw [a.free]; rfl
  · rw [a.free]; rfl
  · exact hnb ..
  · exact hnb ..

theorem srcA_eq (a : AtIssue i s t f g c u) (h : Issues i s t f g m) (n l : Nat) :
    c.srcA (seen i g m) n l = (ctx i s t f).srcA (gctx i g m) n l := by
  unfold Ctx.srcA Ctx.litAt; rw [val_eq a h, a.lit, a.ops]; rfl
theorem srcB_eq (a : AtIssue i s t f g c u) (h : Issues i s t f g m) (n l : Nat) :
    c.srcB (seen i g m) n l = (ctx i s t f).srcB (gctx i g m) n l := by
  unfold Ctx.srcB Ctx.litAt; rw [val_eq a h, a.lit, a.ops]; rfl
theorem srcC_eq (a : AtIssue i s t f g c u) (h : Issues i s t f g m) (n l : Nat) :
    c.srcC (seen i g m) n l = (ctx i s t f).srcC (gctx i g m) n l := by
  unfold Ctx.srcC Ctx.litAt; rw [val_eq a h, a.lit, a.ops]; rfl
theorem sA_eq (a : AtIssue i s t f g c u) (n : Nat) : c.sA (seen i g m) n = (ctx i s t f).sA (gctx i g m) n := by
  unfold Ctx.sA Ctx.litAt; rw [a.lit, a.ops, a.free]; rfl
theorem sB_eq (a : AtIssue i s t f g c u) (n : Nat) : c.sB (seen i g m) n = (ctx i s t f).sB (gctx i g m) n := by
  unfold Ctx.sB Ctx.litAt; rw [a.lit, a.ops, a.free]; rfl
theorem sC_eq (a : AtIssue i s t f g c u) (n : Nat) : c.sC (seen i g m) n = (ctx i s t f).sC (gctx i g m) n := by
  unfold Ctx.sC Ctx.litAt; rw [a.lit, a.ops, a.free]; rfl
theorem ops_eq (a : AtIssue i s t f g c u) : c.o = (ctx i s t f).o := a.ops
theorem free_eq (a : AtIssue i s t f g c u) : c.free = (ctx i s t f).free := a.free
theorem fmt_eq (a : AtIssue i s t f g c u) : c.frag.fmt = (ctx i s t f).frag.fmt := by rw [a.fragment]; rfl

end

/-! ### The shapes of instruction -/

/-- An instruction whose check passes for its home group and whose effect is on that group alone. -/
theorem group_runs {i : Instr} {s : State} {t : Team} {f : Frag} {g : Group} {m : Word} (h : Issues i s t f g m)
    {α : Type} {check : Ctx → GCtx → State → GRes α × State} {F : Ctx → GCtx → α → Group → Group} (A : Ctx → α)
    (hc : ∀ c u, AtIssue i s t f g c u → check c (seen i g m) u = (.ok (A c) c.next, u))
    (hF : ∀ c, (F c (seen i g m) (A c) (g.perfAdd 0 1)).num = g.num) :
    ∃ c u s' t' f', AtIssue i s t f g c u ∧ issue i s (fun c => c.runGroups (check c) (c.mapGroups (F c))) = .next s' ∧
      Ran s t f g (Safety.after i f) s' t' f' (F c (seen i g m) (A c) (g.perfAdd 0 1)).complete := by
  obtain ⟨c, u, s', t', f', a, e, hr⟩ := issue_group (body := fun c => c.runGroups (check c) (c.mapGroups (F c))) h
    (F := fun c => F c (seen i g m) (A c)) (pc := fun c => c.frag.pc + w64 c.len) hF (by
      intro c u a
      have hg : c.groups = [seen i g m] := a.groups_eq h
      have hn : c.next = { pc := c.frag.pc + w64 c.len, fmt := f.fmt, hm := f.hm } := by
        unfold Ctx.next; rw [a.fragment]; rfl
      rw [runGroups_one hg h.clean (hc c u a), mapGroups_one, hn]; rfl)
  have hpc : c.frag.pc + w64 c.len = Safety.after i f := by rw [a.fragment, a.len]; rfl
  exact ⟨c, u, s', t', f', a, e, hpc ▸ hr⟩

section
variable {i : Instr} {s : State} {t : Team} {f : Frag} {g : Group} {m : Word}

/-- What the writes of a result in the active lanes leave of a home group with nothing pending or poisoned. -/
theorem results_clean (h : Issues i s t f g m) (fr d k : Nat) (v : Nat → Dword) :
    RegRest (g.perfAdd 0 1) ((g.perfAdd 0 1).writeLanes fr
        ((lanesOf (active i g m)).map (fun l => (l, destWords d k (v l))))) ∧
      ∀ r l, l < 32 → ((g.perfAdd 0 1).writeLanes fr
        ((lanesOf (active i g m)).map (fun l => (l, destWords d k (v l))))).reg r l
        = if bit (active i g m) l then (kfind r (destWords d k (v l))).getD (g.reg r l) else g.reg r l := by
  obtain ⟨h1, h2⟩ := writeLanes_clean (g := g.perfAdd 0 1) h.settled h.clean fr (lanesOf (active i g m))
    (fun _ => lanesOf_lt) (lanesOf_nodup _) (fun l => destWords d k (v l))
  refine ⟨h1, fun r l hl => ?_⟩
  rw [h2 r l hl, destWords_fold, show (g.perfAdd 0 1).reg r l = g.reg r l from rfl]
  by_cases hb : bit (active i g m) l = true
  · rw [if_pos ((mem_lanesOf hl).2 hb), if_pos hb]
  · rw [if_neg (fun x => hb ((mem_lanesOf hl).1 x)), if_neg hb]

theorem regsOnly_of {g g' : Group} (h : RegRest (g.perfAdd 0 1) g') : RegsOnly g g'.complete := by
  unfold RegsOnly Group.complete; rw [h]; rfl

/-- A short-class instruction that writes its result in every active lane: it answers a next state in which the
registers D of the active lanes hold the result, and nothing else has changed. -/
theorem perLane_runs (h : Issues i s t f g m) (k : Ctx → Nat) (v : Ctx → GCtx → Nat → Dword)
    (hk : ∀ c u, AtIssue i s t f g c u → k c = k (ctx i s t f))
    (hv : ∀ c u, AtIssue i s t f g c u → v c (seen i g m) = v (ctx i s t f) (gctx i g m)) :
    ∃ s' t' f' g', issue i s (fun c => c.perLane (k c) (v c)) = .next s' ∧ Ran s t f g (Safety.after i f) s' t' f' g' ∧
      RegsOnly g g' ∧ ∀ r l, l < 32 → g'.reg r l =
        if bit (active i g m) l then (kfind r (destWords (Safety.ops i).d.toNat (k (ctx i s t f))
          (v (ctx i s t f) (gctx i g m) l))).getD (g.reg r l)
        else g.reg r l := by
  obtain ⟨c, u, s', t', f', a, e, hr⟩ := group_runs (check := fun c gc s => c.okNext (c.results gc (k c) (v c gc)) s)
    (F := fun c _ ws g => g.writeLanes c.free ws) h (fun c => c.results (seen i g m) (k c) (v c (seen i g m)))
    (fun c u a => rfl) (fun c => by
      have := (results_clean h c.free c.o.d.toNat (k c) (v c (seen i g m))).1
      change ((g.perfAdd 0 1).writeLanes c.free _).num = _
      unfold RegRest at this; unfold Ctx.results
      change ((g.perfAdd 0 1).writeLanes c.free ((lanesOf (active i g m)).map (fun l => (l, destWords c.o.d.toNat (k c) (v c (seen i g m) l))))).num = _
      rw [this]; rfl)
  have hcl := results_clean h c.free c.o.d.toNat (k c) (v c (seen i g m))
  refine ⟨s', t', f', _, e, hr, regsOnly_of hcl.1, fun r l hl => ?_⟩
  rw [← hk c u a, ← hv c u a, ← a.ops]
  exact hcl.2 r l hl

/-! A result not yet certain (R196). -/

theorem keyed_fold (l : Nat) (hl : l < 32) (ws : List (Nat × Word)) (acc : List (Nat × Word)) (r l' : Nat) (hl' : l' < 32) :
    kfind (32 * r + l') (ws.foldl (fun a e => kset (32 * e.1 + l) e.2 a) acc)
      = if l' = l then ws.foldl (fun old e => if e.1 = r then some e.2 else old) (kfind (32 * r + l') acc)
        else kfind (32 * r + l') acc := by
  induction ws generalizing acc with
  | nil => simp
  | cons w ws ih =>
    rw [List.foldl_cons, ih, kfind_kset]
    by_cases e : l' = l
    · subst e
      simp only [if_true, List.foldl_cons]
      by_cases e' : w.1 = r
      · simp [e']
      · have : ¬ (32 * r + l' = 32 * w.1 + l') := by omega
        rw [if_neg this, if_neg e']
    · have : ¬ (32 * r + l' = 32 * w.1 + l) := by omega
      simp [e, this]

theorem keyed_find (L : List Nat) (hL : ∀ l ∈ L, l < 32) (hn : L.Nodup) (W : Nat → List (Nat × Word)) (r l' : Nat)
    (hl' : l' < 32) : ∀ acc : List (Nat × Word), kfind (32 * r + l')
      ((L.map (fun l => (l, W l))).foldl (fun a w => w.2.foldl (fun a e => kset (32 * e.1 + w.1) e.2 a) a) acc)
      = if l' ∈ L then (W l').foldl (fun old e => if e.1 = r then some e.2 else old) (kfind (32 * r + l') acc)
        else kfind (32 * r + l') acc := by
  induction L with
  | nil => intro acc; simp
  | cons l L ih =>
    intro acc
    obtain ⟨n1, n2⟩ := List.nodup_cons.1 hn
    rw [List.map_cons, List.foldl_cons, ih (fun x hx => hL x (List.mem_cons_of_mem _ hx)) n2,
      keyed_fold l (hL l List.mem_cons_self) (W l) acc r l' hl']
    by_cases e : l' = l
    · subst e; simp [n1]
    · simp [e]

theorem destWords_foldSome (d n r : Nat) (v : Dword) :
    (destWords d n v).foldl (fun old e => if e.1 = r then some e.2 else old) none = kfind r (destWords d n v) := by
  unfold destWords
  by_cases h : n = 2
  · simp only [h, if_true, List.foldl_cons, List.foldl_nil, kfind]
    by_cases e : d = r
    · simp [e]
    · simp [e]
  · simp only [h, if_false, List.foldl_cons, List.foldl_nil, kfind]

/-- The registers of a long-class result in the active lanes. -/
theorem keyed_results (a : Word) (d k : Nat) (v : Nat → Dword) (r l : Nat) (hl : l < 32) :
    kfind (32 * r + l) (keyed ((lanesOf a).map (fun l => (l, destWords d k (v l)))))
      = if bit a l then kfind r (destWords d k (v l)) else none := by
  unfold keyed
  rw [keyed_find (lanesOf a) (fun _ => lanesOf_lt) (lanesOf_nodup a) (fun l => destWords d k (v l)) r l hl []]
  rw [kfind_nil, destWords_foldSome]
  by_cases hb : bit a l = true
  · rw [if_pos ((mem_lanesOf hl).2 hb), if_pos hb]
  · rw [if_neg (fun x => hb ((mem_lanesOf hl).1 x)), if_neg hb]

theorem addPend_num (g : Group) (ws : LaneWrites) : (g.addPend ws).num = g.num := by
  unfold Group.addPend; split <;> rfl

theorem addPend_clean {g : Group} (hp : g.pend = []) (ws : LaneWrites) :
    PendOnly g (((g.perfAdd 0 1).addPend ws).complete) ∧
      (((g.perfAdd 0 1).addPend ws).complete).pend = pending ws := by
  unfold pending Group.addPend PendOnly Group.complete
  cases hw : ws.isEmpty
  · simp [hp]
  · simp [hp]

/-- A long-class instruction that writes its result in every active lane: it answers a next state in which that result
is pending for the registers D of the active lanes, and nothing else has changed. -/
theorem perLaneLong_runs (h : Issues i s t f g m) (k : Ctx → Nat) (v : Ctx → GCtx → Nat → Dword)
    (hk : ∀ c u, AtIssue i s t f g c u → k c = k (ctx i s t f))
    (hv : ∀ c u, AtIssue i s t f g c u → v c (seen i g m) = v (ctx i s t f) (gctx i g m)) :
    ∃ s' t' f' g', issue i s (fun c => c.perLaneLong (k c) (v c)) = .next s' ∧
      Ran s t f g (Safety.after i f) s' t' f' g' ∧ PendOnly g g' ∧
      g'.pend = pending ((ctx i s t f).results (gctx i g m) (k (ctx i s t f)) (v (ctx i s t f) (gctx i g m))) := by
  obtain ⟨c, u, s', t', f', a, e, hr⟩ := group_runs (check := fun c gc s => c.okNext (c.results gc (k c) (v c gc)) s)
    (F := fun _ _ ws g => g.addPend ws) h (fun c => c.results (seen i g m) (k c) (v c (seen i g m)))
    (fun c u a => rfl) (fun c => addPend_num ..)
  have hcl := addPend_clean h.settled (c.results (seen i g m) (k c) (v c (seen i g m)))
  refine ⟨s', t', f', _, e, hr, hcl.1, ?_⟩
  rw [hcl.2]
  have : c.results (seen i g m) (k c) (v c (seen i g m))
      = (ctx i s t f).results (gctx i g m) (k (ctx i s t f)) (v (ctx i s t f) (gctx i g m)) := by
    rw [hk c u a, hv c u a]; unfold Ctx.results; rw [a.ops]; rfl
  rw [this]

/-! Floating results, where no enabled exception is raised (R285). -/

theorem maskOf_eq_zero {p : Nat → Bool} (h : ∀ l, l < 32 → p l = false) : maskOf p = 0 := by
  unfold maskOf
  have : ∀ L : List Nat, (∀ l ∈ L, l < 32) → L.foldl (fun m l => if p l then m ||| laneBit l else m) (0 : Word) = 0 := by
    intro L
    induction L with
    | nil => intro _; rfl
    | cons l L ih =>
      intro hL
      rw [List.foldl_cons, h l (hL l List.mem_cons_self)]
      simp only [Bool.false_eq_true, if_false]
      exact ih (fun x hx => hL x (List.mem_cons_of_mem _ hx))
  exact this _ (fun l hl => List.mem_range.1 hl)

theorem arithTrap_none {fmt : Word} {xs : List (Nat × Exc)} (h : ∀ x ∈ xs, (x.2 &&& fmtEnabled fmt) = 0) :
    arithTrap fmt xs = none := by
  unfold arithTrap
  have : (maskOf fun l => xs.any fun x => x.1 == l && (x.2 &&& fmtEnabled fmt) != 0) = 0 := by
    apply maskOf_eq_zero
    intro l _
    rw [List.any_eq_false]
    intro x hx
    simp [h x hx]
  simp only [this, if_true]

theorem fCheck_ok {α : Type} {c : Ctx} {gc : GCtx} {v : Nat → α × Exc} {u : State}
    (h : ∀ l, bit gc.act l = true → l < 32 → ((v l).2 &&& fmtEnabled c.frag.fmt) = 0) :
    c.fCheck gc v u = (.ok ((lanesOf gc.act).map (fun l => (l, (v l).1))) c.next, u) := by
  have hn : arithTrap c.frag.fmt (((lanesOf gc.act).map (fun l => (l, v l))).map (fun e => (e.1, e.2.2))) = none := by
    apply arithTrap_none
    intro x hx
    simp only [List.map_map, List.mem_map, Function.comp] at hx
    obtain ⟨l, hl, rfl⟩ := hx
    exact h l ((mem_lanesOf (lanesOf_lt hl)).1 hl) (lanesOf_lt hl)
  unfold Ctx.fCheck Ctx.fLanes
  simp only [hn]; rw [List.map_map]; rfl

/-- A short-class floating instruction, where no active lane raises an enabled exception. -/
theorem perLaneF_runs (h : Issues i s t f g m) (v : Ctx → GCtx → Nat → Word × Exc)
    (hv : ∀ c u, AtIssue i s t f g c u → v c (seen i g m) = v (ctx i s t f) (gctx i g m))
    (hx : ∀ l, bit (active i g m) l = true → l < 32 → ((v (ctx i s t f) (gctx i g m) l).2 &&& fmtEnabled f.fmt) = 0) :
    ∃ s' t' f' g', issue i s (fun c => c.perLaneF (v c)) = .next s' ∧ Ran s t f g (Safety.after i f) s' t' f' g' ∧
      RegsOnly g g' ∧ ∀ r l, l < 32 → g'.reg r l =
        if bit (active i g m) l ∧ r = (Safety.ops i).d.toNat then (v (ctx i s t f) (gctx i g m) l).1 else g.reg r l := by
  obtain ⟨c, u, s', t', f', a, e, hr⟩ := group_runs (check := fun c gc s => c.fCheck gc (v c gc) s)
    (F := fun c _ ws g => g.writeLanes c.free (ws.map (fun w => (w.1, [(c.o.d.toNat, w.2)])))) h
    (fun c => (lanesOf (active i g m)).map (fun l => (l, (v c (seen i g m) l).1)))
    (fun c u a => fCheck_ok (by
      intro l hb hl
      rw [hv c u a, a.fragment]; exact hx l hb hl)) (fun c => by
      have := (writeLanes_clean (g := g.perfAdd 0 1) h.settled h.clean c.free (lanesOf (active i g m)) (fun _ => lanesOf_lt)
        (lanesOf_nodup _) (fun l => [(c.o.d.toNat, (v c (seen i g m) l).1)])).1
      rw [List.map_map]
      unfold RegRest at this
      exact (congrArg Group.num this).trans rfl)
  have hcl := writeLanes_clean (g := g.perfAdd 0 1) h.settled h.clean c.free (lanesOf (active i g m)) (fun _ => lanesOf_lt)
    (lanesOf_nodup _) (fun l => [(c.o.d.toNat, (v c (seen i g m) l).1)])
  rw [List.map_map] at hr
  refine ⟨s', t', f', _, e, hr, regsOnly_of hcl.1, fun r l hl => ?_⟩
  have h2 := hcl.2 r l hl
  rw [← hv c u a, ← a.ops]
  refine Eq.trans h2 ?_
  rw [show (g.perfAdd 0 1).reg r l = g.reg r l from rfl]
  simp only [List.foldl_cons, List.foldl_nil, mem_lanesOf hl]
  by_cases hb : bit (active i g m) l = true
  · by_cases hr : r = c.o.d.toNat
    · simp [hb, hr]
    · simp [hb, hr, Ne.symm hr]
  · simp [hb]

/-- A long-class floating instruction, where no active lane raises an enabled exception. -/
theorem perLaneFLong_runs (h : Issues i s t f g m) (v : Ctx → GCtx → Nat → Word × Exc)
    (hv : ∀ c u, AtIssue i s t f g c u → v c (seen i g m) = v (ctx i s t f) (gctx i g m))
    (hx : ∀ l, bit (active i g m) l = true → l < 32 → ((v (ctx i s t f) (gctx i g m) l).2 &&& fmtEnabled f.fmt) = 0) :
    ∃ s' t' f' g', issue i s (fun c => c.perLaneFLong (v c)) = .next s' ∧ Ran s t f g (Safety.after i f) s' t' f' g' ∧
      PendOnly g g' ∧ g'.pend = pending ((lanesOf (active i g m)).map
        (fun l => (l, [((Safety.ops i).d.toNat, (v (ctx i s t f) (gctx i g m) l).1)]))) := by
  obtain ⟨c, u, s', t', f', a, e, hr⟩ := group_runs (check := fun c gc s => c.fCheck gc (v c gc) s)
    (F := fun c _ ws g => g.addPend (ws.map (fun w => (w.1, [(c.o.d.toNat, w.2)])))) h
    (fun c => (lanesOf (active i g m)).map (fun l => (l, (v c (seen i g m) l).1)))
    (fun c u a => fCheck_ok (by
      intro l hb hl
      rw [hv c u a, a.fragment]; exact hx l hb hl)) (fun c => addPend_num ..)
  rw [List.map_map] at hr
  have hcl := addPend_clean h.settled
    ((lanesOf (active i g m)).map ((fun w : Nat × Word => (w.1, [(c.o.d.toNat, w.2)])) ∘ fun l => (l, (v c (seen i g m) l).1)))
  refine ⟨s', t', f', _, e, hr, hcl.1, ?_⟩
  rw [hcl.2, ← hv c u a, ← a.ops]; rfl

/-! Predicates and scalars. -/

theorem getLsbD_laneBit (k l : Nat) (hl : l < 32) : (laneBit k).getLsbD l = decide (k = l) := by
  unfold laneBit
  rw [BitVec.getLsbD_ofNat]
  simp [hl, Nat.testBit_two_pow]

theorem maskOf_bit (p : Nat → Bool) (l : Nat) (hl : l < 32) : bit (maskOf p) l = p l := by
  unfold bit maskOf
  have key : ∀ (L : List Nat) (x : Word), (L.foldl (fun m k => if p k then m ||| laneBit k else m) x).getLsbD l
      = (x.getLsbD l || (decide (l ∈ L) && p l)) := by
    intro L
    induction L with
    | nil => intro x; simp
    | cons k L ih =>
      intro x
      rw [List.foldl_cons, ih]
      by_cases hp : p k = true
      · rw [if_pos hp, BitVec.getLsbD_or, getLsbD_laneBit k l hl]
        by_cases e : l = k
        · subst e; simp [hp]
        · simp [e, Ne.symm e]
      · rw [if_neg hp]
        by_cases e : l = k
        · subst e; simp [hp]
        · simp [e]
  rw [key]
  simp [hl]

theorem setPred_bits {g : Group} (p : Nat) (lanes v : Word) (q l : Nat) (hl : l < 32) :
    bit ((g.setPred p lanes v).pred q) l = if q = p ∧ q ≠ 0 ∧ bit lanes l = true then bit v l else bit (g.pred q) l := by
  unfold Group.setPred
  by_cases hp : p = 0
  · subst hp
    rw [if_pos rfl]
    have : ¬ (q = 0 ∧ q ≠ 0 ∧ bit lanes l = true) := by rintro ⟨h1, h2, _⟩; exact h2 h1
    rw [if_neg this]
  · rw [if_neg hp]
    unfold Group.pred
    by_cases hq : q = 0
    · subst hq
      simp [Ne.symm hp]
    · simp only [hq, if_false, hp]
      rw [kget_kset]
      by_cases e : q = p
      · subst e
        simp only [if_true, bit, BitVec.getLsbD_or, BitVec.getLsbD_and, BitVec.getLsbD_not, hl, decide_true, Bool.true_and]
        cases lanes.getLsbD l <;> simp [hp]
      · simp [e]

theorem writePred_clean {g : Group} (hp : g.pend = []) (fr p : Nat) (lanes v : Word) :
    g.writePred fr p lanes v = g.setPred p lanes v := by
  unfold Group.writePred; rw [hp]; simp only [List.map_nil]; rw [← hp]

theorem setPred_only (g : Group) (p : Nat) (lanes v : Word) :
    PredsOnly g (((g.perfAdd 0 1).setPred p lanes v).complete) := by
  unfold PredsOnly Group.complete Group.setPred; split <;> rfl

theorem complete_pred (g : Group) (q : Nat) : g.complete.pred q = g.pred q := rfl

theorem perf_pred (g : Group) (q : Nat) : (g.perfAdd 0 1).pred q = g.pred q := rfl

/-- An instruction that writes a predicate in every active lane. -/
theorem perPred_runs (h : Issues i s t f g m) (v : Ctx → GCtx → Nat → Bool)
    (hv : ∀ c u, AtIssue i s t f g c u → v c (seen i g m) = v (ctx i s t f) (gctx i g m)) :
    ∃ s' t' f' g', issue i s (fun c => c.perPred (v c)) = .next s' ∧ Ran s t f g (Safety.after i f) s' t' f' g' ∧
      PredsOnly g g' ∧ ∀ q l, l < 32 → bit (g'.pred q) l =
        if q = fld (Safety.ops i).d 0 3 ∧ q ≠ 0 ∧ bit (active i g m) l = true then v (ctx i s t f) (gctx i g m) l
        else bit (g.pred q) l := by
  have hnum : ∀ fr p (lanes x : Word), ((g.perfAdd 0 1).writePred fr p lanes x).num = g.num := by
    intro fr p lanes x; rw [writePred_clean (g := g.perfAdd 0 1) h.settled]; unfold Group.setPred; split <;> rfl
  obtain ⟨c, u, s', t', f', a, e, hr⟩ := group_runs
    (check := fun c gc s => c.okNext (maskOf (fun l => bit gc.act l && v c gc l)) s)
    (F := fun c gc x g => g.writePred c.free (fld c.o.d 0 3) gc.act x) h
    (fun c => maskOf (fun l => bit (active i g m) l && v c (seen i g m) l)) (fun c u a => rfl) (fun c => hnum ..)
  have hwp : ∀ x, (g.perfAdd 0 1).writePred c.free (fld c.o.d 0 3) (seen i g m).act x
      = (g.perfAdd 0 1).setPred (fld c.o.d 0 3) (active i g m) x := fun x => writePred_clean (g := g.perfAdd 0 1) h.settled ..
  refine ⟨s', t', f', _, e, hr, ?_, fun q l hl => ?_⟩
  · rw [hwp]; exact setPred_only ..
  · rw [hwp, complete_pred, setPred_bits _ _ _ _ _ hl, perf_pred, maskOf_bit _ _ hl, a.ops, hv c u a]
    by_cases hb : bit (active i g m) l = true
    · simp [hb]
    · simp [hb]

/-- A floating comparison, where no active lane raises an enabled exception. -/
theorem perPredF_runs (h : Issues i s t f g m) (v : Ctx → GCtx → Nat → Bool × Exc)
    (hv : ∀ c u, AtIssue i s t f g c u → v c (seen i g m) = v (ctx i s t f) (gctx i g m))
    (hx : ∀ l, bit (active i g m) l = true → l < 32 → ((v (ctx i s t f) (gctx i g m) l).2 &&& fmtEnabled f.fmt) = 0) :
    ∃ s' t' f' g', issue i s (fun c => c.perPredF (v c)) = .next s' ∧ Ran s t f g (Safety.after i f) s' t' f' g' ∧
      PredsOnly g g' ∧ ∀ q l, l < 32 → bit (g'.pred q) l =
        if q = fld (Safety.ops i).d 0 3 ∧ q ≠ 0 ∧ bit (active i g m) l = true then (v (ctx i s t f) (gctx i g m) l).1
        else bit (g.pred q) l := by
  have hnum : ∀ fr p (lanes x : Word), ((g.perfAdd 0 1).writePred fr p lanes x).num = g.num := by
    intro fr p lanes x; rw [writePred_clean (g := g.perfAdd 0 1) h.settled]; unfold Group.setPred; split <;> rfl
  obtain ⟨c, u, s', t', f', a, e, hr⟩ := group_runs (check := fun c gc s => c.fCheck gc (v c gc) s)
    (F := fun c gc (ws : List (Nat × Bool)) g => g.writePred c.free (fld c.o.d 0 3) gc.act
      (maskOf (fun l => ws.any (fun w => w.1 == l && w.2)))) h
    (fun c => (lanesOf (active i g m)).map (fun l => (l, (v c (seen i g m) l).1)))
    (fun c u a => fCheck_ok (by
      intro l hb hl
      rw [hv c u a, a.fragment]; exact hx l hb hl)) (fun c => hnum ..)
  have hwp : ∀ x, (g.perfAdd 0 1).writePred c.free (fld c.o.d 0 3) (seen i g m).act x
      = (g.perfAdd 0 1).setPred (fld c.o.d 0 3) (active i g m) x := fun x => writePred_clean (g := g.perfAdd 0 1) h.settled ..
  refine ⟨s', t', f', _, e, hr, ?_, fun q l hl => ?_⟩
  · rw [hwp]; exact setPred_only ..
  · rw [hwp, complete_pred, setPred_bits _ _ _ _ _ hl, perf_pred, maskOf_bit _ _ hl, a.ops, hv c u a]
    by_cases hb : bit (active i g m) l = true
    · have : ((lanesOf (active i g m)).map (fun l => (l, (v (ctx i s t f) (gctx i g m) l).1))).any (fun w => w.1 == l && w.2)
          = (v (ctx i s t f) (gctx i g m) l).1 := by
        rw [List.any_map, Bool.eq_iff_iff, List.any_eq_true]
        constructor
        · rintro ⟨x, hx, hy⟩
          simp only [Function.comp, Bool.and_eq_true, beq_iff_eq] at hy
          rw [← hy.1]; exact hy.2
        · intro hy
          exact ⟨l, (mem_lanesOf hl).2 hb, by simp [hy]⟩
      rw [this]
    · simp [hb]

theorem writeScal_clean {g : Group} (hp : g.pend = []) (fr n : Nat) (v : Word) : g.writeScal fr n v = g.setScalar n v := by
  unfold Group.writeScal; rw [hp]; simp only [List.map_nil]; rw [← hp]

/-- Of a home group only scalar registers have changed. -/
def ScalRest (g g' : Group) : Prop := g' = { g with scal := g'.scal }

theorem ScalRest.trans {a b c : Group} (h1 : ScalRest a b) (h2 : ScalRest b c) : ScalRest a c := by
  unfold ScalRest at *
  exact h2.trans (by rw [h1])

theorem scalar_setScalar (g : Group) (n n' : Nat) (v : Word) :
    (g.setScalar n v).scalar n' = if n' = n then v else g.scalar n' := by
  unfold Group.scalar Group.setScalar; exact zget_zset ..

theorem writeScals_clean {g : Group} (hp : g.pend = []) (fr : Nat) (ws : List (Nat × Word)) :
    ScalRest g (ws.foldl (fun g w => g.writeScal fr w.1 w.2) g) ∧
      ∀ n, (ws.foldl (fun g w => g.writeScal fr w.1 w.2) g).scalar n
        = ws.foldl (fun old e => if e.1 = n then e.2 else old) (g.scalar n) := by
  induction ws generalizing g with
  | nil => exact ⟨rfl, fun _ => rfl⟩
  | cons w ws ih =>
    rw [List.foldl_cons, writeScal_clean hp]
    obtain ⟨i1, i2⟩ := ih (g := g.setScalar w.1 w.2) hp
    refine ⟨ScalRest.trans (b := g.setScalar w.1 w.2) rfl i1, fun n => ?_⟩
    rw [i2, scalar_setScalar, List.foldl_cons]
    by_cases e : n = w.1
    · simp [e]
    · simp [e, Ne.symm e]

/-- A scalar instruction: performed once for the home group, where a lane is active. -/
theorem perScal_runs (h : Issues i s t f g m) (k : Ctx → Nat) (v : Ctx → GCtx → Dword)
    (hk : ∀ c u, AtIssue i s t f g c u → k c = k (ctx i s t f))
    (hv : ∀ c u, AtIssue i s t f g c u → v c (seen i g m) = v (ctx i s t f) (gctx i g m)) :
    ∃ s' t' f' g', issue i s (fun c => c.perScal (k c) (v c)) = .next s' ∧ Ran s t f g (Safety.after i f) s' t' f' g' ∧
      ScalsOnly g g' ∧ ∀ n, g'.scalar n =
        if active i g m = 0 then g.scalar n
        else (kfind n (destWords (Safety.ops i).d.toNat (k (ctx i s t f)) (v (ctx i s t f) (gctx i g m)))).getD (g.scalar n) := by
  have hcl := fun fr ws => writeScals_clean (g := g.perfAdd 0 1) h.settled fr ws
  obtain ⟨c, u, s', t', f', a, e, hr⟩ := group_runs (check := fun c _ s => c.okNext () s)
    (F := fun c gc (_ : Unit) g => if gc.act = 0 then g
      else (destWords c.o.d.toNat (k c) (v c gc)).foldl (fun g w => g.writeScal c.free w.1 w.2) g) h
    (fun _ => ()) (fun c u a => rfl) (fun c => by
      split
      · rfl
      · rw [(hcl c.free _).1]; rfl)
  refine ⟨s', t', f', _, e, hr, ?_, fun n => ?_⟩
  · split
    · rfl
    · unfold ScalsOnly Group.complete; rw [(hcl c.free _).1]; rfl
  · rw [← hk c u a, ← hv c u a, ← a.ops, ← destWords_fold]
    change (if active i g m = 0 then g.perfAdd 0 1 else _).scalar n = _
    by_cases h0 : active i g m = 0
    · rw [if_pos h0, if_pos h0]; rfl
    · rw [if_neg h0, if_neg h0]; exact (hcl c.free _).2 n

end

end Sys2Proof.Machine
end

