-- ==== Sys2Proof/Laws/Shapes.lean ====
section
/-! SUPPORT. What an instruction comes to whose effect reaches beyond its home group: how its fragment goes on or
waits after any effect, what changes besides, and the pieces of such effects. -/

namespace Sys2Proof.Machine

open Sys2Proof.Safety

/-! ### After any effect -/

/-- Of a state only the teams differ. -/
def TeamsOnly (v w : State) : Prop := w = { v with teams := w.teams }

theorem TeamsOnly.refl (v : State) : TeamsOnly v v := rfl
theorem TeamsOnly.trans {a b c : State} (h1 : TeamsOnly a b) (h2 : TeamsOnly b c) : TeamsOnly a c := by
  unfold TeamsOnly at *; exact h2.trans (by rw [h1])
theorem TeamsOnly.setTeam (v : State) (t : Team) : TeamsOnly v (v.setTeam t) := rfl
theorem TeamsOnly.modTeam (v : State) (k : Nat) (F : Team → Team) : TeamsOnly v (v.modTeam k F) := by
  unfold State.modTeam; split <;> rfl
theorem TeamsOnly.modGroup (v : State) (k n : Nat) (F : Group → Group) : TeamsOnly v (v.modGroup k n F) :=
  TeamsOnly.modTeam ..

/-- A team in the middle of an effect: the fragment has not yet gone on, the home group is as `gv` says, the other
home groups and fragments are as they were. -/
structure TeamAt (t tv : Team) (f : Frag) (gv : Group) : Prop where
  id : tv.id = t.id
  core : tv.core = t.core
  frag : tv.frag? f.id = some f.counted
  group : tv.group? gv.num = some gv
  groups : ∀ k, k ≠ gv.num → tv.group? k = t.group? k
  frags : ∀ k, k ≠ f.id → tv.frag? k = t.frag? k

theorem AtIssue.at {i : Instr} {s : State} {t : Team} {f : Frag} {g : Group} {c : Ctx} {u : State}
    (a : AtIssue i s t f g c u) : TeamAt t c.team f (g.perfAdd 0 1) :=
  ⟨a.step.id, by rw [a.step.rest], a.step.frag, a.step.group, a.step.groups, a.step.frags⟩

/-- A change of the home group. -/
theorem TeamAt.modGroup {t tv : Team} {f : Frag} {gv : Group} (k : TeamAt t tv f gv) {F : Group → Group}
    (hF : (F gv).num = gv.num) : TeamAt t (tv.modGroup gv.num F) f (F gv) := by
  have e : tv.modGroup gv.num F = tv.setGroup (F gv) := by unfold Team.modGroup; rw [k.group]
  rw [e]
  refine ⟨k.id, k.core, k.frag, ?_, ?_, k.frags⟩
  · rw [Team.group?_setGroup]; simp
  · intro n hn; rw [Team.group?_setGroup, if_neg hn]; rw [hF] at hn; exact k.groups n hn

/-- The state after a fragment of one home group has gone on or waits. -/
structure Gone (v w : State) (tid : Nat) (tv t' : Team) (f f' : Frag) (gv' : Group) : Prop where
  teamsOnly : TeamsOnly v w
  team : w.team? tid = some t'
  teams : ∀ k, k ≠ tid → w.team? k = v.team? k
  rest : TeamRest tv t'
  frag : t'.frag? f.id = some f'
  group : t'.group? gv'.num = some gv'
  groups : ∀ k, k ≠ gv'.num → t'.group? k = tv.group? k
  frags : ∀ k, k ≠ f.id → t'.frag? k = tv.frag? k
  id : t'.id = tv.id

/-- A fragment of one home group whose instruction is done goes on. -/
theorem gone_ready {v : State} {t tv : Team} {f : Frag} {gv : Group} {m word : Word} {fr : Nat} {n : Next}
    (ht : v.team? t.id = some tv) (k : TeamAt t tv f gv) (hl : f.lanes = [(gv.num, m)]) (hm : m ≠ 0)
    (hs : (v.core t.core).dbg.step = false) (hn : n.st = .ready) :
    ∃ t', Gone v (v.settle t.id f.counted word fr [(gv.num, .go n)]) t.id tv t' f
      (f.counted.goes word f.id n f.lanes) gv.complete := by
  have hid := k.id
  obtain ⟨t', h1, h2, h3⟩ := settle_ready (v := v) (t := tv) (f0 := f.counted) (f := f.counted) (g := gv) (m := m)
    (word := word) (fr := fr) (n := n) (by rw [hid]; exact ht) rfl k.frag hl hm k.group (by rw [k.core]; exact hs) hn
  rw [hid] at h1 h3
  refine ⟨t', ?_, h1, h3.teams, h2.rest, h2.frag, h2.group, h2.groups, h2.frags, h2.id⟩
  unfold State.settle
  simp only [ht, k.core, hs, List.foldl_cons, List.foldl_nil, hn, beq_self_eq_true, if_true, Bool.false_eq_true, if_false]
  exact (TeamsOnly.modGroup ..).trans (TeamsOnly.modTeam ..)

/-- A fragment of one home group whose instruction makes it wait. -/
theorem gone_waits {v : State} {t tv : Team} {f : Frag} {gv : Group} {m word : Word} {fr : Nat} {n : Next}
    (ht : v.team? t.id = some tv) (k : TeamAt t tv f gv) (hl : f.lanes = [(gv.num, m)]) (hm : m ≠ 0)
    (hn : n.st ≠ .ready) :
    ∃ t', Gone v (v.settle t.id f.counted word fr [(gv.num, .go n)]) t.id tv t' f
      (f.counted.goes word f.id n f.lanes) gv := by
  have hid := k.id
  obtain ⟨t', h1, h2, h3⟩ := settle_waits (v := v) (t := tv) (f0 := f.counted) (f := f.counted) (g := gv) (m := m)
    (word := word) (fr := fr) (n := n) (by rw [hid]; exact ht) rfl k.frag hl hm k.group hn
  rw [hid] at h1 h3
  refine ⟨t', ?_, h1, h3.teams, h2.rest, h2.frag, h2.group, h2.groups, h2.frags, h2.id⟩
  unfold State.settle
  have hb : (n.st == FState.ready) = false := by simpa using hn
  simp only [List.foldl_cons, List.foldl_nil, hb, Bool.false_eq_true, if_false]
  exact TeamsOnly.modTeam ..

/-- The fragment has moved as the claims say it. -/
theorem Gone.moved {s v w : State} {t tv t' : Team} {f : Frag} {g gv gv' : Group} {word : Word} {n : Next}
    (k : TeamAt t tv f gv) (d : Gone v w t.id tv t' f (f.counted.goes word f.id n f.lanes) gv') (hg : gv.num = g.num)
    (hg' : gv'.num = g.num) (hc : v.cur = none) :
    Moved s t f g n (sealStep s w) t' (f.counted.goes word f.id n f.lanes) gv' := by
  refine ⟨d.team, d.frag, hg' ▸ d.group, ?_, ?_, ?_, rfl, rfl, ?_⟩
  · refine ⟨rfl, rfl, rfl, rfl, rfl, ?_, ?_⟩ <;> simp [Frag.goes]
  · intro i hi; rw [d.frags i hi, k.frags i hi]
  · intro i hi; rw [d.groups i (by rw [hg']; exact hi), k.groups i (by rw [hg]; exact hi)]
  · change w.cur = none
    rw [d.teamsOnly]; exact hc

/-- An instruction of one home group: its check passes with the effect `a`, its effect is had in `v`, and its
fragment goes on. -/
theorem issue_goes {i : Instr} {s : State} {t : Team} {f : Frag} {g : Group} {m : Word} (h : Issues i s t f g m)
    {body : Ctx → State → State} {v : State} {tv : Team} {gv : Group} {n : Next}
    (hb : body (sees i s t f) (begins i s t f) = (sees i s t f).settle [(g.num, .go n)] v)
    (ht : v.team? t.id = some tv) (k : TeamAt t tv f gv) (hg : gv.num = g.num)
    (hs : (v.core t.core).dbg.step = false) (hn : n.st = .ready) (hc : v.cur = none) :
    ∃ w t', issue i s body = .next (sealStep s w) ∧
      Moved s t f g n (sealStep s w) t' (f.counted.goes (firstWord i) f.id n f.lanes) gv.complete ∧
      Gone v w t.id tv t' f (f.counted.goes (firstWord i) f.id n f.lanes) gv.complete := by
  obtain ⟨a, e⟩ := issue_at h
  obtain ⟨t', d⟩ := gone_ready (word := firstWord i) (fr := s.free) ht k (by rw [hg]; exact h.lanes) h.carried hs hn
  refine ⟨_, t', ?_, d.moved k hg hg hc, d⟩
  rw [e body, hb]
  have hid : (sees i s t f).team.id = t.id := a.step.id
  unfold Ctx.settle
  rw [hid, a.fragment, a.word, a.free, hg]

/-- The same where the fragment waits. -/
theorem issue_waits {i : Instr} {s : State} {t : Team} {f : Frag} {g : Group} {m : Word} (h : Issues i s t f g m)
    {body : Ctx → State → State} {v : State} {tv : Team} {gv : Group} {n : Next}
    (hb : body (sees i s t f) (begins i s t f) = (sees i s t f).settle [(g.num, .go n)] v)
    (ht : v.team? t.id = some tv) (k : TeamAt t tv f gv) (hg : gv.num = g.num) (hn : n.st ≠ .ready) (hc : v.cur = none) :
    ∃ w t', issue i s body = .next (sealStep s w) ∧
      Moved s t f g n (sealStep s w) t' (f.counted.goes (firstWord i) f.id n f.lanes) gv ∧
      Gone v w t.id tv t' f (f.counted.goes (firstWord i) f.id n f.lanes) gv := by
  obtain ⟨a, e⟩ := issue_at h
  obtain ⟨t', d⟩ := gone_waits (word := firstWord i) (fr := s.free) ht k (by rw [hg]; exact h.lanes) h.carried hn
  refine ⟨_, t', ?_, d.moved k hg hg hc, d⟩
  rw [e body, hb]
  have hid : (sees i s t f).team.id = t.id := a.step.id
  unfold Ctx.settle
  rw [hid, a.fragment, a.word, a.free, hg]

/-! ### Effects on the team alone -/

/-- Of a state only teams differ, and of the teams only one. -/
structure TeamEffect (u v : State) (tid : Nat) (tv : Team) : Prop where
  rest : v = { u with teams := v.teams }
  team : v.team? tid = some tv
  teams : ∀ k, k ≠ tid → v.team? k = u.team? k

theorem outside_of {i : Instr} {s : State} {t tv t' : Team} {f f' : Frag} {g gv' : Group} {v w : State}
    (a : AtIssue i s t f g (sees i s t f) (begins i s t f)) (e : TeamEffect (begins i s t f) v t.id tv)
    (d : Gone v w t.id tv t' f f' gv') : Outside s t (sealStep s w) := by
  have hw : w = { begins i s t f with teams := w.teams } := by
    rw [d.teamsOnly, e.rest]
  have hout : w.out = [] := by rw [hw]; exact a.out
  have hmem : (sealStep s w).mem = s.mem := by rw [sealStep_mem, hout]; rfl
  have hs : sealStep s w = { w with mem := s.mem, out := [], hub := s.hub, clock := s.clock } := by
    unfold sealStep sealMem; rw [hout]; rfl
  refine ⟨fun x => by rw [hmem], ?_, ?_, ?_⟩
  · rw [hs]; rw [hw, a.rest, a.cur, a.freeNext]
  · intro k
    have h1 : (sealStep s w).core k = (begins i s t f).core k := by
      change w.core k = _; unfold State.core; rw [hw]
    rw [h1]; exact a.cores k
  · intro k hk
    change w.team? k = _
    rw [d.teams k hk, e.teams k hk, a.teams k hk]

/-- An instruction whose effect is on its team alone, and whose fragment goes on. -/
theorem team_goes {i : Instr} {s : State} {t : Team} {f : Frag} {g : Group} {m : Word} (h : Issues i s t f g m)
    {body : Ctx → State → State} {v : State} {tv : Team} {gv : Group} {n : Next}
    (hb : body (sees i s t f) (begins i s t f) = (sees i s t f).settle [(g.num, .go n)] v)
    (e : TeamEffect (begins i s t f) v t.id tv) (k : TeamAt t tv f gv) (hg : gv.num = g.num) (hn : n.st = .ready) :
    ∃ s' t', issue i s body = .next s' ∧
      Moved s t f g n s' t' (f.counted.goes (firstWord i) f.id n f.lanes) gv.complete ∧
      Outside s t s' ∧ TeamRest tv t' := by
  have a := (issue_at h).1
  have hcore : (v.core t.core).dbg.step = false := by
    have : v.core t.core = (begins i s t f).core t.core := by unfold State.core; rw [e.rest]
    rw [this, a.cores t.core]; exact h.running
  obtain ⟨w, t', e1, e2, e3⟩ := issue_goes h hb e.team k hg hcore hn (by rw [e.rest]; exact a.cur)
  exact ⟨_, t', e1, e2, outside_of a e e3, e3.rest⟩

/-- The same where the fragment waits. -/
theorem team_waits {i : Instr} {s : State} {t : Team} {f : Frag} {g : Group} {m : Word} (h : Issues i s t f g m)
    {body : Ctx → State → State} {v : State} {tv : Team} {gv : Group} {n : Next}
    (hb : body (sees i s t f) (begins i s t f) = (sees i s t f).settle [(g.num, .go n)] v)
    (e : TeamEffect (begins i s t f) v t.id tv) (k : TeamAt t tv f gv) (hg : gv.num = g.num) (hn : n.st ≠ .ready) :
    ∃ s' t', issue i s body = .next s' ∧
      Moved s t f g n s' t' (f.counted.goes (firstWord i) f.id n f.lanes) gv ∧
      Outside s t s' ∧ TeamRest tv t' := by
  have a := (issue_at h).1
  obtain ⟨w, t', e1, e2, e3⟩ := issue_waits h hb e.team k hg hn (by rw [e.rest]; exact a.cur)
  exact ⟨_, t', e1, e2, outside_of a e e3, e3.rest⟩

/-- Nothing but the issue has happened. -/
theorem TeamEffect.none {i : Instr} {s : State} {t : Team} {f : Frag} {g : Group}
    (a : AtIssue i s t f g (sees i s t f) (begins i s t f)) :
    TeamEffect (begins i s t f) (begins i s t f) t.id (sees i s t f).team := ⟨rfl, a.team, fun _ _ => rfl⟩

/-- A change of the team. -/
theorem TeamEffect.modTeam {u v : State} {tid : Nat} {tv : Team} (e : TeamEffect u v tid tv)
    {F : Team → Team} (hF : (F tv).id = tid) : TeamEffect u (v.modTeam tid F) tid (F tv) := by
  have hm : v.modTeam tid F = v.setTeam (F tv) := by unfold State.modTeam; rw [e.team]
  rw [hm]
  refine ⟨?_, ?_, ?_⟩
  · have : v.setTeam (F tv) = { v with teams := (v.setTeam (F tv)).teams } := rfl
    rw [this]; rw [e.rest]
  · rw [State.team?_setTeam, hF]; simp
  · intro k hk; rw [State.team?_setTeam, hF, if_neg hk]; exact e.teams k hk

/-- The check of the one home group passes, and the effect is had. -/
theorem group_passes {i : Instr} {s : State} {t : Team} {f : Frag} {g : Group} {m : Word} (h : Issues i s t f g m)
    {α : Type} {check : GCtx → State → GRes α × State} {perform : List (GCtx × α) → State → State} {v : State} {a : α}
    {n : Next} (hc : check (seen i g m) (begins i s t f) = (.ok a n, v)) :
    (sees i s t f).runGroups check perform (begins i s t f)
      = (sees i s t f).settle [(g.num, .go n)] (perform [(seen i g m, a)] v) :=
  runGroups_one ((issue_at h).1.groups_eq h) h.clean hc

/-! ### Targets of control transfers -/

theorem fetchWord_same {s : State} {vi c : Nat} {hm : Bool} {pc : Dword} {r : Word × XOk}
    (h : (s.fetchWord vi c hm pc).1 = .ok r) : (s.fetchWord vi c hm pc).2 = s := by
  revert h; unfold State.fetchWord
  split
  · intro h; cases h
  · split <;> intro h
    · cases h
    · rfl

/-- R322: a target that passes its check changes nothing. -/
theorem targetBad_same {s u : State} {vi c : Nat} {hm ind land : Bool} {pc : Dword}
    (h : s.targetBad vi c hm ind land pc = (none, u)) : u = s := by
  revert h; unfold State.targetBad
  split
  · intro h; cases h
  · split
    · intro h; cases h
    · simp only
      split
      · intro h; cases h
      · next r hr =>
        split
        · intro h; cases h
        · intro h; cases h; exact fetchWord_same hr

section
variable {i : Instr} {s : State} {t : Team} {f : Frag} {g : Group} {m : Word}

/-- R48, R322: a target that is not held and passes its check lets the group go on there, its leaf's A bit set. -/
theorem goTo_of (h : Issues i s t f g m) {ind land : Bool} {tg : Dword} {u : State} (mk : Word)
    (hh : (begins i s t f).targetHeld t.vi f.hm ind tg = false)
    (hb : (begins i s t f).targetBad t.vi t.core f.hm ind land tg = (none, u)) :
    (sees i s t f).goTo ind land tg mk (begins i s t f)
      = (.ok () { (sees i s t f).next with pc := tg }, (begins i s t f).targetTouch t.vi f.hm tg) := by
  have a := (issue_at h).1
  have hvi : (sees i s t f).team.vi = t.vi := by rw [a.step.rest]
  have hf : (sees i s t f).frag.hm = f.hm := rfl
  have hu : u = begins i s t f := targetBad_same hb
  unfold Ctx.goTo State.targetCheck
  rw [hvi, a.core, hf, if_neg (by rw [hh]; decide), hb, hu]
  rfl

/-- What writes in the carried lanes leave of a home group with nothing pending or poisoned. -/
theorem carried_clean (h : Issues i s t f g m) (fr d k : Nat) (v : Nat → Dword) :
    RegRest (g.perfAdd 0 1) ((g.perfAdd 0 1).writeLanes fr
        ((lanesOf m).map (fun l => (l, destWords d k (v l))))) ∧
      ∀ r l, l < 32 → ((g.perfAdd 0 1).writeLanes fr
        ((lanesOf m).map (fun l => (l, destWords d k (v l))))).reg r l
        = if bit m l then (kfind r (destWords d k (v l))).getD (g.reg r l) else g.reg r l := by
  obtain ⟨h1, h2⟩ := writeLanes_clean (g := g.perfAdd 0 1) h.settled h.clean fr (lanesOf m)
    (fun _ => lanesOf_lt) (lanesOf_nodup _) (fun l => destWords d k (v l))
  refine ⟨h1, fun r l hl => ?_⟩
  rw [h2 r l hl, destWords_fold, show (g.perfAdd 0 1).reg r l = g.reg r l from rfl]
  by_cases hb : bit m l = true
  · rw [if_pos ((mem_lanesOf hl).2 hb), if_pos hb]
  · rw [if_neg (fun x => hb ((mem_lanesOf hl).1 x)), if_neg hb]

/-- An instruction whose check passes for its home group and whose effect is on that group alone. -/
theorem maps_group (h : Issues i s t f g m) {α : Type} {check : GCtx → State → GRes α × State} {F : GCtx → α → Group → Group} {a : α} {u : State} {n : Next}
    {body : Ctx → State → State} (hb : body (sees i s t f) (begins i s t f) = (sees i s t f).runGroups check ((sees i s t f).mapGroups F) (begins i s t f))
    (hc : check (seen i g m) (begins i s t f) = (.ok a n, u)) (hu : u = begins i s t f)
    (hF : (F (seen i g m) a (g.perfAdd 0 1)).num = g.num) (hn : n.st = .ready) (e : exec i s = issue i s body) :
    ∃ s' t' f', exec i s = .next s' ∧ Moved s t f g n s' t' f' (F (seen i g m) a (g.perfAdd 0 1)).complete ∧ Outside s t s' ∧ GroupsOnly t t' := by
  have at' := (issue_at h).1
  have hid : (sees i s t f).team.id = t.id := at'.step.id
  rw [group_passes h hc, mapGroups_one, hid] at hb
  subst hu
  have e0 := (TeamEffect.none at').modTeam (F := fun t => t.modGroup g.num (F (seen i g m) a)) (by simp [hid])
  have k := at'.at.modGroup (F := F (seen i g m) a) hF
  obtain ⟨s', t', e1, e2, e3, e4⟩ := team_goes h hb e0 k hF hn
  refine ⟨s', t', _, e.trans e1, e2, ?_, ?_⟩
  · exact e3
  · exact (at'.step.rest.trans (TeamRest.modGroup ..)).trans e4

end

end Sys2Proof.Machine
end

