-- ==== Sys2Proof/Laws/Access.lean ====
section
/-! SUPPORT. What every operation on memory and the caches may change: one lemma for each, in terms of
`Safety.Accessed`. -/

namespace Sys2Proof.Safety

open Sys2Proof.Machine

theorem Untouched.append {s : State} {a b : List Run} {x : Nat} :
    Untouched s (a ++ b) x ↔ Untouched s a x ∧ Untouched s b x := by
  unfold Untouched
  constructor
  · intro h; exact ⟨fun w hw => h w (List.mem_append_left _ hw), fun w hw => h w (List.mem_append_right _ hw)⟩
  · intro h w hw; exact (List.mem_append.1 hw).elim (h.1 w) (h.2 w)

theorem Untouched.tags {s w : State} {ws : List Run} {x : Nat} (h : Untouched s ws x)
    (e : zget (x / 64) w.tags = zget (x / 64) s.tags) : Untouched w ws x :=
  fun r hr => ⟨(h r hr).1, fun h1 h2 => e.trans ((h r hr).2 h1 h2)⟩

theorem Untouched.sub {s : State} {a b : List Run} {x : Nat} (h : Untouched s b x) (hab : ∀ w ∈ a, w ∈ b) :
    Untouched s a x := fun w hw => h w (hab w hw)

section
variable {c vi : Nat} {ws : List Run} {u v w : State}

theorem Accessed.refl (c vi : Nat) (v : State) : Accessed c vi [] v v :=
  ⟨rfl, fun _ => rfl, fun _ _ => rfl, fun _ => rfl, fun _ _ => rfl, fun _ _ => ⟨rfl, rfl⟩⟩

theorem Accessed.trans {a b : List Run} (h1 : Accessed c vi a u v) (h2 : Accessed c vi b v w) :
    Accessed c vi (a ++ b) u w := by
  refine ⟨?_, ?_, ?_, ?_, ?_, ?_⟩
  · exact h2.rest.trans (by rw [h1.rest])
  · intro k; rw [h2.cores k, h1.cores k]
  · intro k hk; rw [h2.buffers k hk, h1.buffers k hk]
  · intro k; rw [h2.vids k, h1.vids k]
  · intro k hk; rw [h2.others k hk, h1.others k hk]
  · intro x hx
    obtain ⟨x1, x2⟩ := Untouched.append.1 hx
    obtain ⟨b1, b2⟩ := h1.bytes x x1
    obtain ⟨c1, c2⟩ := h2.bytes x (x2.tags b2)
    exact ⟨c1.trans b1, c2.trans b2⟩

theorem Accessed.mono {a b : List Run} (h : Accessed c vi a v w) (hab : ∀ r ∈ a, r ∈ b) : Accessed c vi b v w :=
  ⟨h.rest, h.cores, h.buffers, h.vids, h.others, fun x hx => h.bytes x (hx.sub hab)⟩

/-- A change of the fields that no access to memory reads bytes from. -/
theorem Accessed.plain (h : w = { v with
    teams := w.teams, memPoison := w.memPoison, side := w.side, tickReq := w.tickReq }) : Accessed c vi [] v w := by
  refine ⟨?_, ?_, ?_, ?_, ?_, ?_⟩
  · rw [h]
  · intro k; unfold State.core; rw [h]
  · intro k _; unfold State.core; rw [h]
  · intro k; unfold State.vid; rw [h]
  · intro k _; unfold State.vid; rw [h]
  · intro a _; unfold State.raw; rw [h]; exact ⟨rfl, rfl⟩

/-- A change of a core's L1, and of the issuing core's write buffer. -/
theorem Accessed.modCore (k : Nat) (F : Core → Core)
    (hF : F (v.core k) = { v.core k with l1 := (F (v.core k)).l1, wbuf := (F (v.core k)).wbuf, probes := (F (v.core k)).probes })
    (hw : k ≠ c → (F (v.core k)).wbuf = (v.core k).wbuf) : Accessed c vi [] v (v.modCore k F) := by
  have hc : ∀ j, (v.modCore k F).core j = if j = k then F (v.core k) else v.core j := fun j => State.core_modCore ..
  refine ⟨rfl, ?_, ?_, fun _ => rfl, fun _ _ => rfl, fun _ _ => ⟨rfl, rfl⟩⟩
  · intro j
    rw [hc j]
    by_cases h : j = k
    · subst h; rw [if_pos rfl]; exact hF
    · rw [if_neg h]
  · intro j hj
    rw [hc j]
    by_cases h : j = k
    · subst h; rw [if_pos rfl]; exact hw hj
    · rw [if_neg h]

theorem vid_modVid (s : State) (k j : Nat) (F : ViDyn → ViDyn) :
    (s.modVid k F).vid j = if j = k then F (s.vid k) else s.vid j := by
  unfold State.modVid State.vid; exact kget_kset ..

theorem Accessed.modVid (F : ViDyn → ViDyn)
    (hF : F (v.vid vi) = { v.vid vi with tlb := (F (v.vid vi)).tlb, hintdeg := (F (v.vid vi)).hintdeg }) :
    Accessed c vi [] v (v.modVid vi F) := by
  have hc := fun j => vid_modVid v vi j F
  refine ⟨rfl, fun _ => rfl, fun _ _ => rfl, ?_, ?_, fun _ _ => ⟨rfl, rfl⟩⟩
  · intro j
    rw [hc j]
    by_cases h : j = vi
    · subst h; rw [if_pos rfl]; exact hF
    · rw [if_neg h]
  · intro j hj; rw [hc j, if_neg hj]

end

end Sys2Proof.Safety

namespace Sys2Proof.Machine

open Sys2Proof.Safety

section
variable {c vi : Nat} {ws : List Run} {u v w : State}

/-! ### Homes -/

/-- A change of the memory side only. -/
def SideOnly (v w : State) : Prop := w = { v with side := w.side }

theorem SideOnly.refl (v : State) : SideOnly v v := rfl
theorem SideOnly.trans {a b c : State} (h1 : SideOnly a b) (h2 : SideOnly b c) : SideOnly a c := by
  unfold SideOnly at *; exact h2.trans (by rw [h1])
theorem SideOnly.modSide (v : State) (F : Side → Side) : SideOnly v (v.modSide F) := rfl
theorem SideOnly.accessed (h : SideOnly v w) : Accessed c vi [] v w := by
  apply Accessed.plain; unfold SideOnly at h; rw [h]

theorem enqueue_side (v : State) (q cls off cost : Nat) : SideOnly v (v.enqueue q cls off cost) := rfl
theorem meter_side (v : State) (slice cls a n : Nat) : SideOnly v (v.meter slice cls a n) := by
  unfold State.meter; split
  · rfl
  · exact enqueue_side ..
theorem touchSlice_side (v : State) (h : Nat) (r : Ask) (tag : KTag) (a n : Nat) (write : Bool) :
    SideOnly v (v.touchSlice h r tag a n write) := by
  unfold State.touchSlice; simp only; split
  · rfl
  · split <;> rfl

/-- R117, R106: a request at a home changes the memory side only. -/
theorem request_side (v : State) (r : Ask) (tag : KTag) (a n : Nat) (write : Bool) :
    SideOnly v (v.request r tag a n write) := by
  unfold State.request; simp only
  refine SideOnly.trans ?_ (touchSlice_side ..)
  split
  · rfl
  · exact meter_side ..

/-- R25: so do the table reads of a walk. -/
theorem walkReads_side (v : State) (i : Nat) (tag : KTag) (l : List Nat) : SideOnly v (v.walkReads i tag l) := by
  unfold State.walkReads
  generalize l.filter _ = l
  induction l generalizing v with
  | nil => rfl
  | cons e l ih => exact (request_side ..).trans (ih _)

/-- R42: and so does the request of a read of a compressed page. -/
theorem packAsk_side (v : State) (r : Ask) (tag : KTag) (addr : Dword) (pack psz len off n : Nat) :
    SideOnly v (v.packAsk r tag addr pack psz len off n) := by
  unfold State.packAsk; simp only
  have h0 : SideOnly v (if r.span.getD n = 0 then v
      else v.meter (v.decodeHome r.vi pack (off / 4096)) r.cls off (r.span.getD n)) := by
    split
    · rfl
    · exact meter_side ..
  revert h0
  generalize (if r.span.getD n = 0 then v
      else v.meter (v.decodeHome r.vi pack (off / 4096)) r.cls off (r.span.getD n)) = y
  intro h0
  split
  · exact h0.trans rfl
  · split
    · exact h0
    · exact h0.trans rfl

theorem request_accessed (v : State) (r : Ask) (tag : KTag) (a n : Nat) (write : Bool) :
    Accessed c vi [] v (v.request r tag a n write) := (request_side ..).accessed
theorem clearPoison_accessed (v : State) (a n : Nat) : Accessed c vi [] v (v.clearPoison a n) := Accessed.plain rfl

theorem raw_put (s : State) (a b : Nat) (x : Byte) : (s.put a x).raw b = if b = a then x else s.raw b := by
  unfold State.raw State.put
  simp only [kfind]
  by_cases h : a = b
  · simp [h]
  · simp [h, Ne.symm h]

theorem putRange_raw (bs : Nat → Byte) (base n : Nat) (s : State) (a : Nat) :
    (((List.range n).foldl (fun s i => s.put (base + i) (bs i)) s).raw a
      = if base ≤ a ∧ a < base + n then bs (a - base) else s.raw a)
    ∧ ((List.range n).foldl (fun s i => s.put (base + i) (bs i)) s)
      = { s with out := ((List.range n).foldl (fun s i => s.put (base + i) (bs i)) s).out } := by
  induction n generalizing a with
  | zero => simp <;> intro h1 h2 <;> omega
  | succ n ih =>
    rw [List.range_succ, List.foldl_append]
    simp only [List.foldl_cons, List.foldl_nil]
    refine ⟨?_, ?_⟩
    · rw [raw_put, (ih a).1]
      by_cases h : a = base + n
      · subst h
        have : base ≤ base + n ∧ base + n < base + (n + 1) := by omega
        rw [if_pos rfl, if_pos this]; congr 1; omega
      · rw [if_neg h]
        by_cases h2 : base ≤ a ∧ a < base + n
        · rw [if_pos h2, if_pos (by omega)]
        · rw [if_neg h2, if_neg (by omega)]
    · have e := (ih a).2
      generalize (List.range n).foldl (fun s i => s.put (base + i) (bs i)) s = y at e ⊢
      rw [e]; rfl

/-- R37: a unit brought under a key pair. -/
theorem retag_spec (s : State) (tag : KTag) (u : Nat) :
    s.retag tag u = { s with tags := (s.retag tag u).tags, out := (s.retag tag u).out } ∧
    (∀ k, zget k (s.retag tag u).tags = if k = u then tag else zget k s.tags) ∧
    (∀ a, a / 64 ≠ u ∨ zget u s.tags = tag → (s.retag tag u).raw a = s.raw a) := by
  unfold State.retag
  split
  · next h =>
    refine ⟨rfl, ?_, fun _ _ => rfl⟩
    intro k; by_cases hk : k = u
    · rw [if_pos hk, hk, h]
    · rw [if_neg hk]
  · next h =>
    simp only
    have hp := fun a => putRange_raw (fun i => nth 0 (unitView (64 * u) (s.unit u) (zget u s.tags) tag) i) (64 * u) 64
      { s with tags := zset u tag s.tags } a
    refine ⟨?_, ?_, ?_⟩
    · rw [(hp 0).2]
    · intro k; rw [(hp 0).2]; exact zget_zset ..
    · intro a ha
      rw [(hp a).1]
      have : ¬ (64 * u ≤ a ∧ a < 64 * u + 64) := by
        rcases ha with ha | ha
        · omega
        · exact absurd ha h
      rw [if_neg this]; rfl

/-- Of a state only the bytes performed and the key pairs of units differ. -/
def OutTags (v w : State) : Prop := w = { v with tags := w.tags, out := w.out }

theorem OutTags.trans {a b c : State} (h1 : OutTags a b) (h2 : OutTags b c) : OutTags a c := by
  unfold OutTags at *; exact h2.trans (by rw [h1])

/-- R37: bytes written at their homes. -/
theorem putBytes_spec (tag : KTag) (bs : List Byte) : ∀ (s : State) (a : Nat),
    OutTags s (s.putBytes tag a bs) ∧
    (∀ x, Untouched s [(a, bs.length, tag)] x → (s.putBytes tag a bs).raw x = s.raw x ∧
      zget (x / 64) (s.putBytes tag a bs).tags = zget (x / 64) s.tags) := by
  induction bs with
  | nil => intro s a; exact ⟨rfl, fun _ _ => ⟨rfl, rfl⟩⟩
  | cons b bs ih =>
    intro s a
    obtain ⟨r1, r2, r3⟩ := retag_spec s tag (a / 64)
    obtain ⟨i1, i2⟩ := ih ((s.retag tag (a / 64)).put a b) (a + 1)
    change OutTags s (State.putBytes ((s.retag tag (a / 64)).put a b) tag (a + 1) bs) ∧ _
    refine ⟨?_, ?_⟩
    · exact OutTags.trans (OutTags.trans (c := (s.retag tag (a / 64)).put a b) r1 rfl) i1
    · intro x hx
      obtain ⟨h1, h2⟩ := hx _ List.mem_cons_self
      simp only [List.length_cons] at h1 h2
      have htag : zget (x / 64) ((s.retag tag (a / 64)).put a b).tags = zget (x / 64) s.tags := by
        change zget (x / 64) (s.retag tag (a / 64)).tags = _
        rw [r2]
        by_cases hk : x / 64 = a / 64
        · rw [if_pos hk, h2 (by omega) (by omega)]
        · rw [if_neg hk]
      have hu : Untouched ((s.retag tag (a / 64)).put a b) [(a + 1, bs.length, tag)] x := by
        intro r hr
        rw [List.mem_singleton] at hr; subst hr
        refine ⟨by simp only; omega, ?_⟩
        simp only; intro g1 g2
        rw [htag]; exact h2 (by omega) (by omega)
      obtain ⟨j1, j2⟩ := i2 x hu
      change (State.putBytes ((s.retag tag (a / 64)).put a b) tag (a + 1) bs).raw x = _ ∧
        zget _ (State.putBytes ((s.retag tag (a / 64)).put a b) tag (a + 1) bs).tags = _
      refine ⟨j1.trans ?_, j2.trans htag⟩
      rw [raw_put, if_neg (by omega)]
      apply r3
      by_cases hk : x / 64 = a / 64
      · right; rw [← hk]; exact h2 (by omega) (by omega)
      · exact Or.inl hk

theorem putBytes_accessed (v : State) (tag : KTag) (a : Nat) (bs : List Byte) :
    Accessed c vi [(a, bs.length, tag)] v (v.putBytes tag a bs) := by
  obtain ⟨h1, h2⟩ := putBytes_spec tag bs v a
  refine ⟨?_, ?_, ?_, ?_, ?_, h2⟩
  · rw [h1]
  · intro k; unfold State.core; rw [h1]
  · intro k _; unfold State.core; rw [h1]
  · intro k; unfold State.vid; rw [h1]
  · intro k _; unfold State.vid; rw [h1]

theorem kfind_map {α β : Type} (F : Nat → α → β) (k : Nat) (l : List (Nat × α)) :
    kfind k (l.map (fun e => (e.1, F e.1 e.2))) = (kfind k l).map (F k) := by
  induction l with
  | nil => rfl
  | cons e l ih =>
    simp only [List.map_cons, kfind]
    by_cases h : e.1 = k
    · simp [h]
    · simp [h, ih]

theorem probe_accessed (v : State) (w : Option Nat) (a : Nat) : Accessed c vi [] v (v.probe w a) := by
  let F : Nat → Core → Core := fun k x =>
    if x.l1.any (fun l => l.line == a / 128 * 128) then
      if w == some k then { x with l1 := x.l1.filter (fun l => l.line != a / 128 * 128) }
      else { x with probes := x.probes ++ [a / 128 * 128] }
    else x
  have he : v.probe w a = { v with cores := v.cores.map (fun e => (e.1, F e.1 e.2)) } := by
    unfold State.probe
    simp only
    congr 1
    apply List.map_congr_left
    intro e _
    simp only [F]
    split
    · split <;> rfl
    · rfl
  have hF : ∀ k x, F k x = { x with l1 := (F k x).l1, probes := (F k x).probes } := by
    intro k x; simp only [F]; split
    · split <;> rfl
    · rfl
  have hd : ∀ k, F k ({} : Core) = {} := by intro k; rfl
  have hc : ∀ k, (v.probe w a).core k = F k (v.core k) := by
    intro k
    rw [he]
    unfold State.core kget
    simp only [kfind_map]
    cases kfind k v.cores
    · exact (hd k).symm
    · rfl
  refine ⟨by rw [he], ?_, ?_, fun _ => rfl, fun _ _ => rfl, fun _ _ => ⟨rfl, rfl⟩⟩
  · intro k; rw [hc k]; rw [hF k (v.core k)]
  · intro k _; rw [hc k, hF k (v.core k)]

theorem homeWrite_accessed (v : State) (w : Option Nat) (r : Ask) (tag : KTag) (a : Nat) (bs : List Byte) :
    Accessed c vi [(a, bs.length, tag)] v (v.homeWrite w r tag a bs) := by
  unfold State.homeWrite
  exact (((request_accessed ..).trans (clearPoison_accessed ..)).trans (putBytes_accessed ..)).trans (probe_accessed ..)

theorem homeRead_accessed (v : State) (r : Ask) (tag : KTag) (a n : Nat) :
    Accessed c vi [] v (v.homeRead r tag a n).2 := request_accessed ..

/-! ### Write buffers and the L1 -/

theorem foldWrites_accessed {α : Type} (l : List α) (F : State → α → State) (R : α → Run)
    (h : ∀ s e, Accessed c vi [R e] s (F s e)) : ∀ v, Accessed c vi (l.map R) v (l.foldl F v) := by
  induction l with
  | nil => intro v; exact Accessed.refl ..
  | cons e l ih => intro v; exact (h v e).trans (ih (F v e))

theorem wbSplit_mem (p : WbEnt → Bool) (l : List WbEnt) : ∀ e ∈ (wbSplit p l).1, e ∈ l := by
  induction l with
  | nil => intro e h; cases h
  | cons x l ih =>
    intro e h
    unfold wbSplit at h
    simp only at h
    split at h
    · rcases List.mem_cons.1 h with rfl | h
      · exact List.mem_cons_self
      · exact List.mem_cons_of_mem _ (ih e h)
    · exact List.mem_cons_of_mem _ (ih e h)

/-- R173, R174: buffered stores of the core performed at their homes. -/
theorem drainIf_accessed (v : State) (p : WbEnt → Bool) : Accessed c vi (buffered v c) v (v.drainIf c p) := by
  unfold State.drainIf; simp only
  have h1 : Accessed c vi [] v (v.modCore c (fun k => { k with wbuf := (wbSplit p (v.core c).wbuf).2 })) :=
    Accessed.modCore c _ rfl (fun h => absurd rfl h)
  refine (h1.trans (foldWrites_accessed _ _ (fun e => (e.pa, e.bytes.length, e.tag)) (fun s e =>
    homeWrite_accessed ..) _)).mono ?_
  intro r hr
  rw [List.nil_append] at hr
  obtain ⟨e, he, rfl⟩ := List.mem_map.1 hr
  exact List.mem_map.2 ⟨e, wbSplit_mem _ _ e he, rfl⟩

theorem drainLine_accessed (v : State) (a : Nat) : Accessed c vi (buffered v c) v (v.drainLine c a) := drainIf_accessed ..
theorem drainVi_accessed (v : State) (k : Nat) : Accessed c vi (buffered v c) v (v.drainVi c k) := drainIf_accessed ..

theorem dropL1_accessed (v : State) (k : Nat) : Accessed c vi [] v (v.dropL1 c k) :=
  Accessed.modCore c _ rfl (fun h => absurd rfl h)
theorem l1Drop_accessed (v : State) (i line : Nat) : Accessed c vi [] v (v.modCore c (fun k => k.l1Drop i line)) :=
  Accessed.modCore c _ rfl (fun h => absurd rfl h)
theorem l1Take_accessed (v : State) (l : L1Line) : Accessed c vi [] v (v.modCore c (fun k => k.l1Take l)) :=
  Accessed.modCore c _ rfl (fun h => absurd rfl h)
theorem markEvict_accessed (v : State) (r : Ask) (a : Nat) : Accessed c vi [] v (v.markEvict r a) := by
  unfold State.markEvict; split
  · exact (SideOnly.modSide ..).accessed
  · exact Accessed.refl ..

theorem packAt_accessed (v : State) (r : Ask) (x : XOk) (addr : Dword) (n : Nat) :
    Accessed c vi [] v (v.packAt r x addr n).2 := (packAsk_side ..).accessed

/-- R174: a load by the core changes nothing that memory holds. -/
theorem coreRead_accessed (v : State) (r : Ask) (tag : KTag) (l1 keep : Bool) (salt a n : Nat) :
    Accessed c vi [] v (v.coreRead c r tag l1 keep salt a n).2 := by
  unfold State.coreRead; simp only
  split
  · simp only; split
    · exact Accessed.refl ..
    · exact (l1Drop_accessed ..).trans (markEvict_accessed ..)
  · split
    · exact (request_accessed (c := c) (vi := vi) v r tag a n false).trans (l1Drop_accessed ..)
    · simp only
      refine (request_accessed (c := c) (vi := vi) v r tag a n false).trans ?_
      by_cases h : (keep && !(v.request r tag a n false).poisoned (a / 128 * 128) 128) = true
      · simp only [h, if_true]; exact l1Take_accessed ..
      · simp only [h]; exact l1Drop_accessed ..

theorem markDecoded_accessed (v : State) (r : Ask) (pack k : Nat) : Accessed c vi [] v (v.markDecoded r pack k) := by
  unfold State.markDecoded; split
  · exact (SideOnly.modSide ..).accessed
  · exact Accessed.refl ..

/-- R31, R123: nor does one of a compressed page. -/
theorem corePack_accessed (v : State) (r : Ask) (x : XOk) (addr : Dword) (l1 keep : Bool) (n : Nat) :
    Accessed c vi [] v (v.corePack c r x addr l1 keep n).2 := by
  unfold State.corePack; simp only
  split
  · simp only; split
    · exact Accessed.refl ..
    · exact (l1Drop_accessed ..).trans (markDecoded_accessed ..)
  · simp only
    split
    · exact (packAt_accessed ..).trans (l1Take_accessed ..)
    · exact (packAt_accessed ..).trans (l1Drop_accessed ..)

/-! ### Translation -/

/-- R23, R25, R26: what a translation that passed leaves: its table reads, the bits it sets, its cached entries. -/
theorem touchLeaf_accessed (v : State) (kind : AKind) (x : XOk) :
    Accessed c vi [(x.ea, 8, x.etag)] v (v.touchLeaf vi kind x) := by
  have h1 : ∀ (y : State) (p : Prop) [Decidable p] (nw : Nat), Accessed c vi [(x.ea, 8, x.etag)] y
      (if p then y.homeWrite none { vi := vi, cls := 3 } x.etag x.ea (leBytes 8 nw) else y) := by
    intro y p _ nw
    have hl : (leBytes 8 nw).length = 8 := by simp [leBytes]
    split
    · have := homeWrite_accessed (c := c) (vi := vi) y none { vi := vi, cls := 3 } x.etag x.ea (leBytes 8 nw)
      rw [hl] at this; exact this
    · exact (Accessed.refl ..).mono (by simp)
  have h2 : ∀ (y : State) (fresh : List (Nat × (Nat × Dword))), Accessed c vi [(x.ea, 8, x.etag)] v y →
      Accessed c vi [(x.ea, 8, x.etag)] v
        (if fresh.isEmpty = true then y else y.modVid vi (fun d => { d with tlb := d.tlb ++ fresh })) := by
    intro y fresh hy
    split
    · exact hy
    · refine (hy.trans (Accessed.modVid (c := c) (vi := vi) _ ?_)).mono ?_
      · rfl
      · intro r hr; rw [List.append_nil] at hr; exact hr
  unfold State.touchLeaf; simp only
  exact h2 _ _ ((walkReads_side ..).accessed.trans (h1 ..))

/-- R23, R25: the check of a jump target makes walk reads and sets the A bit of its leaf. -/
theorem targetTouch_accessed (v : State) (hm : Bool) (a : Dword) :
    Accessed c vi (targetEntry v vi hm a) v (v.targetTouch vi hm a) := by
  unfold targetEntry State.targetTouch
  cases v.translate vi a .fetch 4 hm with
  | ok x => exact touchLeaf_accessed v .fetch x
  | error _ => exact Accessed.refl ..

/-- R23, R326: the same of the targets of a jump table's lanes. -/
theorem touched_accessed (hm : Bool) (l : List (Nat × Dword)) (v : State) :
    Accessed c vi (targetEntries vi hm (l.map (fun e => e.2)) v) v (touched vi hm l v) := by
  induction l generalizing v with
  | nil => exact Accessed.refl ..
  | cons a r ih => exact (targetTouch_accessed v hm a.2).trans (ih _)

end

end Sys2Proof.Machine
end

