-- ==== Sys2Proof/Laws/Accumulators.lean ====
section
/-! SUPPORT. What the operations on the knowledge of accumulator rows change of a team: nothing but that knowledge (R12, R144,
R149, R161; log entry 55). -/

namespace Sys2Proof.Laws

open Sys2Proof.Machine

theorem accShare_only (t : Team) (a b : Knower) : t.accShare a b = { t with accOld := (t.accShare a b).accOld } := rfl

theorem accTell_only (t : Team) (cmd bar : Nat) : t.accTell cmd bar = { t with accOld := (t.accTell cmd bar).accOld } := by
  unfold Team.accTell; split <;> rfl

theorem accPass_only (t : Team) (g col : Nat) (os : List AccOld) :
    t.accPass g col os = { t with accOld := (t.accPass g col os).accOld } := rfl

theorem accKeep_only (t : Team) (cmd tile row : Nat) :
    t.accKeep cmd tile row = { t with accOld := (t.accKeep cmd tile row).accOld } := by
  unfold Team.accKeep; simp only; split <;> rfl

theorem accWaited_only (t : Team) (bar phase g : Nat) :
    t.accWaited bar phase g = { t with accOld := (t.accWaited bar phase g).accOld } := rfl

/-- Any number of operations each of which changes only the knowledge change only the knowledge. -/
theorem foldl_accOld_only {α : Type} (f : Team → α → Team)
    (h : ∀ t x, f t x = { t with accOld := (f t x).accOld }) (l : List α) (t : Team) :
    l.foldl f t = { t with accOld := (l.foldl f t).accOld } := by
  induction l generalizing t with
  | nil => rfl
  | cons x r ih =>
    rw [List.foldl_cons, ih (f t x)]
    generalize r.foldl f (f t x) = u
    rw [h t x]

theorem accKeeps_only (t : Team) (cmd tile row count : Nat) :
    t.accKeeps cmd tile row count = { t with accOld := (t.accKeeps cmd tile row count).accOld } :=
  foldl_accOld_only _ (fun t k => accKeep_only t cmd tile (row + k)) _ t

theorem accReads_only (t : Team) (fr g tile : Nat) (els : List Nat) (u : Team) :
    t.accReads fr g tile els u = { u with accOld := (t.accReads fr g tile els u).accOld } :=
  foldl_accOld_only _ (fun u x => accPass_only u g (x % 128) _) els u

end Sys2Proof.Laws
end

