-- ==== Sys2Proof/Laws/Encode.lean ====
section
/-! SUPPORT. The fields of an encoded word read back as they were laid out, and the bytes of a list of words
give the words back: what the round trip of an instruction rests on. -/

namespace Sys2Proof

open Sys2Proof.Machine

theorem fld_eq {w : Nat} (x : BitVec w) (lo len : Nat) : fld x lo len = (x.extractLsb' lo len).toNat := by
  simp [fld, BitVec.extractLsb'_toNat, Nat.shiftRight_eq_div_pow]

theorem extract_left {m n : Nat} (x : BitVec m) (y : BitVec n) (lo len : Nat) (h : n ≤ lo) :
    (x ++ y).extractLsb' lo len = x.extractLsb' (lo - n) len := by
  apply BitVec.eq_of_getLsbD_eq; intro i hi
  simp only [BitVec.getLsbD_extractLsb', BitVec.getLsbD_append]
  rw [show lo - n + i = lo + i - n by omega]
  simp [show ¬ lo + i < n by omega]

theorem extract_right {m n : Nat} (x : BitVec m) (y : BitVec n) (lo len : Nat) (h : lo + len ≤ n) :
    (x ++ y).extractLsb' lo len = y.extractLsb' lo len := by
  apply BitVec.eq_of_getLsbD_eq; intro i hi
  simp only [BitVec.getLsbD_extractLsb', BitVec.getLsbD_append]
  simp [show lo + i < n by omega]

theorem word1_len (n : Nat) (sw : Bool) (op : Nat) (d a : BitVec 8) (hi : BitVec 6) (h : n < 4) :
    fld (word1 n sw op d a hi) 0 2 = n := by
  rw [fld_eq]
  have : (word1 n sw op d a hi).extractLsb' 0 2 = BitVec.ofNat 2 n := by
    unfold word1; ext i hi'; simp; grind
  rw [this]; simp; omega

theorem word1_op (n : Nat) (sw : Bool) (op : Nat) (d a : BitVec 8) (hi : BitVec 6) (h : op < 128) :
    fld (word1 n sw op d a hi) 3 7 = op := by
  rw [fld_eq]
  have : (word1 n sw op d a hi).extractLsb' 3 7 = BitVec.ofNat 7 op := by
    unfold word1; ext i hi'; simp; grind
  rw [this]; simp; omega

theorem word1_sw (n : Nat) (sw : Bool) (op : Nat) (d a : BitVec 8) (hi : BitVec 6) :
    bit (word1 n sw op d a hi) 2 = sw := by
  unfold bit word1; grind

theorem word1_d (n : Nat) (sw : Bool) (op : Nat) (d a : BitVec 8) (hi : BitVec 6) :
    (word1 n sw op d a hi).extractLsb' 10 8 = d := by
  unfold word1; ext i hi'; simp; grind

theorem word1_a (n : Nat) (sw : Bool) (op : Nat) (d a : BitVec 8) (hi : BitVec 6) :
    (word1 n sw op d a hi).extractLsb' 18 8 = a := by
  unfold word1; ext i hi'; simp; grind

theorem word1_hi (n : Nat) (sw : Bool) (op : Nat) (d a : BitVec 8) (hi : BitVec 6) :
    (word1 n sw op d a hi).extractLsb' 26 6 = hi := by
  unfold word1; ext i hi'; simp; grind

theorem word2_b (o : XOps) : (word2 o).extractLsb' 0 8 = o.b := by
  unfold word2; ext i hi'; simp; grind
theorem word2_c (o : XOps) : (word2 o).extractLsb' 8 8 = o.c := by
  unfold word2; ext i hi'; simp; grind
theorem word2_pred (o : XOps) : (word2 o).extractLsb' 16 3 = o.pred := by
  unfold word2; ext i hi'; simp; grind
theorem word2_pneg (o : XOps) : bit (word2 o) 19 = o.pneg := by
  unfold bit word2; grind

theorem kindOf_code (k : Kind) : kindOf (kindCode k) = k := by cases k <;> rfl
theorem tyOf_code (t : Ty) : tyOf (tyCode t) = some t := by cases t <;> rfl
theorem edgeOf_code (e : Edge) : edgeOf (edgeCode e) = some e := by cases e <;> rfl

theorem word2_ka (o : XOps) : kindOf (fld (word2 o) 20 2) = o.ka := by
  have h : (word2 o).extractLsb' 20 2 = BitVec.ofNat 2 (kindCode o.ka) := by
    exact ((extract_left _ _ 20 2 (by omega)).trans ((extract_left _ _ 12 2 (by omega)).trans ((extract_left _ _ 4 2 (by omega)).trans ((extract_left _ _ 1 2 (by omega)).trans ((extract_right _ _ 0 2 (by omega)).trans (BitVec.extractLsb'_eq_self))))))
  rw [fld_eq, h]; cases o.ka <;> rfl
theorem word2_kb (o : XOps) : kindOf (fld (word2 o) 22 2) = o.kb := by
  have h : (word2 o).extractLsb' 22 2 = BitVec.ofNat 2 (kindCode o.kb) := by
    exact ((extract_left _ _ 22 2 (by omega)).trans ((extract_left _ _ 14 2 (by omega)).trans ((extract_left _ _ 6 2 (by omega)).trans ((extract_left _ _ 3 2 (by omega)).trans ((extract_left _ _ 2 2 (by omega)).trans ((extract_right _ _ 0 2 (by omega)).trans (BitVec.extractLsb'_eq_self)))))))
  rw [fld_eq, h]; cases o.kb <;> rfl
theorem word2_kc (o : XOps) : kindOf (fld (word2 o) 24 2) = o.kc := by
  have h : (word2 o).extractLsb' 24 2 = BitVec.ofNat 2 (kindCode o.kc) := by
    exact ((extract_left _ _ 24 2 (by omega)).trans ((extract_left _ _ 16 2 (by omega)).trans ((extract_left _ _ 8 2 (by omega)).trans ((extract_left _ _ 5 2 (by omega)).trans ((extract_left _ _ 4 2 (by omega)).trans ((extract_left _ _ 2 2 (by omega)).trans ((extract_right _ _ 0 2 (by omega)).trans (BitVec.extractLsb'_eq_self))))))))
  rw [fld_eq, h]; cases o.kc <;> rfl
theorem word2_ty (o : XOps) : tyOf (fld (word2 o) 26 4) = some o.ty := by
  have h : (word2 o).extractLsb' 26 4 = BitVec.ofNat 4 (tyCode o.ty) := by
    exact ((extract_left _ _ 26 4 (by omega)).trans ((extract_left _ _ 18 4 (by omega)).trans ((extract_left _ _ 10 4 (by omega)).trans ((extract_left _ _ 7 4 (by omega)).trans ((extract_left _ _ 6 4 (by omega)).trans ((extract_left _ _ 4 4 (by omega)).trans ((extract_left _ _ 2 4 (by omega)).trans ((extract_right _ _ 0 4 (by omega)).trans (BitVec.extractLsb'_eq_self)))))))))
  rw [fld_eq, h]; cases o.ty <;> rfl
theorem word2_edge (o : XOps) : edgeOf (fld (word2 o) 30 2) = some o.edge := by
  have h : (word2 o).extractLsb' 30 2 = BitVec.ofNat 2 (edgeCode o.edge) := by
    exact ((extract_left _ _ 30 2 (by omega)).trans ((extract_left _ _ 22 2 (by omega)).trans ((extract_left _ _ 14 2 (by omega)).trans ((extract_left _ _ 11 2 (by omega)).trans ((extract_left _ _ 10 2 (by omega)).trans ((extract_left _ _ 8 2 (by omega)).trans ((extract_left _ _ 6 2 (by omega)).trans ((extract_left _ _ 4 2 (by omega)).trans (BitVec.extractLsb'_eq_self)))))))))
  rw [fld_eq, h]; cases o.edge <;> rfl

/-! ### Words as bytes -/

theorem leBytes_length (n x : Nat) : (leBytes n x).length = n := by
  induction n generalizing x with
  | zero => rfl
  | succ n ih => simp [leBytes, ih]

theorem leNat_leBytes (n x : Nat) : leNat (leBytes n x) = x % 256 ^ n := by
  induction n generalizing x with
  | zero => simp [leBytes, leNat, Nat.mod_one]
  | succ n ih =>
    simp only [leBytes, leNat, ih, BitVec.toNat_ofNat]
    have h := Nat.mod_mul (x := x) (a := 256) (b := 256 ^ n)
    rw [show 256 ^ (n + 1) = 256 * 256 ^ n from Nat.pow_succ', h]; simp

theorem leNat_append (a b : List Byte) : leNat (a ++ b) = leNat a + 256 ^ a.length * leNat b := by
  induction a with
  | nil => simp [leNat]
  | cons x a ih => simp only [List.cons_append, leNat, ih, List.length_cons, Nat.pow_succ']; grind

theorem wordBytes_cons (w : Word) (ws : List Word) : wordBytes (w :: ws) = leBytes 4 w.toNat ++ wordBytes ws := rfl

/-- A word of a list read back from its bytes. -/
theorem wordAt_wordBytes (w : Word) (ws : List Word) : wordAt (wordBytes (w :: ws)) 0 = w := by
  unfold wordAt
  rw [wordBytes_cons, List.drop_zero, List.take_append_of_le_length (by simp [leBytes_length]),
    List.take_of_length_le (by simp [leBytes_length]), leNat_leBytes]
  apply BitVec.eq_of_toNat_eq; simp; have := w.isLt; omega

theorem drop_wordBytes (w : Word) (ws : List Word) (n : Nat) :
    (wordBytes (w :: ws)).drop (n + 4) = (wordBytes ws).drop n := by
  rw [wordBytes_cons, List.drop_append, leBytes_length, Nat.add_sub_cancel]
  rw [List.drop_eq_nil_of_le (by simp [leBytes_length]), List.nil_append]

theorem wordAt_next (w : Word) (ws : List Word) (n : Nat) :
    wordAt (wordBytes (w :: ws)) (n + 4) = wordAt (wordBytes ws) n := by
  unfold wordAt; rw [drop_wordBytes]

/-- A literal read back from the bytes of its two words. -/
theorem lit_wordBytes (l : Dword) :
    BitVec.ofNat 64 (leNat ((wordBytes [l.extractLsb' 0 32, l.extractLsb' 32 32]).take 8)) = l := by
  have h : wordBytes [l.extractLsb' 0 32, l.extractLsb' 32 32]
      = leBytes 4 (l.extractLsb' 0 32).toNat ++ leBytes 4 (l.extractLsb' 32 32).toNat := by
    simp [wordBytes]
  rw [h, List.take_of_length_le (by simp [leBytes_length]), leNat_append, leNat_leBytes, leNat_leBytes, leBytes_length]
  apply BitVec.eq_of_toNat_eq
  have := l.isLt
  simp only [BitVec.toNat_ofNat, BitVec.extractLsb'_toNat, Nat.shiftRight_eq_div_pow]
  omega

/-- What the decoder reads from the words of an encoded instruction. -/
theorem decodeList_one (w1 : Word) (h : fld w1 0 2 = 0) : decodeList [w1] = decodeWords w1 0 0 0 := by
  unfold decodeList decodeBytes; rw [wordAt_wordBytes]; simp only [h]

theorem decodeList_lit (w1 : Word) (l : Dword) (h : fld w1 0 2 = 1) :
    decodeList [w1, l.extractLsb' 0 32, l.extractLsb' 32 32] = decodeWords w1 0 0 l := by
  unfold decodeList decodeBytes; rw [wordAt_wordBytes]; simp only [h]
  rw [show (4 : Nat) = 0 + 4 from rfl, drop_wordBytes, List.drop_zero, lit_wordBytes]

theorem decodeList_three (w1 w2 w3 : Word) (h : fld w1 0 2 = 2) :
    decodeList [w1, w2, w3] = decodeWords w1 w2 w3 0 := by
  unfold decodeList decodeBytes; rw [wordAt_wordBytes]; simp only [h]
  rw [show (8 : Nat) = 4 + 4 from rfl, wordAt_next, show (4 : Nat) = 0 + 4 from rfl, wordAt_next, wordAt_wordBytes,
    wordAt_next, wordAt_wordBytes]

theorem decodeList_five (w1 w2 w3 : Word) (l : Dword) (h : fld w1 0 2 = 3) :
    decodeList [w1, w2, w3, l.extractLsb' 0 32, l.extractLsb' 32 32] = decodeWords w1 w2 w3 l := by
  unfold decodeList decodeBytes; rw [wordAt_wordBytes]; simp only [h]
  rw [show (12 : Nat) = 8 + 4 from rfl, drop_wordBytes, show (8 : Nat) = 4 + 4 from rfl, drop_wordBytes,
    wordAt_next, show (4 : Nat) = 0 + 4 from rfl, drop_wordBytes, wordAt_next, wordAt_wordBytes, wordAt_next,
    wordAt_wordBytes, List.drop_zero]
  rw [show (0 + 4 + 4 : Nat) = 8 from rfl, lit_wordBytes]

/-! ### The round trip, for one short and one extended form -/

/-- A well-formed instruction whose form takes no literal has none. -/
theorem noLit {i : Instr} {f : Form} (hf : form i = some f) (hw : i.WellFormed) (hl : f.spec.lit = .none) :
    f.x.lit = none := by
  unfold Instr.WellFormed formCause at hw
  rw [hf] at hw
  simp only [hl] at hw
  cases h : f.x.lit with
  | none => rfl
  | some l => simp [h] at hw

/-- A well-formed instruction whose form needs a literal has one. -/
theorem hasLit {i : Instr} {f : Form} (hf : form i = some f) (hw : i.WellFormed) (hl : f.spec.lit = .join) :
    f.x.lit.isSome := by
  unfold Instr.WellFormed formCause at hw
  rw [hf] at hw
  simp only [hl] at hw
  cases h : f.x.lit with
  | none => simp [h] at hw
  | some l => rfl

/-- A well-formed instruction whose sub-opcode stands in bits [31:26] of the first word has no other field
there. -/
theorem zeroB {i : Instr} {f : Form} {o : SOps} (hw : i.WellFormed) (hf : form i = some f)
    (hb : f.badS = badShort .bZero o) : SOps.mk o.sw o.lit o.d o.a 0 = o := by
  have h : f.badS = false := by
    unfold Instr.WellFormed formCause at hw
    rw [hf] at hw
    simp only [reservedField] at hw
    cases hb : f.badS with
    | false => rfl
    | true => simp [hb] at hw; grind
  rw [hb] at h
  have : o.b = 0 := by simpa [badShort] using h
  rw [← this]

/-- The round trip of a short form. -/
theorem roundTrip_short {i : Instr} {op sub : Nat} {o : SOps} {ls : List Nat} (hs : opSub i = some (op, sub, .inl o))
    (hop : op < 128) (hm : majorLens op = some ls) (h0 : ls.contains 0) (h1 : o.lit.isSome → ls.contains 1)
    (hmk : (if subInShort op then mkShort op (BitVec.ofNat 6 sub).toNat { o with b := 0 } else mkShort op 0 o) = some i)
    (hw : formCause i = none) {ws : List Word} (he : encode i = some ws) : decodeList ws = .ok i := by
  unfold encode at he
  rw [hs] at he
  simp only at he
  obtain ⟨sw, lit, d, a, b⟩ := o
  cases lit with
  | none =>
    simp only [Option.some.injEq] at he
    subst he
    rw [decodeList_one _ (word1_len _ _ _ _ _ _ (by omega))]
    unfold decodeWords
    simp only [word1_len _ _ _ _ _ _ (show 0 < 4 by omega), word1_op _ _ _ _ _ _ hop, word1_sw, word1_d, word1_a, word1_hi, hm, h0]
    by_cases hsub : subInShort op <;> simp_all
  | some l =>
    have h1 := h1 rfl
    simp only [Option.some.injEq] at he
    subst he
    rw [decodeList_lit _ _ (word1_len _ _ _ _ _ _ (by omega))]
    unfold decodeWords
    simp only [word1_len _ _ _ _ _ _ (show 1 < 4 by omega), word1_op _ _ _ _ _ _ hop, word1_sw, word1_d, word1_a, word1_hi, hm, h1]
    by_cases hsub : subInShort op <;> simp_all

/-- The round trip of a short form whose sub-opcode stands in bits [31:26] of its word. -/
theorem roundTrip_sub {i : Instr} {op sub : Nat} {o : SOps} {ls : List Nat} (hs : opSub i = some (op, sub, .inl o))
    (hop : op < 128) (hm : majorLens op = some ls) (h0 : ls.contains 0) (h1 : o.lit.isSome → ls.contains 1)
    (hsub : subInShort op = true) (hmk : mkShort op (BitVec.ofNat 6 sub).toNat o = some i)
    (hb : SOps.mk o.sw o.lit o.d o.a 0 = o)
    (hw : formCause i = none) {ws : List Word} (he : encode i = some ws) : decodeList ws = .ok i :=
  roundTrip_short hs hop hm h0 h1 (by rw [if_pos hsub, hb]; exact hmk) hw he

/-- The round trip of an extended form. -/
theorem roundTrip_ext {i : Instr} {op sub : Nat} {o : XOps} {ls : List Nat} (hs : opSub i = some (op, sub, .inr o))
    (hop : op < 128) (hm : majorLens op = some ls) (h2 : o.lit = none → ls.contains 2) (h3 : o.lit.isSome → ls.contains 3)
    (hmk : mkExt op (BitVec.ofNat 6 sub).toNat o = some i)
    (hw : formCause i = none) {ws : List Word} (he : encode i = some ws) : decodeList ws = .ok i := by
  unfold encode at he
  rw [hs] at he
  simp only at he
  cases hl : o.lit with
  | none =>
    have h2 := h2 hl
    simp only [hl, Option.some.injEq] at he
    subst he
    rw [decodeList_three _ _ _ (word1_len _ _ _ _ _ _ (by omega))]
    unfold decodeWords
    simp only [word1_len _ _ _ _ _ _ (show 2 < 4 by omega), word1_op _ _ _ _ _ _ hop, word1_sw, word1_d, word1_a, word1_hi, hm, h2,
      word2_ty, word2_edge, word2_b, word2_c, word2_pred, word2_pneg, word2_ka, word2_kb, word2_kc]
    have ho : { o with lit := none } = o := by rw [← hl]
    simp_all
  | some l =>
    have h3 := h3 (by rw [hl]; rfl)
    simp only [hl, Option.some.injEq] at he
    subst he
    rw [decodeList_five _ _ _ _ (word1_len _ _ _ _ _ _ (by omega))]
    unfold decodeWords
    simp only [word1_len _ _ _ _ _ _ (show 3 < 4 by omega), word1_op _ _ _ _ _ _ hop, word1_sw, word1_d, word1_a, word1_hi, hm, h3,
      word2_ty, word2_edge, word2_b, word2_c, word2_pred, word2_pneg, word2_ka, word2_kb, word2_kc]
    have ho : { o with lit := some l } = o := by rw [← hl]
    simp_all

end Sys2Proof
end

