-- ==== Sys2Proof/Laws/PerInstr.lean ====
section
/-! SUPPORT. The round trip of every instruction, one lemma for each constructor: a well-formed instruction,
encoded by the tables of R250 to R266 and decoded again, is itself.  An event row has no words. -/

namespace Sys2Proof.Laws.RoundTrip

open Sys2Proof.Machine

/-- The words of a well-formed instruction decode to it. -/
def Statement (i : Instr) : Prop := i.WellFormed → ∀ ws, encode i = some ws → decodeList ws = .ok i

theorem never {i : Instr} (h : opSub i = none) : Statement i := by
  intro _ ws he
  unfold encode at he
  rw [h] at he
  cases he

theorem iaddShort (o) : Statement (.iaddShort o) := fun hw _ he =>
  roundTrip_short rfl (by decide) rfl rfl (fun _ => rfl) rfl hw he
theorem iadd (o) : Statement (.iadd o) := fun hw _ he =>
  roundTrip_ext rfl (by decide) rfl (fun _ => rfl) (fun _ => rfl) rfl hw he
theorem isubShort (o) : Statement (.isubShort o) := fun hw _ he =>
  roundTrip_short rfl (by decide) rfl rfl (fun _ => rfl) rfl hw he
theorem isub (o) : Statement (.isub o) := fun hw _ he =>
  roundTrip_ext rfl (by decide) rfl (fun _ => rfl) (fun _ => rfl) rfl hw he
theorem imulShort (o) : Statement (.imulShort o) := fun hw _ he =>
  roundTrip_short rfl (by decide) rfl rfl (fun _ => rfl) rfl hw he
theorem imul (o) : Statement (.imul o) := fun hw _ he =>
  roundTrip_ext rfl (by decide) rfl (fun _ => rfl) (fun _ => rfl) rfl hw he
theorem imulhShort (o) : Statement (.imulhShort o) := fun hw _ he =>
  roundTrip_short rfl (by decide) rfl rfl (fun _ => rfl) rfl hw he
theorem imulh (o) : Statement (.imulh o) := fun hw _ he =>
  roundTrip_ext rfl (by decide) rfl (fun _ => rfl) (fun _ => rfl) rfl hw he
theorem imad (o) : Statement (.imad o) := fun hw _ he =>
  roundTrip_ext rfl (by decide) rfl (fun _ => rfl) (fun _ => rfl) rfl hw he
theorem imadw (o) : Statement (.imadw o) := fun hw _ he =>
  roundTrip_ext rfl (by decide) rfl (fun _ => rfl) (fun _ => rfl) rfl hw he
theorem idivShort (o) : Statement (.idivShort o) := fun hw _ he =>
  roundTrip_short rfl (by decide) rfl rfl (fun _ => rfl) rfl hw he
theorem idiv (o) : Statement (.idiv o) := fun hw _ he =>
  roundTrip_ext rfl (by decide) rfl (fun _ => rfl) (fun _ => rfl) rfl hw he
theorem iminShort (o) : Statement (.iminShort o) := fun hw _ he =>
  roundTrip_short rfl (by decide) rfl rfl (fun _ => rfl) rfl hw he
theorem imin (o) : Statement (.imin o) := fun hw _ he =>
  roundTrip_ext rfl (by decide) rfl (fun _ => rfl) (fun _ => rfl) rfl hw he
theorem imaxShort (o) : Statement (.imaxShort o) := fun hw _ he =>
  roundTrip_short rfl (by decide) rfl rfl (fun _ => rfl) rfl hw he
theorem imax (o) : Statement (.imax o) := fun hw _ he =>
  roundTrip_ext rfl (by decide) rfl (fun _ => rfl) (fun _ => rfl) rfl hw he
theorem iabsShort (o) : Statement (.iabsShort o) := fun hw _ he =>
  roundTrip_sub rfl (by decide) rfl rfl (fun _ => rfl) rfl rfl (zeroB hw rfl rfl) hw he
theorem iabs (o) : Statement (.iabs o) := fun hw _ he =>
  roundTrip_ext rfl (by decide) rfl (fun _ => rfl) (fun _ => rfl) rfl hw he
theorem inegShort (o) : Statement (.inegShort o) := fun hw _ he =>
  roundTrip_sub rfl (by decide) rfl rfl (fun _ => rfl) rfl rfl (zeroB hw rfl rfl) hw he
theorem ineg (o) : Statement (.ineg o) := fun hw _ he =>
  roundTrip_ext rfl (by decide) rfl (fun _ => rfl) (fun _ => rfl) rfl hw he
theorem notShort (o) : Statement (.notShort o) := fun hw _ he =>
  roundTrip_sub rfl (by decide) rfl rfl (fun _ => rfl) rfl rfl (zeroB hw rfl rfl) hw he
theorem not (o) : Statement (.not o) := fun hw _ he =>
  roundTrip_ext rfl (by decide) rfl (fun _ => rfl) (fun _ => rfl) rfl hw he
theorem popcShort (o) : Statement (.popcShort o) := fun hw _ he =>
  roundTrip_sub rfl (by decide) rfl rfl (fun _ => rfl) rfl rfl (zeroB hw rfl rfl) hw he
theorem popc (o) : Statement (.popc o) := fun hw _ he =>
  roundTrip_ext rfl (by decide) rfl (fun _ => rfl) (fun _ => rfl) rfl hw he
theorem clzShort (o) : Statement (.clzShort o) := fun hw _ he =>
  roundTrip_sub rfl (by decide) rfl rfl (fun _ => rfl) rfl rfl (zeroB hw rfl rfl) hw he
theorem clz (o) : Statement (.clz o) := fun hw _ he =>
  roundTrip_ext rfl (by decide) rfl (fun _ => rfl) (fun _ => rfl) rfl hw he
theorem brevShort (o) : Statement (.brevShort o) := fun hw _ he =>
  roundTrip_sub rfl (by decide) rfl rfl (fun _ => rfl) rfl rfl (zeroB hw rfl rfl) hw he
theorem brev (o) : Statement (.brev o) := fun hw _ he =>
  roundTrip_ext rfl (by decide) rfl (fun _ => rfl) (fun _ => rfl) rfl hw he
theorem andShort (o) : Statement (.andShort o) := fun hw _ he =>
  roundTrip_short rfl (by decide) rfl rfl (fun _ => rfl) rfl hw he
theorem and (o) : Statement (.and o) := fun hw _ he =>
  roundTrip_ext rfl (by decide) rfl (fun _ => rfl) (fun _ => rfl) rfl hw he
theorem orShort (o) : Statement (.orShort o) := fun hw _ he =>
  roundTrip_short rfl (by decide) rfl rfl (fun _ => rfl) rfl hw he
theorem or (o) : Statement (.or o) := fun hw _ he =>
  roundTrip_ext rfl (by decide) rfl (fun _ => rfl) (fun _ => rfl) rfl hw he
theorem xorShort (o) : Statement (.xorShort o) := fun hw _ he =>
  roundTrip_short rfl (by decide) rfl rfl (fun _ => rfl) rfl hw he
theorem xor (o) : Statement (.xor o) := fun hw _ he =>
  roundTrip_ext rfl (by decide) rfl (fun _ => rfl) (fun _ => rfl) rfl hw he
theorem andnShort (o) : Statement (.andnShort o) := fun hw _ he =>
  roundTrip_short rfl (by decide) rfl rfl (fun _ => rfl) rfl hw he
theorem andn (o) : Statement (.andn o) := fun hw _ he =>
  roundTrip_ext rfl (by decide) rfl (fun _ => rfl) (fun _ => rfl) rfl hw he
theorem shlShort (o) : Statement (.shlShort o) := fun hw _ he =>
  roundTrip_short rfl (by decide) rfl rfl (fun _ => rfl) rfl hw he
theorem shl (o) : Statement (.shl o) := fun hw _ he =>
  roundTrip_ext rfl (by decide) rfl (fun _ => rfl) (fun _ => rfl) rfl hw he
theorem shrlShort (o) : Statement (.shrlShort o) := fun hw _ he =>
  roundTrip_short rfl (by decide) rfl rfl (fun _ => rfl) rfl hw he
theorem shrl (o) : Statement (.shrl o) := fun hw _ he =>
  roundTrip_ext rfl (by decide) rfl (fun _ => rfl) (fun _ => rfl) rfl hw he
theorem shraShort (o) : Statement (.shraShort o) := fun hw _ he =>
  roundTrip_short rfl (by decide) rfl rfl (fun _ => rfl) rfl hw he
theorem shra (o) : Statement (.shra o) := fun hw _ he =>
  roundTrip_ext rfl (by decide) rfl (fun _ => rfl) (fun _ => rfl) rfl hw he
theorem rotlShort (o) : Statement (.rotlShort o) := fun hw _ he =>
  roundTrip_short rfl (by decide) rfl rfl (fun _ => rfl) rfl hw he
theorem rotl (o) : Statement (.rotl o) := fun hw _ he =>
  roundTrip_ext rfl (by decide) rfl (fun _ => rfl) (fun _ => rfl) rfl hw he
theorem bfx (o) : Statement (.bfx o) := fun hw _ he =>
  roundTrip_ext rfl (by decide) rfl (fun _ => rfl) (fun _ => rfl) rfl hw he
theorem bfi (o) : Statement (.bfi o) := fun hw _ he =>
  roundTrip_ext rfl (by decide) rfl (fun _ => rfl) (fun _ => rfl) rfl hw he
theorem icmp (k o) : Statement (.icmp k o) := fun hw _ he =>
  roundTrip_ext rfl (by decide) rfl (fun _ => rfl) (fun _ => rfl) (by cases k <;> rfl) hw he
theorem isel (o) : Statement (.isel o) := fun hw _ he =>
  roundTrip_ext rfl (by decide) rfl (fun _ => rfl) (fun _ => rfl) rfl hw he
theorem leaShort (o) : Statement (.leaShort o) := fun hw _ he =>
  roundTrip_short rfl (by decide) rfl rfl (fun _ => rfl) rfl hw he
theorem lea (o) : Statement (.lea o) := fun hw _ he =>
  roundTrip_ext rfl (by decide) rfl (fun _ => rfl) (fun _ => rfl) rfl hw he
theorem faddShort (o) : Statement (.faddShort o) := fun hw _ he =>
  roundTrip_short rfl (by decide) rfl rfl (fun _ => rfl) rfl hw he
theorem fadd (o) : Statement (.fadd o) := fun hw _ he =>
  roundTrip_ext rfl (by decide) rfl (fun _ => rfl) (fun _ => rfl) rfl hw he
theorem fsubShort (o) : Statement (.fsubShort o) := fun hw _ he =>
  roundTrip_short rfl (by decide) rfl rfl (fun _ => rfl) rfl hw he
theorem fsub (o) : Statement (.fsub o) := fun hw _ he =>
  roundTrip_ext rfl (by decide) rfl (fun _ => rfl) (fun _ => rfl) rfl hw he
theorem fmulShort (o) : Statement (.fmulShort o) := fun hw _ he =>
  roundTrip_short rfl (by decide) rfl rfl (fun _ => rfl) rfl hw he
theorem fmul (o) : Statement (.fmul o) := fun hw _ he =>
  roundTrip_ext rfl (by decide) rfl (fun _ => rfl) (fun _ => rfl) rfl hw he
theorem ffma (o) : Statement (.ffma o) := fun hw _ he =>
  roundTrip_ext rfl (by decide) rfl (fun _ => rfl) (fun _ => rfl) rfl hw he
theorem fminShort (o) : Statement (.fminShort o) := fun hw _ he =>
  roundTrip_short rfl (by decide) rfl rfl (fun _ => rfl) rfl hw he
theorem fmin (o) : Statement (.fmin o) := fun hw _ he =>
  roundTrip_ext rfl (by decide) rfl (fun _ => rfl) (fun _ => rfl) rfl hw he
theorem fmaxShort (o) : Statement (.fmaxShort o) := fun hw _ he =>
  roundTrip_short rfl (by decide) rfl rfl (fun _ => rfl) rfl hw he
theorem fmax (o) : Statement (.fmax o) := fun hw _ he =>
  roundTrip_ext rfl (by decide) rfl (fun _ => rfl) (fun _ => rfl) rfl hw he
theorem fcmp (k o) : Statement (.fcmp k o) := fun hw _ he =>
  roundTrip_ext rfl (by decide) rfl (fun _ => rfl) (fun _ => rfl) (by cases k <;> rfl) hw he
theorem fdivShort (o) : Statement (.fdivShort o) := fun hw _ he =>
  roundTrip_short rfl (by decide) rfl rfl (fun _ => rfl) rfl hw he
theorem fdiv (o) : Statement (.fdiv o) := fun hw _ he =>
  roundTrip_ext rfl (by decide) rfl (fun _ => rfl) (fun _ => rfl) rfl hw he
theorem fabsShort (o) : Statement (.fabsShort o) := fun hw _ he =>
  roundTrip_sub rfl (by decide) rfl rfl (fun _ => rfl) rfl rfl (zeroB hw rfl rfl) hw he
theorem fabs (o) : Statement (.fabs o) := fun hw _ he =>
  roundTrip_ext rfl (by decide) rfl (fun _ => rfl) (fun _ => rfl) rfl hw he
theorem fnegShort (o) : Statement (.fnegShort o) := fun hw _ he =>
  roundTrip_sub rfl (by decide) rfl rfl (fun _ => rfl) rfl rfl (zeroB hw rfl rfl) hw he
theorem fneg (o) : Statement (.fneg o) := fun hw _ he =>
  roundTrip_ext rfl (by decide) rfl (fun _ => rfl) (fun _ => rfl) rfl hw he
theorem frcpShort (o) : Statement (.frcpShort o) := fun hw _ he =>
  roundTrip_sub rfl (by decide) rfl rfl (fun _ => rfl) rfl rfl (zeroB hw rfl rfl) hw he
theorem frcp (o) : Statement (.frcp o) := fun hw _ he =>
  roundTrip_ext rfl (by decide) rfl (fun _ => rfl) (fun _ => rfl) rfl hw he
theorem frsqShort (o) : Statement (.frsqShort o) := fun hw _ he =>
  roundTrip_sub rfl (by decide) rfl rfl (fun _ => rfl) rfl rfl (zeroB hw rfl rfl) hw he
theorem frsq (o) : Statement (.frsq o) := fun hw _ he =>
  roundTrip_ext rfl (by decide) rfl (fun _ => rfl) (fun _ => rfl) rfl hw he
theorem fsqrtShort (o) : Statement (.fsqrtShort o) := fun hw _ he =>
  roundTrip_sub rfl (by decide) rfl rfl (fun _ => rfl) rfl rfl (zeroB hw rfl rfl) hw he
theorem fsqrt (o) : Statement (.fsqrt o) := fun hw _ he =>
  roundTrip_ext rfl (by decide) rfl (fun _ => rfl) (fun _ => rfl) rfl hw he
theorem fexp2Short (o) : Statement (.fexp2Short o) := fun hw _ he =>
  roundTrip_sub rfl (by decide) rfl rfl (fun _ => rfl) rfl rfl (zeroB hw rfl rfl) hw he
theorem fexp2 (o) : Statement (.fexp2 o) := fun hw _ he =>
  roundTrip_ext rfl (by decide) rfl (fun _ => rfl) (fun _ => rfl) rfl hw he
theorem flog2Short (o) : Statement (.flog2Short o) := fun hw _ he =>
  roundTrip_sub rfl (by decide) rfl rfl (fun _ => rfl) rfl rfl (zeroB hw rfl rfl) hw he
theorem flog2 (o) : Statement (.flog2 o) := fun hw _ he =>
  roundTrip_ext rfl (by decide) rfl (fun _ => rfl) (fun _ => rfl) rfl hw he
theorem fsinShort (o) : Statement (.fsinShort o) := fun hw _ he =>
  roundTrip_sub rfl (by decide) rfl rfl (fun _ => rfl) rfl rfl (zeroB hw rfl rfl) hw he
theorem fsin (o) : Statement (.fsin o) := fun hw _ he =>
  roundTrip_ext rfl (by decide) rfl (fun _ => rfl) (fun _ => rfl) rfl hw he
theorem fcosShort (o) : Statement (.fcosShort o) := fun hw _ he =>
  roundTrip_sub rfl (by decide) rfl rfl (fun _ => rfl) rfl rfl (zeroB hw rfl rfl) hw he
theorem fcos (o) : Statement (.fcos o) := fun hw _ he =>
  roundTrip_ext rfl (by decide) rfl (fun _ => rfl) (fun _ => rfl) rfl hw he
theorem froundShort (o) : Statement (.froundShort o) := fun hw _ he =>
  roundTrip_sub rfl (by decide) rfl rfl (fun _ => rfl) rfl rfl (zeroB hw rfl rfl) hw he
theorem fround (o) : Statement (.fround o) := fun hw _ he =>
  roundTrip_ext rfl (by decide) rfl (fun _ => rfl) (fun _ => rfl) rfl hw he
theorem fclassShort (o) : Statement (.fclassShort o) := fun hw _ he =>
  roundTrip_sub rfl (by decide) rfl rfl (fun _ => rfl) rfl rfl (zeroB hw rfl rfl) hw he
theorem fclass (o) : Statement (.fclass o) := fun hw _ he =>
  roundTrip_ext rfl (by decide) rfl (fun _ => rfl) (fun _ => rfl) rfl hw he
theorem cvt (o) : Statement (.cvt o) := fun hw _ he =>
  roundTrip_ext rfl (by decide) rfl (fun _ => rfl) (fun _ => rfl) rfl hw he
theorem hfma2 (o) : Statement (.hfma2 o) := fun hw _ he =>
  roundTrip_ext rfl (by decide) rfl (fun _ => rfl) (fun _ => rfl) rfl hw he
theorem dot4 (o) : Statement (.dot4 o) := fun hw _ he =>
  roundTrip_ext rfl (by decide) rfl (fun _ => rfl) (fun _ => rfl) rfl hw he
theorem movShort (o) : Statement (.movShort o) := fun hw _ he =>
  roundTrip_short rfl (by decide) rfl rfl (fun _ => rfl) rfl hw he
theorem mov (o) : Statement (.mov o) := fun hw _ he =>
  roundTrip_ext rfl (by decide) rfl (fun _ => rfl) (fun _ => rfl) rfl hw he
theorem moviShort (o) : Statement (.moviShort o) := fun hw _ he =>
  roundTrip_short rfl (by decide) rfl rfl (fun _ => rfl) rfl hw he
theorem movi (o) : Statement (.movi o) := fun hw _ he =>
  roundTrip_ext rfl (by decide) rfl (fun _ => rfl) (fun _ => rfl) rfl hw he
theorem bcastShort (o) : Statement (.bcastShort o) := fun hw _ he =>
  roundTrip_short rfl (by decide) rfl rfl (fun h => by rw [show o.lit = none from noLit (i := .bcastShort o) rfl hw rfl] at h; cases h) rfl hw he
theorem bcast (o) : Statement (.bcast o) := fun hw _ he =>
  roundTrip_ext rfl (by decide) rfl (fun _ => rfl) (fun h => by rw [show o.lit = none from noLit (i := .bcast o) rfl hw rfl] at h; cases h) rfl hw he
theorem shfl (k o) : Statement (.shfl k o) := fun hw _ he =>
  roundTrip_ext rfl (by decide) rfl (fun _ => rfl) (fun h => by rw [show o.lit = none from noLit (i := .shfl k o) rfl hw rfl] at h; cases h) (by cases k <;> rfl) hw he
theorem vote (k o) : Statement (.vote k o) := fun hw _ he =>
  roundTrip_ext rfl (by decide) rfl (fun _ => rfl) (fun h => by rw [show o.lit = none from noLit (i := .vote k o) rfl hw rfl] at h; cases h) (by cases k <;> rfl) hw he
theorem redux (k o) : Statement (.redux k o) := fun hw _ he =>
  roundTrip_ext rfl (by decide) rfl (fun _ => rfl) (fun h => by rw [show o.lit = none from noLit (i := .redux k o) rfl hw rfl] at h; cases h) (by cases k <;> rfl) hw he
theorem scan (p ex o) : Statement (.scan p ex o) := fun hw _ he =>
  roundTrip_ext rfl (by decide) rfl (fun _ => rfl) (fun h => by rw [show o.lit = none from noLit (i := .scan p ex o) rfl hw rfl] at h; cases h) (by cases p <;> cases ex <;> rfl) hw he
theorem movsShort (o) : Statement (.movsShort o) := fun hw _ he =>
  roundTrip_short rfl (by decide) rfl rfl (fun h => by rw [show o.lit = none from noLit (i := .movsShort o) rfl hw rfl] at h; cases h) rfl hw he
theorem movs (o) : Statement (.movs o) := fun hw _ he =>
  roundTrip_ext rfl (by decide) rfl (fun _ => rfl) (fun h => by rw [show o.lit = none from noLit (i := .movs o) rfl hw rfl] at h; cases h) rfl hw he
theorem smovShort (o) : Statement (.smovShort o) := fun hw _ he =>
  roundTrip_short rfl (by decide) rfl rfl (fun _ => rfl) rfl hw he
theorem smov (o) : Statement (.smov o) := fun hw _ he =>
  roundTrip_ext rfl (by decide) rfl (fun _ => rfl) (fun _ => rfl) rfl hw he
theorem smoviShort (o) : Statement (.smoviShort o) := fun hw _ he =>
  roundTrip_short rfl (by decide) rfl rfl (fun _ => rfl) rfl hw he
theorem smovi (o) : Statement (.smovi o) := fun hw _ he =>
  roundTrip_ext rfl (by decide) rfl (fun _ => rfl) (fun _ => rfl) rfl hw he
theorem saddShort (o) : Statement (.saddShort o) := fun hw _ he =>
  roundTrip_short rfl (by decide) rfl rfl (fun _ => rfl) rfl hw he
theorem sadd (o) : Statement (.sadd o) := fun hw _ he =>
  roundTrip_ext rfl (by decide) rfl (fun _ => rfl) (fun _ => rfl) rfl hw he
theorem ssubShort (o) : Statement (.ssubShort o) := fun hw _ he =>
  roundTrip_short rfl (by decide) rfl rfl (fun _ => rfl) rfl hw he
theorem ssub (o) : Statement (.ssub o) := fun hw _ he =>
  roundTrip_ext rfl (by decide) rfl (fun _ => rfl) (fun _ => rfl) rfl hw he
theorem smulShort (o) : Statement (.smulShort o) := fun hw _ he =>
  roundTrip_short rfl (by decide) rfl rfl (fun _ => rfl) rfl hw he
theorem smul (o) : Statement (.smul o) := fun hw _ he =>
  roundTrip_ext rfl (by decide) rfl (fun _ => rfl) (fun _ => rfl) rfl hw he
theorem sandShort (o) : Statement (.sandShort o) := fun hw _ he =>
  roundTrip_short rfl (by decide) rfl rfl (fun _ => rfl) rfl hw he
theorem sand (o) : Statement (.sand o) := fun hw _ he =>
  roundTrip_ext rfl (by decide) rfl (fun _ => rfl) (fun _ => rfl) rfl hw he
theorem sorShort (o) : Statement (.sorShort o) := fun hw _ he =>
  roundTrip_short rfl (by decide) rfl rfl (fun _ => rfl) rfl hw he
theorem sor (o) : Statement (.sor o) := fun hw _ he =>
  roundTrip_ext rfl (by decide) rfl (fun _ => rfl) (fun _ => rfl) rfl hw he
theorem sxorShort (o) : Statement (.sxorShort o) := fun hw _ he =>
  roundTrip_short rfl (by decide) rfl rfl (fun _ => rfl) rfl hw he
theorem sxor (o) : Statement (.sxor o) := fun hw _ he =>
  roundTrip_ext rfl (by decide) rfl (fun _ => rfl) (fun _ => rfl) rfl hw he
theorem sshlShort (o) : Statement (.sshlShort o) := fun hw _ he =>
  roundTrip_short rfl (by decide) rfl rfl (fun _ => rfl) rfl hw he
theorem sshl (o) : Statement (.sshl o) := fun hw _ he =>
  roundTrip_ext rfl (by decide) rfl (fun _ => rfl) (fun _ => rfl) rfl hw he
theorem sshrShort (o) : Statement (.sshrShort o) := fun hw _ he =>
  roundTrip_short rfl (by decide) rfl rfl (fun _ => rfl) rfl hw he
theorem sshr (o) : Statement (.sshr o) := fun hw _ he =>
  roundTrip_ext rfl (by decide) rfl (fun _ => rfl) (fun _ => rfl) rfl hw he
theorem scmp (k o) : Statement (.scmp k o) := fun hw _ he =>
  roundTrip_ext rfl (by decide) rfl (fun _ => rfl) (fun _ => rfl) (by cases k <;> rfl) hw he
theorem ssel (o) : Statement (.ssel o) := fun hw _ he =>
  roundTrip_ext rfl (by decide) rfl (fun _ => rfl) (fun _ => rfl) rfl hw he
theorem bra (o) : Statement (.bra o) := fun hw _ he =>
  roundTrip_ext rfl (by decide) rfl (fun _ => rfl) (fun h => by rw [show o.lit = none from noLit (i := .bra o) rfl hw rfl] at h; cases h) rfl hw he
theorem brd (o) : Statement (.brd o) := fun hw _ he =>
  roundTrip_ext rfl (by decide) rfl (fun h => by have := hasLit (i := .brd o) rfl hw rfl; change o.lit.isSome = true at this; rw [h] at this; cases this) (fun _ => rfl) rfl hw he
theorem join (o) : Statement (.join o) := fun hw _ he =>
  roundTrip_short rfl (by decide) rfl rfl (fun h => by rw [show o.lit = none from noLit (i := .join o) rfl hw rfl] at h; cases h) rfl hw he
theorem jmpi (o) : Statement (.jmpi o) := fun hw _ he =>
  roundTrip_ext rfl (by decide) rfl (fun _ => rfl) (fun h => by rw [show o.lit = none from noLit (i := .jmpi o) rfl hw rfl] at h; cases h) rfl hw he
theorem call (o) : Statement (.call o) := fun hw _ he =>
  roundTrip_ext rfl (by decide) rfl (fun _ => rfl) (fun h => by rw [show o.lit = none from noLit (i := .call o) rfl hw rfl] at h; cases h) rfl hw he
theorem calliShort (o) : Statement (.calliShort o) := fun hw _ he =>
  roundTrip_short rfl (by decide) rfl rfl (fun h => by rw [show o.lit = none from noLit (i := .calliShort o) rfl hw rfl] at h; cases h) rfl hw he
theorem calli (o) : Statement (.calli o) := fun hw _ he =>
  roundTrip_ext rfl (by decide) rfl (fun _ => rfl) (fun h => by rw [show o.lit = none from noLit (i := .calli o) rfl hw rfl] at h; cases h) rfl hw he
theorem retShort (o) : Statement (.retShort o) := fun hw _ he =>
  roundTrip_short rfl (by decide) rfl rfl (fun h => by rw [show o.lit = none from noLit (i := .retShort o) rfl hw rfl] at h; cases h) rfl hw he
theorem ret (o) : Statement (.ret o) := fun hw _ he =>
  roundTrip_ext rfl (by decide) rfl (fun _ => rfl) (fun h => by rw [show o.lit = none from noLit (i := .ret o) rfl hw rfl] at h; cases h) rfl hw he
theorem land (o) : Statement (.land o) := fun hw _ he =>
  roundTrip_short rfl (by decide) rfl rfl (fun h => by rw [show o.lit = none from noLit (i := .land o) rfl hw rfl] at h; cases h) rfl hw he
theorem exitShort (o) : Statement (.exitShort o) := fun hw _ he =>
  roundTrip_short rfl (by decide) rfl rfl (fun h => by rw [show o.lit = none from noLit (i := .exitShort o) rfl hw rfl] at h; cases h) rfl hw he
theorem exit (o) : Statement (.exit o) := fun hw _ he =>
  roundTrip_ext rfl (by decide) rfl (fun _ => rfl) (fun h => by rw [show o.lit = none from noLit (i := .exit o) rfl hw rfl] at h; cases h) rfl hw he
theorem execrShort (o) : Statement (.execrShort o) := fun hw _ he =>
  roundTrip_sub rfl (by decide) rfl rfl (fun h => by rw [show o.lit = none from noLit (i := .execrShort o) rfl hw rfl] at h; cases h) rfl rfl (zeroB hw rfl rfl) hw he
theorem execr (o) : Statement (.execr o) := fun hw _ he =>
  roundTrip_ext rfl (by decide) rfl (fun _ => rfl) (fun h => by rw [show o.lit = none from noLit (i := .execr o) rfl hw rfl] at h; cases h) rfl hw he
theorem execwShort (o) : Statement (.execwShort o) := fun hw _ he =>
  roundTrip_sub rfl (by decide) rfl rfl (fun h => by rw [show o.lit = none from noLit (i := .execwShort o) rfl hw rfl] at h; cases h) rfl rfl (zeroB hw rfl rfl) hw he
theorem execw (o) : Statement (.execw o) := fun hw _ he =>
  roundTrip_ext rfl (by decide) rfl (fun _ => rfl) (fun h => by rw [show o.lit = none from noLit (i := .execw o) rfl hw rfl] at h; cases h) rfl hw he
theorem nop (o) : Statement (.nop o) := fun hw _ he =>
  roundTrip_short rfl (by decide) rfl rfl (fun h => by rw [show o.lit = none from noLit (i := .nop o) rfl hw rfl] at h; cases h) rfl hw he
theorem yield (o) : Statement (.yield o) := fun hw _ he =>
  roundTrip_short rfl (by decide) rfl rfl (fun h => by rw [show o.lit = none from noLit (i := .yield o) rfl hw rfl] at h; cases h) rfl hw he
theorem ffence (o) : Statement (.ffence o) := fun hw _ he =>
  roundTrip_short rfl (by decide) rfl rfl (fun h => by rw [show o.lit = none from noLit (i := .ffence o) rfl hw rfl] at h; cases h) rfl hw he
theorem ldShort (o) : Statement (.ldShort o) := fun hw _ he =>
  roundTrip_short rfl (by decide) rfl rfl (fun h => by rw [show o.lit = none from noLit (i := .ldShort o) rfl hw rfl] at h; cases h) rfl hw he
theorem ld (o) : Statement (.ld o) := fun hw _ he =>
  roundTrip_ext rfl (by decide) rfl (fun _ => rfl) (fun h => by rw [show o.lit = none from noLit (i := .ld o) rfl hw rfl] at h; cases h) rfl hw he
theorem stShort (o) : Statement (.stShort o) := fun hw _ he =>
  roundTrip_short rfl (by decide) rfl rfl (fun h => by rw [show o.lit = none from noLit (i := .stShort o) rfl hw rfl] at h; cases h) rfl hw he
theorem st (o) : Statement (.st o) := fun hw _ he =>
  roundTrip_ext rfl (by decide) rfl (fun _ => rfl) (fun h => by rw [show o.lit = none from noLit (i := .st o) rfl hw rfl] at h; cases h) rfl hw he
theorem lduShort (o) : Statement (.lduShort o) := fun hw _ he =>
  roundTrip_short rfl (by decide) rfl rfl (fun h => by rw [show o.lit = none from noLit (i := .lduShort o) rfl hw rfl] at h; cases h) rfl hw he
theorem ldu (o) : Statement (.ldu o) := fun hw _ he =>
  roundTrip_ext rfl (by decide) rfl (fun _ => rfl) (fun h => by rw [show o.lit = none from noLit (i := .ldu o) rfl hw rfl] at h; cases h) rfl hw he
theorem prefShort (o) : Statement (.prefShort o) := fun hw _ he =>
  roundTrip_short rfl (by decide) rfl rfl (fun h => by rw [show o.lit = none from noLit (i := .prefShort o) rfl hw rfl] at h; cases h) rfl hw he
theorem pref (o) : Statement (.pref o) := fun hw _ he =>
  roundTrip_ext rfl (by decide) rfl (fun _ => rfl) (fun h => by rw [show o.lit = none from noLit (i := .pref o) rfl hw rfl] at h; cases h) rfl hw he
theorem ldt (o) : Statement (.ldt o) := fun hw _ he =>
  roundTrip_ext rfl (by decide) rfl (fun _ => rfl) (fun h => by rw [show o.lit = none from noLit (i := .ldt o) rfl hw rfl] at h; cases h) rfl hw he
theorem stt (o) : Statement (.stt o) := fun hw _ he =>
  roundTrip_ext rfl (by decide) rfl (fun _ => rfl) (fun h => by rw [show o.lit = none from noLit (i := .stt o) rfl hw rfl] at h; cases h) rfl hw he
theorem ldacc (o) : Statement (.ldacc o) := fun hw _ he =>
  roundTrip_ext rfl (by decide) rfl (fun _ => rfl) (fun h => by rw [show o.lit = none from noLit (i := .ldacc o) rfl hw rfl] at h; cases h) rfl hw he
theorem stacc (o) : Statement (.stacc o) := fun hw _ he =>
  roundTrip_ext rfl (by decide) rfl (fun _ => rfl) (fun h => by rw [show o.lit = none from noLit (i := .stacc o) rfl hw rfl] at h; cases h) rfl hw he
theorem tlook (o) : Statement (.tlook o) := fun hw _ he =>
  roundTrip_ext rfl (by decide) rfl (fun _ => rfl) (fun h => by rw [show o.lit = none from noLit (i := .tlook o) rfl hw rfl] at h; cases h) rfl hw he
theorem tlookClm (o) : Statement (.tlookClm o) := fun hw _ he =>
  roundTrip_ext rfl (by decide) rfl (fun _ => rfl) (fun h => by rw [show o.lit = none from noLit (i := .tlookClm o) rfl hw rfl] at h; cases h) rfl hw he
theorem tfill (o) : Statement (.tfill o) := fun hw _ he =>
  roundTrip_ext rfl (by decide) rfl (fun _ => rfl) (fun h => by rw [show o.lit = none from noLit (i := .tfill o) rfl hw rfl] at h; cases h) rfl hw he
theorem tevict (o) : Statement (.tevict o) := fun hw _ he =>
  roundTrip_ext rfl (by decide) rfl (fun _ => rfl) (fun h => by rw [show o.lit = none from noLit (i := .tevict o) rfl hw rfl] at h; cases h) rfl hw he
theorem tinv (o) : Statement (.tinv o) := fun hw _ he =>
  roundTrip_ext rfl (by decide) rfl (fun _ => rfl) (fun h => by rw [show o.lit = none from noLit (i := .tinv o) rfl hw rfl] at h; cases h) rfl hw he
theorem atom (o) : Statement (.atom o) := fun hw _ he =>
  roundTrip_ext rfl (by decide) rfl (fun _ => rfl) (fun h => by rw [show o.lit = none from noLit (i := .atom o) rfl hw rfl] at h; cases h) rfl hw he
theorem atomcas (o) : Statement (.atomcas o) := fun hw _ he =>
  roundTrip_ext rfl (by decide) rfl (fun _ => rfl) (fun h => by rw [show o.lit = none from noLit (i := .atomcas o) rfl hw rfl] at h; cases h) rfl hw he
theorem red (o) : Statement (.red o) := fun hw _ he =>
  roundTrip_ext rfl (by decide) rfl (fun _ => rfl) (fun h => by rw [show o.lit = none from noLit (i := .red o) rfl hw rfl] at h; cases h) rfl hw he
theorem fence (o) : Statement (.fence o) := fun hw _ he =>
  roundTrip_ext rfl (by decide) rfl (fun _ => rfl) (fun h => by rw [show o.lit = none from noLit (i := .fence o) rfl hw rfl] at h; cases h) rfl hw he
theorem opfence (o) : Statement (.opfence o) := fun hw _ he =>
  roundTrip_short rfl (by decide) rfl rfl (fun h => by rw [show o.lit = none from noLit (i := .opfence o) rfl hw rfl] at h; cases h) rfl hw he
theorem barinit (o) : Statement (.barinit o) := fun hw _ he =>
  roundTrip_ext rfl (by decide) rfl (fun _ => rfl) (fun h => by rw [show o.lit = none from noLit (i := .barinit o) rfl hw rfl] at h; cases h) rfl hw he
theorem baraShort (o) : Statement (.baraShort o) := fun hw _ he =>
  roundTrip_sub rfl (by decide) rfl rfl (fun h => by rw [show o.lit = none from noLit (i := .baraShort o) rfl hw rfl] at h; cases h) rfl rfl (zeroB hw rfl rfl) hw he
theorem bara (o) : Statement (.bara o) := fun hw _ he =>
  roundTrip_ext rfl (by decide) rfl (fun _ => rfl) (fun h => by rw [show o.lit = none from noLit (i := .bara o) rfl hw rfl] at h; cases h) rfl hw he
theorem barwShort (o) : Statement (.barwShort o) := fun hw _ he =>
  roundTrip_sub rfl (by decide) rfl rfl (fun h => by rw [show o.lit = none from noLit (i := .barwShort o) rfl hw rfl] at h; cases h) rfl rfl (zeroB hw rfl rfl) hw he
theorem barw (o) : Statement (.barw o) := fun hw _ he =>
  roundTrip_ext rfl (by decide) rfl (fun _ => rfl) (fun h => by rw [show o.lit = none from noLit (i := .barw o) rfl hw rfl] at h; cases h) rfl hw he
theorem barawShort (o) : Statement (.barawShort o) := fun hw _ he =>
  roundTrip_sub rfl (by decide) rfl rfl (fun h => by rw [show o.lit = none from noLit (i := .barawShort o) rfl hw rfl] at h; cases h) rfl rfl (zeroB hw rfl rfl) hw he
theorem baraw (o) : Statement (.baraw o) := fun hw _ he =>
  roundTrip_ext rfl (by decide) rfl (fun _ => rfl) (fun h => by rw [show o.lit = none from noLit (i := .baraw o) rfl hw rfl] at h; cases h) rfl hw he
theorem waitc (o) : Statement (.waitc o) := fun hw _ he =>
  roundTrip_ext rfl (by decide) rfl (fun _ => rfl) (fun h => by rw [show o.lit = none from noLit (i := .waitc o) rfl hw rfl] at h; cases h) rfl hw he
theorem gsetShort (o) : Statement (.gsetShort o) := fun hw _ he =>
  roundTrip_sub rfl (by decide) rfl rfl (fun h => by rw [show o.lit = none from noLit (i := .gsetShort o) rfl hw rfl] at h; cases h) rfl rfl (zeroB hw rfl rfl) hw he
theorem gset (o) : Statement (.gset o) := fun hw _ he =>
  roundTrip_ext rfl (by decide) rfl (fun _ => rfl) (fun h => by rw [show o.lit = none from noLit (i := .gset o) rfl hw rfl] at h; cases h) rfl hw he
theorem gclrShort (o) : Statement (.gclrShort o) := fun hw _ he =>
  roundTrip_sub rfl (by decide) rfl rfl (fun h => by rw [show o.lit = none from noLit (i := .gclrShort o) rfl hw rfl] at h; cases h) rfl rfl (zeroB hw rfl rfl) hw he
theorem gclr (o) : Statement (.gclr o) := fun hw _ he =>
  roundTrip_ext rfl (by decide) rfl (fun _ => rfl) (fun h => by rw [show o.lit = none from noLit (i := .gclr o) rfl hw rfl] at h; cases h) rfl hw he
theorem xch (o) : Statement (.xch o) := fun hw _ he =>
  roundTrip_ext rfl (by decide) rfl (fun _ => rfl) (fun h => by rw [show o.lit = none from noLit (i := .xch o) rfl hw rfl] at h; cases h) rfl hw he
theorem qpushShort (o) : Statement (.qpushShort o) := fun hw _ he =>
  roundTrip_short rfl (by decide) rfl rfl (fun h => by rw [show o.lit = none from noLit (i := .qpushShort o) rfl hw rfl] at h; cases h) rfl hw he
theorem qpush (o) : Statement (.qpush o) := fun hw _ he =>
  roundTrip_ext rfl (by decide) rfl (fun _ => rfl) (fun h => by rw [show o.lit = none from noLit (i := .qpush o) rfl hw rfl] at h; cases h) rfl hw he
theorem qpopShort (o) : Statement (.qpopShort o) := fun hw _ he =>
  roundTrip_short rfl (by decide) rfl rfl (fun h => by rw [show o.lit = none from noLit (i := .qpopShort o) rfl hw rfl] at h; cases h) rfl hw he
theorem qpop (o) : Statement (.qpop o) := fun hw _ he =>
  roundTrip_ext rfl (by decide) rfl (fun _ => rfl) (fun h => by rw [show o.lit = none from noLit (i := .qpop o) rfl hw rfl] at h; cases h) rfl hw he
theorem qstatShort (o) : Statement (.qstatShort o) := fun hw _ he =>
  roundTrip_sub rfl (by decide) rfl rfl (fun h => by rw [show o.lit = none from noLit (i := .qstatShort o) rfl hw rfl] at h; cases h) rfl rfl (zeroB hw rfl rfl) hw he
theorem qstat (o) : Statement (.qstat o) := fun hw _ he =>
  roundTrip_ext rfl (by decide) rfl (fun _ => rfl) (fun h => by rw [show o.lit = none from noLit (i := .qstat o) rfl hw rfl] at h; cases h) rfl hw he
theorem qstatSatShort (o) : Statement (.qstatSatShort o) := fun hw _ he =>
  roundTrip_sub rfl (by decide) rfl rfl (fun h => by rw [show o.lit = none from noLit (i := .qstatSatShort o) rfl hw rfl] at h; cases h) rfl rfl (zeroB hw rfl rfl) hw he
theorem qstatSat (o) : Statement (.qstatSat o) := fun hw _ he =>
  roundTrip_ext rfl (by decide) rfl (fun _ => rfl) (fun h => by rw [show o.lit = none from noLit (i := .qstatSat o) rfl hw rfl] at h; cases h) rfl hw he
theorem mldw (o) : Statement (.mldw o) := fun hw _ he =>
  roundTrip_ext rfl (by decide) rfl (fun _ => rfl) (fun h => by rw [show o.lit = none from noLit (i := .mldw o) rfl hw rfl] at h; cases h) rfl hw he
theorem mswapShort (o) : Statement (.mswapShort o) := fun hw _ he =>
  roundTrip_short rfl (by decide) rfl rfl (fun h => by rw [show o.lit = none from noLit (i := .mswapShort o) rfl hw rfl] at h; cases h) rfl hw he
theorem mswap (o) : Statement (.mswap o) := fun hw _ he =>
  roundTrip_ext rfl (by decide) rfl (fun _ => rfl) (fun h => by rw [show o.lit = none from noLit (i := .mswap o) rfl hw rfl] at h; cases h) rfl hw he
theorem mma (o) : Statement (.mma o) := fun hw _ he =>
  roundTrip_ext rfl (by decide) rfl (fun _ => rfl) (fun h => by rw [show o.lit = none from noLit (i := .mma o) rfl hw rfl] at h; cases h) rfl hw he
theorem mmaJ (o) : Statement (.mmaJ o) := fun hw _ he =>
  roundTrip_ext rfl (by decide) rfl (fun _ => rfl) (fun h => by rw [show o.lit = none from noLit (i := .mmaJ o) rfl hw rfl] at h; cases h) rfl hw he
theorem mmas (o) : Statement (.mmas o) := fun hw _ he =>
  roundTrip_ext rfl (by decide) rfl (fun _ => rfl) (fun h => by rw [show o.lit = none from noLit (i := .mmas o) rfl hw rfl] at h; cases h) rfl hw he
theorem mhad (o) : Statement (.mhad o) := fun hw _ he =>
  roundTrip_ext rfl (by decide) rfl (fun _ => rfl) (fun h => by rw [show o.lit = none from noLit (i := .mhad o) rfl hw rfl] at h; cases h) rfl hw he
theorem mqnt (o) : Statement (.mqnt o) := fun hw _ he =>
  roundTrip_ext rfl (by decide) rfl (fun _ => rfl) (fun h => by rw [show o.lit = none from noLit (i := .mqnt o) rfl hw rfl] at h; cases h) rfl hw he
theorem accz (o) : Statement (.accz o) := fun hw _ he =>
  roundTrip_ext rfl (by decide) rfl (fun _ => rfl) (fun h => by rw [show o.lit = none from noLit (i := .accz o) rfl hw rfl] at h; cases h) rfl hw he
theorem acccvt (o) : Statement (.acccvt o) := fun hw _ he =>
  roundTrip_ext rfl (by decide) rfl (fun _ => rfl) (fun h => by rw [show o.lit = none from noLit (i := .acccvt o) rfl hw rfl] at h; cases h) rfl hw he
theorem subscribe (o) : Statement (.subscribe o) := fun hw _ he =>
  roundTrip_ext rfl (by decide) rfl (fun _ => rfl) (fun h => by rw [show o.lit = none from noLit (i := .subscribe o) rfl hw rfl] at h; cases h) rfl hw he
theorem publish (o) : Statement (.publish o) := fun hw _ he =>
  roundTrip_ext rfl (by decide) rfl (fun _ => rfl) (fun h => by rw [show o.lit = none from noLit (i := .publish o) rfl hw rfl] at h; cases h) rfl hw he
theorem mcad (o) : Statement (.mcad o) := fun hw _ he =>
  roundTrip_ext rfl (by decide) rfl (fun _ => rfl) (fun h => by rw [show o.lit = none from noLit (i := .mcad o) rfl hw rfl] at h; cases h) rfl hw he
theorem vout (o) : Statement (.vout o) := fun hw _ he =>
  roundTrip_ext rfl (by decide) rfl (fun _ => rfl) (fun h => by rw [show o.lit = none from noLit (i := .vout o) rfl hw rfl] at h; cases h) rfl hw he
theorem pout (o) : Statement (.pout o) := fun hw _ he =>
  roundTrip_ext rfl (by decide) rfl (fun _ => rfl) (fun h => by rw [show o.lit = none from noLit (i := .pout o) rfl hw rfl] at h; cases h) rfl hw he
theorem msetcnt (o) : Statement (.msetcnt o) := fun hw _ he =>
  roundTrip_ext rfl (by decide) rfl (fun _ => rfl) (fun h => by rw [show o.lit = none from noLit (i := .msetcnt o) rfl hw rfl] at h; cases h) rfl hw he
theorem vamp (o) : Statement (.vamp o) := fun hw _ he =>
  roundTrip_ext rfl (by decide) rfl (fun _ => rfl) (fun h => by rw [show o.lit = none from noLit (i := .vamp o) rfl hw rfl] at h; cases h) rfl hw he
theorem rayl (o) : Statement (.rayl o) := fun hw _ he =>
  roundTrip_ext rfl (by decide) rfl (fun _ => rfl) (fun h => by rw [show o.lit = none from noLit (i := .rayl o) rfl hw rfl] at h; cases h) rfl hw he
theorem rayq (o) : Statement (.rayq o) := fun hw _ he =>
  roundTrip_ext rfl (by decide) rfl (fun _ => rfl) (fun h => by rw [show o.lit = none from noLit (i := .rayq o) rfl hw rfl] at h; cases h) rfl hw he
theorem sample (o) : Statement (.sample o) := fun hw _ he =>
  roundTrip_ext rfl (by decide) rfl (fun _ => rfl) (fun h => by rw [show o.lit = none from noLit (i := .sample o) rfl hw rfl] at h; cases h) rfl hw he
theorem samplev (o) : Statement (.samplev o) := fun hw _ he =>
  roundTrip_ext rfl (by decide) rfl (fun _ => rfl) (fun h => by rw [show o.lit = none from noLit (i := .samplev o) rfl hw rfl] at h; cases h) rfl hw he
theorem tilebind (o) : Statement (.tilebind o) := fun hw _ he =>
  roundTrip_ext rfl (by decide) rfl (fun _ => rfl) (fun h => by rw [show o.lit = none from noLit (i := .tilebind o) rfl hw rfl] at h; cases h) rfl hw he
theorem tiledone (o) : Statement (.tiledone o) := fun hw _ he =>
  roundTrip_ext rfl (by decide) rfl (fun _ => rfl) (fun h => by rw [show o.lit = none from noLit (i := .tiledone o) rfl hw rfl] at h; cases h) rfl hw he
theorem tilerel (o) : Statement (.tilerel o) := fun hw _ he =>
  roundTrip_ext rfl (by decide) rfl (fun _ => rfl) (fun h => by rw [show o.lit = none from noLit (i := .tilerel o) rfl hw rfl] at h; cases h) rfl hw he
theorem emitShort (o) : Statement (.emitShort o) := fun hw _ he =>
  roundTrip_sub rfl (by decide) rfl rfl (fun h => by rw [show o.lit = none from noLit (i := .emitShort o) rfl hw rfl] at h; cases h) rfl rfl (zeroB hw rfl rfl) hw he
theorem emit (o) : Statement (.emit o) := fun hw _ he =>
  roundTrip_ext rfl (by decide) rfl (fun _ => rfl) (fun h => by rw [show o.lit = none from noLit (i := .emit o) rfl hw rfl] at h; cases h) rfl hw he
theorem emitqShort (o) : Statement (.emitqShort o) := fun hw _ he =>
  roundTrip_sub rfl (by decide) rfl rfl (fun h => by rw [show o.lit = none from noLit (i := .emitqShort o) rfl hw rfl] at h; cases h) rfl rfl (zeroB hw rfl rfl) hw he
theorem emitq (o) : Statement (.emitq o) := fun hw _ he =>
  roundTrip_ext rfl (by decide) rfl (fun _ => rfl) (fun h => by rw [show o.lit = none from noLit (i := .emitq o) rfl hw rfl] at h; cases h) rfl hw he
theorem launchShort (o) : Statement (.launchShort o) := fun hw _ he =>
  roundTrip_sub rfl (by decide) rfl rfl (fun h => by rw [show o.lit = none from noLit (i := .launchShort o) rfl hw rfl] at h; cases h) rfl rfl (zeroB hw rfl rfl) hw he
theorem launch (o) : Statement (.launch o) := fun hw _ he =>
  roundTrip_ext rfl (by decide) rfl (fun _ => rfl) (fun h => by rw [show o.lit = none from noLit (i := .launch o) rfl hw rfl] at h; cases h) rfl hw he
theorem spliceShort (o) : Statement (.spliceShort o) := fun hw _ he =>
  roundTrip_sub rfl (by decide) rfl rfl (fun h => by rw [show o.lit = none from noLit (i := .spliceShort o) rfl hw rfl] at h; cases h) rfl rfl (zeroB hw rfl rfl) hw he
theorem splice (o) : Statement (.splice o) := fun hw _ he =>
  roundTrip_ext rfl (by decide) rfl (fun _ => rfl) (fun h => by rw [show o.lit = none from noLit (i := .splice o) rfl hw rfl] at h; cases h) rfl hw he
theorem spliceRelShort (o) : Statement (.spliceRelShort o) := fun hw _ he =>
  roundTrip_sub rfl (by decide) rfl rfl (fun h => by rw [show o.lit = none from noLit (i := .spliceRelShort o) rfl hw rfl] at h; cases h) rfl rfl (zeroB hw rfl rfl) hw he
theorem spliceRel (o) : Statement (.spliceRel o) := fun hw _ he =>
  roundTrip_ext rfl (by decide) rfl (fun _ => rfl) (fun h => by rw [show o.lit = none from noLit (i := .spliceRel o) rfl hw rfl] at h; cases h) rfl hw he
theorem trapShort (o) : Statement (.trapShort o) := fun hw _ he =>
  roundTrip_sub rfl (by decide) rfl rfl (fun h => by rw [show o.lit = none from noLit (i := .trapShort o) rfl hw rfl] at h; cases h) rfl rfl (zeroB hw rfl rfl) hw he
theorem trap (o) : Statement (.trap o) := fun hw _ he =>
  roundTrip_ext rfl (by decide) rfl (fun _ => rfl) (fun h => by rw [show o.lit = none from noLit (i := .trap o) rfl hw rfl] at h; cases h) rfl hw he
theorem bkptShort (o) : Statement (.bkptShort o) := fun hw _ he =>
  roundTrip_sub rfl (by decide) rfl rfl (fun h => by rw [show o.lit = none from noLit (i := .bkptShort o) rfl hw rfl] at h; cases h) rfl rfl (zeroB hw rfl rfl) hw he
theorem bkpt (o) : Statement (.bkpt o) := fun hw _ he =>
  roundTrip_ext rfl (by decide) rfl (fun _ => rfl) (fun h => by rw [show o.lit = none from noLit (i := .bkpt o) rfl hw rfl] at h; cases h) rfl hw he
theorem icinvShort (o) : Statement (.icinvShort o) := fun hw _ he =>
  roundTrip_sub rfl (by decide) rfl rfl (fun h => by rw [show o.lit = none from noLit (i := .icinvShort o) rfl hw rfl] at h; cases h) rfl rfl (zeroB hw rfl rfl) hw he
theorem icinv (o) : Statement (.icinv o) := fun hw _ he =>
  roundTrip_ext rfl (by decide) rfl (fun _ => rfl) (fun h => by rw [show o.lit = none from noLit (i := .icinv o) rfl hw rfl] at h; cases h) rfl hw he
theorem timeShort (o) : Statement (.timeShort o) := fun hw _ he =>
  roundTrip_sub rfl (by decide) rfl rfl (fun h => by rw [show o.lit = none from noLit (i := .timeShort o) rfl hw rfl] at h; cases h) rfl rfl (zeroB hw rfl rfl) hw he
theorem time (o) : Statement (.time o) := fun hw _ he =>
  roundTrip_ext rfl (by decide) rfl (fun _ => rfl) (fun h => by rw [show o.lit = none from noLit (i := .time o) rfl hw rfl] at h; cases h) rfl hw he
theorem perfShort (o) : Statement (.perfShort o) := fun hw _ he =>
  roundTrip_sub rfl (by decide) rfl rfl (fun h => by rw [show o.lit = none from noLit (i := .perfShort o) rfl hw rfl] at h; cases h) rfl rfl (zeroB hw rfl rfl) hw he
theorem perf (o) : Statement (.perf o) := fun hw _ he =>
  roundTrip_ext rfl (by decide) rfl (fun _ => rfl) (fun h => by rw [show o.lit = none from noLit (i := .perf o) rfl hw rfl] at h; cases h) rfl hw he
theorem rdsrShort (o) : Statement (.rdsrShort o) := fun hw _ he =>
  roundTrip_short rfl (by decide) rfl rfl (fun h => by rw [show o.lit = none from noLit (i := .rdsrShort o) rfl hw rfl] at h; cases h) rfl hw he
theorem rdsr (o) : Statement (.rdsr o) := fun hw _ he =>
  roundTrip_ext rfl (by decide) rfl (fun _ => rfl) (fun h => by rw [show o.lit = none from noLit (i := .rdsr o) rfl hw rfl] at h; cases h) rfl hw he
theorem wrsrShort (o) : Statement (.wrsrShort o) := fun hw _ he =>
  roundTrip_short rfl (by decide) rfl rfl (fun h => by rw [show o.lit = none from noLit (i := .wrsrShort o) rfl hw rfl] at h; cases h) rfl hw he
theorem wrsr (o) : Statement (.wrsr o) := fun hw _ he =>
  roundTrip_ext rfl (by decide) rfl (fun _ => rfl) (fun h => by rw [show o.lit = none from noLit (i := .wrsr o) rfl hw rfl] at h; cases h) rfl hw he
theorem mflagShort (o) : Statement (.mflagShort o) := fun hw _ he =>
  roundTrip_short rfl (by decide) rfl rfl (fun h => by rw [show o.lit = none from noLit (i := .mflagShort o) rfl hw rfl] at h; cases h) rfl hw he
theorem mflag (o) : Statement (.mflag o) := fun hw _ he =>
  roundTrip_ext rfl (by decide) rfl (fun _ => rfl) (fun h => by rw [show o.lit = none from noLit (i := .mflag o) rfl hw rfl] at h; cases h) rfl hw he
theorem wayIssueSelect (a b) : Statement (.wayIssueSelect a b) := never rfl
theorem fragmentPromote (a b) : Statement (.fragmentPromote a b) := never rfl
theorem divergenceMeetingComplete (a b) : Statement (.divergenceMeetingComplete a b) := never rfl
theorem memberArrivalComplete (a b) : Statement (.memberArrivalComplete a b) := never rfl
theorem xchPair (a b) : Statement (.xchPair a b) := never rfl
theorem mmaJForm (a b) : Statement (.mmaJForm a b) := never rfl
theorem qpushEnter (a b) : Statement (.qpushEnter a b) := never rfl
theorem qpopUnblock (a b) : Statement (.qpopUnblock a b) := never rfl
theorem barrierWaitRelease (a b) : Statement (.barrierWaitRelease a b) := never rfl
theorem waitcReactivate (a b) : Statement (.waitcReactivate a b) := never rfl
theorem publishReserve (a b) : Statement (.publishReserve a b) := never rfl
theorem subscribeCloseComplete (a b) : Statement (.subscribeCloseComplete a b) := never rfl
theorem tilebindProceed (a b) : Statement (.tilebindProceed a b) := never rfl
theorem spliceMeetingComplete (a) : Statement (.spliceMeetingComplete a) := never rfl
theorem spliceDrainDone (a) : Statement (.spliceDrainDone a) := never rfl
theorem spliceGrowthRetry (a) : Statement (.spliceGrowthRetry a) := never rfl
theorem copy (a) : Statement (.copy a) := never rfl
theorem copy2d (a) : Statement (.copy2d a) := never rfl
theorem copy3d (a) : Statement (.copy3d a) := never rfl
theorem mcast (a) : Statement (.mcast a) := never rfl
theorem publishCommand (a) : Statement (.publishCommand a) := never rfl
theorem migrate (a) : Statement (.migrate a) := never rfl
theorem migrateCopy (a b) : Statement (.migrateCopy a b) := never rfl
theorem matrixCommand (a) : Statement (.matrixCommand a) := never rfl
theorem snubInjectionGrant (a) : Statement (.snubInjectionGrant a) := never rfl
theorem snubWindowBoundary (a) : Statement (.snubWindowBoundary a) := never rfl
theorem engineCommandComplete (a b) : Statement (.engineCommandComplete a b) := never rfl
theorem meshletRaster (a b) : Statement (.meshletRaster a b) := never rfl
theorem rayRequestTrace (a b) : Statement (.rayRequestTrace a b) := never rfl
theorem intersectionRequestComplete (a b) : Statement (.intersectionRequestComplete a b) := never rfl
theorem rayqTraceDone (a b) : Statement (.rayqTraceDone a b) := never rfl
theorem translationWalk (a b c) : Statement (.translationWalk a b c) := never rfl
theorem homeAccessPerform (a) : Statement (.homeAccessPerform a) := never rfl
theorem scTicketGrant : Statement (.scTicketGrant) := never rfl
theorem loadReturn (a b) : Statement (.loadReturn a b) := never rfl
theorem writeBufferDrain (a) : Statement (.writeBufferDrain a) := never rfl
theorem invalidationProbe (a) : Statement (.invalidationProbe a) := never rfl
theorem sliceFill (a b) : Statement (.sliceFill a b) := never rfl
theorem hotCounterIncrement (a) : Statement (.hotCounterIncrement a) := never rfl
theorem blockDecodeComplete (a b) : Statement (.blockDecodeComplete a b) := never rfl
theorem tokenBucketAdmit (a) : Statement (.tokenBucketAdmit a) := never rfl
theorem viInval (a b) : Statement (.viInval a b) := never rfl
theorem viInvalComplete (a) : Statement (.viInvalComplete a) := never rfl
theorem hotHalve (a) : Statement (.hotHalve a) := never rfl
theorem hotHalveDone : Statement (.hotHalveDone) := never rfl
theorem stSplitWrite (a b) : Statement (.stSplitWrite a b) := never rfl
theorem partGeomWrite (a b) : Statement (.partGeomWrite a b) := never rfl
theorem partGeomApplyDone (a) : Statement (.partGeomApplyDone a) := never rfl
theorem viPrangeWrite (a b c d) : Statement (.viPrangeWrite a b c d) := never rfl
theorem viCfgWrite (a b) : Statement (.viCfgWrite a b) := never rfl
theorem tbWrite (a b) : Statement (.tbWrite a b) := never rfl
theorem lqCfgWrite (a b) : Statement (.lqCfgWrite a b) := never rfl
theorem lqTailWrite (a b) : Statement (.lqTailWrite a b) := never rfl
theorem launchRecordConsume (a) : Statement (.launchRecordConsume a) := never rfl
theorem gridAccept (a) : Statement (.gridAccept a) := never rfl
theorem teamPlace (a) : Statement (.teamPlace a) := never rfl
theorem eviction (a) : Statement (.eviction a) := never rfl
theorem preemptSaveComplete (a) : Statement (.preemptSaveComplete a) := never rfl
theorem teamRetire (a) : Statement (.teamRetire a) := never rfl
theorem graphTeamStart (a b) : Statement (.graphTeamStart a b) := never rfl
theorem stealAttempt (a b) : Statement (.stealAttempt a b) := never rfl
theorem eventRecordWrite (a b) : Statement (.eventRecordWrite a b) := never rfl
theorem eventRingCountInterrupt (a b) : Statement (.eventRingCountInterrupt a b) := never rfl
theorem eventRingTimeInterrupt (a b) : Statement (.eventRingTimeInterrupt a b) := never rfl
theorem evCfgWrite (a b c) : Statement (.evCfgWrite a b c) := never rfl
theorem dispCfgWrite (a b) : Statement (.dispCfgWrite a b) := never rfl
theorem linkTrained (a b c) : Statement (.linkTrained a b c) := never rfl
theorem stripLatch (a b) : Statement (.stripLatch a b) := never rfl
theorem stripDeadline (a b) : Statement (.stripDeadline a b) := never rfl
theorem serialiserTileRead (a b) : Statement (.serialiserTileRead a b) := never rfl
theorem gazeMailboxWrite (a b c) : Statement (.gazeMailboxWrite a b c) := never rfl
theorem governorTick (a) : Statement (.governorTick a) := never rfl
theorem nearThresholdEnter (a b) : Statement (.nearThresholdEnter a b) := never rfl
theorem watchdog (a b) : Statement (.watchdog a b) := never rfl
theorem coreDbgHalt (a b) : Statement (.coreDbgHalt a b) := never rfl
theorem coreDbgResume (a b) : Statement (.coreDbgResume a b) := never rfl
theorem hostMemoryAccess (a b c d) : Statement (.hostMemoryAccess a b c d) := never rfl
theorem peerTailWrite (a b) : Statement (.peerTailWrite a b) := never rfl
theorem peerCopyComplete (a b c) : Statement (.peerCopyComplete a b c) := never rfl
theorem peerRequest (a b c d) : Statement (.peerRequest a b c d) := never rfl
theorem regRd : Statement (.regRd) := never rfl
theorem regWr : Statement (.regWr) := never rfl
theorem keyLoad : Statement (.keyLoad) := never rfl
theorem keyEmpty : Statement (.keyEmpty) := never rfl
theorem keyEmptyDone (a) : Statement (.keyEmptyDone a) := never rfl
theorem attest : Statement (.attest) := never rfl
theorem attestKeys : Statement (.attestKeys) := never rfl
theorem dbgRd : Statement (.dbgRd) := never rfl
theorem dbgWr : Statement (.dbgWr) := never rfl
theorem fwUpdate : Statement (.fwUpdate) := never rfl
theorem peerBind : Statement (.peerBind) := never rfl
theorem ngkUnassignedCommand : Statement (.ngkUnassignedCommand) := never rfl
theorem moduleReset : Statement (.moduleReset) := never rfl
theorem romImageVerify : Statement (.romImageVerify) := never rfl
theorem fwBringupComplete (a b) : Statement (.fwBringupComplete a b) := never rfl
theorem registerWrite (a b c) : Statement (.registerWrite a b c) := never rfl
theorem softError (a b) : Statement (.softError a b) := never rfl
theorem linkLost (a) : Statement (.linkLost a) := never rfl
theorem peerRemoteBind (a) : Statement (.peerRemoteBind a) := never rfl

end Sys2Proof.Laws.RoundTrip
end

