-- ==== Sys2Proof/Laws/Turn.lean ====
section
/-! SUPPORT. The turn of the internal agents, and the boundary before an instruction, keep memory in its
canonical form. -/

namespace Sys2Proof.Machine

theorem take_keeps {m : Move} (hm : Keeps m) {s : State} (h : Memory.wf s.mem = true) :
    Memory.wf (s.take m).mem = true := by
  unfold State.take
  split
  · next t ht => exact hm s t h ht
  · exact h

theorem takeAll_keeps {l : List Move} (hl : ∀ m ∈ l, Keeps m) {s : State} (h : Memory.wf s.mem = true) :
    Memory.wf (s.takeAll l).mem = true := by
  unfold State.takeAll
  induction l generalizing s with
  | nil => exact h
  | cons m r ih =>
    exact ih (fun m' hm' => hl m' (List.mem_cons_of_mem _ hm')) (take_keeps (hl m List.mem_cons_self) h)

theorem placeAll_wf (n p : Nat) {s : State} (h : Memory.wf s.mem = true) : Memory.wf (s.placeAll n p).mem = true := by
  induction n generalizing s with
  | zero => exact h
  | succ n ih =>
    unfold State.placeAll
    simp only
    cases s.graphFirst p with
    | some c =>
      simp only
      split
      · exact take_keeps (event_keeps _) h
      · exact ih (take_keeps (event_keeps _) h)
    | none =>
      simp only
      split
      · exact take_keeps (event_keeps _) h
      · exact ih (take_keeps (event_keeps _) h)

theorem keep_append {a b : List Move} (ha : ∀ m ∈ a, Keeps m) (hb : ∀ m ∈ b, Keeps m) : ∀ m ∈ a ++ b, Keeps m := by
  intro m hm; exact (List.mem_append.1 hm).elim (ha m) (hb m)

theorem keep_map {α : Type} {l : List α} {f : α → Move} (h : ∀ a, Keeps (f a)) : ∀ m ∈ l.map f, Keeps m := by
  intro m hm; obtain ⟨a, _, rfl⟩ := List.mem_map.1 hm; exact h a

theorem keep_flatMap {α : Type} {l : List α} {f : α → List Move} (h : ∀ a, ∀ m ∈ f a, Keeps m) :
    ∀ m ∈ l.flatMap f, Keeps m := by
  intro m hm; obtain ⟨a, _, hm⟩ := List.mem_flatMap.1 hm; exact h a m hm

theorem keep_ite {p : Prop} [Decidable p] {a b : List Move} (ha : ∀ m ∈ a, Keeps m) (hb : ∀ m ∈ b, Keeps m) :
    ∀ m ∈ (if p then a else b), Keeps m := by
  split
  · exact ha
  · exact hb

theorem keep_nil : ∀ m ∈ ([] : List Move), Keeps m := by intro m hm; cases hm

theorem keep_cons {x : Move} {l : List Move} (hx : Keeps x) (hl : ∀ m ∈ l, Keeps m) : ∀ m ∈ x :: l, Keeps m := by
  intro m hm
  rcases List.mem_cons.1 hm with rfl | hm
  · exact hx
  · exact hl m hm

theorem keep_place (n : Nat) : Keeps (fun s => .next (s.gridParts.foldl (fun s p => (s.placeAll n p).take (execEviction p)) s)) := by
  intro s t hw h
  rw [← Host.Outcome.next.inj h]
  have hl : ∀ (l : List Nat) (u : State), Memory.wf u.mem = true →
      Memory.wf (l.foldl (fun s p => (s.placeAll n p).take (execEviction p)) u).mem = true := by
    intro l
    induction l with
    | nil => intro u hu; exact hu
    | cons p r ih => intro u hu; exact ih _ (take_keeps (event_keeps _) (placeAll_wf n p hu))
  exact hl _ _ hw

theorem tryWay_mem (s : State) (c w : Nat) : (s.tryWay c w).mem = s.mem := by
  unfold State.tryWay
  simp only
  split
  · rfl
  · generalize (List.filter _ _ : List (Team × Frag)) = l
    have h : ∀ (l : List (Team × Frag)) (u : State), (l.foldl (fun u c =>
        u.modTeam c.1.id (fun t => match t.frag? c.2.id with
          | some f => t.setFrag { f with blocked := true } | none => t)) u).mem = u.mem := by
      intro l
      induction l with
      | nil => intro u; rfl
      | cons a r ih => intro u; rw [List.foldl_cons, ih, State.modTeam_mem]
    exact h l s

theorem admitMoves_keep (s : State) : ∀ m ∈ s.admitMoves, Keeps m := keep_map fun _ => event_keeps _

theorem clkMoves_keep (s : State) : ∀ m ∈ s.clkMoves, Keeps m :=
  keep_append (keep_append (keep_append (keep_append (keep_append (keep_append (keep_append (keep_append (keep_append (keep_flatMap fun _ => keep_map fun _ => event_keeps _)
    (keep_map fun _ => event_keeps _))
    (keep_map fun _ => event_keeps _))
    (keep_cons (event_keeps _) keep_nil))
    (keep_ite (admitMoves_keep s) keep_nil))
    (keep_ite (keep_cons (event_keeps _) keep_nil) keep_nil))
    (keep_flatMap fun _ => keep_map fun _ => event_keeps _))
    (keep_flatMap fun _ => keep_map fun _ => event_keeps _))
    (keep_flatMap fun _ => keep_map fun _ => event_keeps _))
    (keep_flatMap fun _ => keep_map fun _ => event_keeps _)

theorem teamMoves_keep (t : Team) : ∀ m ∈ teamMoves t, Keeps m :=
  keep_append (keep_append (keep_append (keep_append (keep_append (keep_append (keep_flatMap fun _ => keep_cons (event_keeps _) (keep_cons (event_keeps _) (keep_cons (event_keeps _) keep_nil)))
    (keep_flatMap fun _ => keep_cons (event_keeps _) (keep_cons (event_keeps _) (keep_cons (event_keeps _) (keep_cons (event_keeps _) (keep_cons (event_keeps _) (keep_cons (event_keeps _) (keep_cons (event_keeps _) (keep_cons (event_keeps _) keep_nil)))))))))
    (keep_cons (event_keeps _) (keep_cons (event_keeps _) (keep_cons (event_keeps _) keep_nil))))
    (keep_flatMap fun _ => keep_cons (event_keeps _) (keep_cons (event_keeps _) keep_nil)))
    (keep_map fun _ => event_keeps _))
    (keep_map fun _ => event_keeps _))
    (keep_cons (event_keeps _) (keep_cons (event_keeps _) (keep_cons (event_keeps _) keep_nil)))

theorem coreMoves_keep (c : Nat) (k : Core) : ∀ m ∈ coreMoves c k, Keeps m :=
  keep_append (keep_append (keep_append (keep_append (keep_append (keep_append (keep_cons (event_keeps _) (keep_cons (event_keeps _) keep_nil))
    (keep_ite keep_nil (keep_cons (event_keeps _) keep_nil)))
    (keep_ite keep_nil (keep_cons (event_keeps _) (keep_cons (event_keeps _) (keep_cons (event_keeps _) (keep_cons (event_keeps _) (keep_cons (event_keeps _) (keep_cons (event_keeps _) keep_nil))))))))
    (keep_map fun _ => event_keeps _))
    (keep_map fun _ => event_keeps _))
    (keep_map fun _ => event_keeps _))
    (keep_map fun _ => event_keeps _)

theorem loadMoves_keep (s : State) : ∀ m ∈ s.loadMoves, Keeps m := keep_ite (keep_flatMap fun _ => keep_map fun _ => event_keeps _) keep_nil

theorem memMoves_keep (s : State) : ∀ m ∈ s.memMoves, Keeps m :=
  keep_append (keep_append (keep_append (keep_append (keep_append (keep_append (keep_map fun _ => event_keeps _)
    (keep_map fun _ => event_keeps _))
    (keep_map fun _ => event_keeps _))
    (keep_map fun _ => event_keeps _))
    (keep_map fun _ => event_keeps _))
    (keep_ite (keep_cons (event_keeps _) keep_nil) keep_nil))
    (keep_map fun _ => event_keeps _)

theorem launchMoves_keep (s : State) : ∀ m ∈ s.launchMoves, Keeps m :=
  keep_append (keep_append (keep_flatMap fun _ => keep_cons (event_keeps _) (keep_cons (event_keeps _) keep_nil))
    (keep_cons (keep_place _) keep_nil))
    (keep_flatMap fun _ => keep_ite (keep_map fun _ => event_keeps _) keep_nil)

theorem eventMoves_keep (s : State) : ∀ m ∈ s.eventMoves, Keeps m :=
  keep_flatMap fun _ => keep_append (keep_flatMap fun _ => keep_cons (event_keeps _) (keep_cons (event_keeps _) keep_nil))
    (keep_flatMap fun _ => keep_cons (event_keeps _) (keep_cons (event_keeps _) keep_nil))

theorem keep_events : Keeps (fun s => .next (s.takeAll s.eventMoves)) := by
  intro s t hw h
  rw [← Host.Outcome.next.inj h]
  exact takeAll_keeps (eventMoves_keep s) hw

theorem ngkMoves_keep (s : State) : ∀ m ∈ s.ngkMoves, Keeps m :=
  keep_append (keep_append (keep_ite (keep_cons (event_keeps _) keep_nil) keep_nil)
    (keep_ite (keep_cons (event_keeps _) (keep_cons (event_keeps _) (keep_cons (event_keeps _) (keep_cons (event_keeps _) (keep_cons (event_keeps _) (keep_cons (event_keeps _) (keep_cons (event_keeps _) (keep_cons (event_keeps _) (keep_cons (event_keeps _) (keep_cons (event_keeps _) (keep_cons (event_keeps _) keep_nil))))))))))) keep_nil))
    (keep_map fun _ => event_keeps _)

theorem agentMoves_keep (s : State) : ∀ m ∈ s.agentMoves, Keeps m :=
  keep_append (keep_append (keep_append (keep_append (keep_append (keep_append (keep_append (keep_append
    (keep_ite keep_nil (admitMoves_keep s))
    (keep_flatMap fun _ => teamMoves_keep _))
    (keep_flatMap fun _ => coreMoves_keep _ _))
    (loadMoves_keep s))
    (memMoves_keep s))
    (keep_map fun _ => event_keeps _))
    (ngkMoves_keep s))
    (launchMoves_keep s))
    (keep_cons keep_events keep_nil)

/-- The turn of the internal agents keeps the canonical form of memory. -/
theorem turn_wf {s : State} (h : Memory.wf s.mem = true) : Memory.wf s.turn.mem = true := by
  unfold State.turn
  split
  · exact takeAll_keeps (clkMoves_keep s) h
  · split
    · exact take_keeps (event_keeps _) (by rw [tryWay_mem]; exact h)
    · exact h
  · exact Memory.wf_commit _ (takeAll_keeps (agentMoves_keep s) h)

/-- The state that the boundary before an instruction leaves. -/
def Front.after : Front → State
  | .stop s => s
  | .run _ s => s

/-- The boundary before an instruction changes memory only by the writes it performs, and neither the hub nor
the clock. -/
theorem front_sealed (s : State) (c : Issuer) :
    (∃ o, (s.front c).after.mem = Memory.commit s.mem o) ∧ (s.front c).after.out = [] ∧
      (s.front c).after.hub = s.hub ∧ (s.front c).after.clock = s.clock := by
  unfold State.front
  simp only
  split
  · exact ⟨⟨[], rfl⟩, rfl, rfl, rfl⟩
  · split
    · exact ⟨⟨[], rfl⟩, rfl, rfl, rfl⟩
    · split
      · exact ⟨⟨[], rfl⟩, rfl, rfl, rfl⟩
      · split
        · exact ⟨⟨_, rfl⟩, rfl, rfl, rfl⟩
        · split
          · exact ⟨⟨_, rfl⟩, rfl, rfl, rfl⟩
          · generalize State.fetchInstr _ _ _ = r
            obtain ⟨a, u⟩ := r
            cases a with
            | hold => exact ⟨⟨_, rfl⟩, rfl, rfl, rfl⟩
            | fault d => exact ⟨⟨_, rfl⟩, rfl, rfl, rfl⟩
            | ok ws =>
              simp only
              split
              · exact ⟨⟨_, rfl⟩, rfl, rfl, rfl⟩
              · exact ⟨⟨_, rfl⟩, rfl, rfl, rfl⟩

end Sys2Proof.Machine
end

