-- ==== Sys2Proof/Tests/Slice0.lean ====
section
/-! SUPPORT. The model's own tests: words of the spec and what they decode to, ill-formed terms that the checks refuse,
single steps of instructions, and for every obligation a state and operands that meet its hypotheses. -/

set_option Elab.async false

namespace Sys2Proof.Tests

open Sys2Proof.Machine Sys2Proof.Safety Sys2Proof.Claims

/-! ### Decoding -/

/-- A short form. -/
def sOps (d a b : Nat) : SOps :=
  { sw := false, lit := none, d := BitVec.ofNat 8 d, a := BitVec.ofNat 8 a, b := BitVec.ofNat 6 b }

/-- An extended form of vector operands. -/
def xOps (d a b c : Nat) (ty : Ty) (w3 : Nat) : XOps :=
  { sw := false, lit := none, d := BitVec.ofNat 8 d, a := BitVec.ofNat 8 a, b := BitVec.ofNat 8 b,
    c := BitVec.ofNat 8 c, pred := 0, pneg := false, ka := .vec, kb := .vec, kc := .vec, ty := ty, edge := .zero,
    w3 := BitVec.ofNat 32 w3 }

/-- The words decode to the instruction. -/
def reads (e : List Word × Instr) : Bool :=
  match decodeList e.1 with
  | .ok i => decide (i = e.2)
  | .error _ => false

/-- Words of R264 to R266, with what they stand for. -/
def wordsInteger0 : List (List Word × Instr) :=
  [([0x10281808], .iaddShort (sOps 6 10 4)),
   ([0x28180a, 0xc000004, 0x0], .iadd (xOps 6 10 4 0 .s32 0)),
   ([0x10281810], .isubShort (sOps 6 10 4)),
   ([0x281812, 0xc000004, 0x0], .isub (xOps 6 10 4 0 .s32 0)),
   ([0x10281818], .imulShort (sOps 6 10 4)),
   ([0x28181a, 0xc000004, 0x0], .imul (xOps 6 10 4 0 .s32 0)),
   ([0x10281820], .imulhShort (sOps 6 10 4)),
   ([0x281822, 0xc000004, 0x0], .imulh (xOps 6 10 4 0 .s32 0)),
   ([0x28182a, 0xc000e04, 0x0], .imad (xOps 6 10 4 14 .s32 0)),
   ([0x281832, 0xc000e04, 0x0], .imadw (xOps 6 10 4 14 .s32 0)),
   ([0x10281838], .idivShort (sOps 6 10 4)),
   ([0x28183a, 0xc000004, 0x0], .idiv (xOps 6 10 4 0 .s32 0)),
   ([0x10281840], .iminShort (sOps 6 10 4)),
   ([0x281842, 0xc000004, 0x0], .imin (xOps 6 10 4 0 .s32 0)),
   ([0x10281848], .imaxShort (sOps 6 10 4)),
   ([0x28184a, 0xc000004, 0x0], .imax (xOps 6 10 4 0 .s32 0)),
   ([0x281850], .iabsShort (sOps 6 10 0)),
   ([0x281852, 0xc000000, 0x0], .iabs (xOps 6 10 0 0 .s32 0)),
   ([0x4281850], .inegShort (sOps 6 10 0)),
   ([0x4281852, 0xc000000, 0x0], .ineg (xOps 6 10 0 0 .s32 0)),
   ([0x8281850], .notShort (sOps 6 10 0)),
   ([0x8281852, 0xc000000, 0x0], .not (xOps 6 10 0 0 .s32 0)),
   ([0xc281850], .popcShort (sOps 6 10 0)),
   ([0xc281852, 0x0, 0x0], .popc (xOps 6 10 0 0 .b32 0)),
   ([0x10281850], .clzShort (sOps 6 10 0)),
   ([0x10281852, 0x0, 0x0], .clz (xOps 6 10 0 0 .b32 0)),
   ([0x14281850], .brevShort (sOps 6 10 0)),
   ([0x14281852, 0x0, 0x0], .brev (xOps 6 10 0 0 .b32 0)),
   ([0x10281858], .andShort (sOps 6 10 4)),
   ([0x28185a, 0xc000004, 0x0], .and (xOps 6 10 4 0 .s32 0)),
   ([0x10281860], .orShort (sOps 6 10 4)),
   ([0x281862, 0xc000004, 0x0], .or (xOps 6 10 4 0 .s32 0))]

theorem test_decode_integer0 : wordsInteger0.all reads = true := by decide

/-- Words of R264 to R266, with what they stand for. -/
def wordsInteger1 : List (List Word × Instr) :=
  [([0x10281868], .xorShort (sOps 6 10 4)),
   ([0x28186a, 0xc000004, 0x0], .xor (xOps 6 10 4 0 .s32 0)),
   ([0x10281870], .andnShort (sOps 6 10 4)),
   ([0x281872, 0xc000004, 0x0], .andn (xOps 6 10 4 0 .s32 0)),
   ([0x10281878], .shlShort (sOps 6 10 4)),
   ([0x28187a, 0xc000004, 0x0], .shl (xOps 6 10 4 0 .s32 0)),
   ([0x10281880], .shrlShort (sOps 6 10 4)),
   ([0x281882, 0xc000004, 0x0], .shrl (xOps 6 10 4 0 .s32 0)),
   ([0x10281888], .shraShort (sOps 6 10 4)),
   ([0x28188a, 0xc000004, 0x0], .shra (xOps 6 10 4 0 .s32 0)),
   ([0x10281890], .rotlShort (sOps 6 10 4)),
   ([0x281892, 0xc000004, 0x0], .rotl (xOps 6 10 4 0 .s32 0)),
   ([0x28189a, 0xc000e04, 0x0], .bfx (xOps 6 10 4 14 .s32 0)),
   ([0x2818a2, 0xe04, 0x0], .bfi (xOps 6 10 4 14 .b32 0)),
   ([0x2818aa, 0xc000004, 0x0], .icmp .eq (xOps 6 10 4 0 .s32 0)),
   ([0x42818aa, 0xc000004, 0x0], .icmp .ne (xOps 6 10 4 0 .s32 0)),
   ([0x82818aa, 0xc000004, 0x0], .icmp .lt (xOps 6 10 4 0 .s32 0)),
   ([0xc2818aa, 0xc000004, 0x0], .icmp .le (xOps 6 10 4 0 .s32 0)),
   ([0x102818aa, 0xc000004, 0x0], .icmp .gt (xOps 6 10 4 0 .s32 0)),
   ([0x142818aa, 0xc000004, 0x0], .icmp .ge (xOps 6 10 4 0 .s32 0)),
   ([0x2818b2, 0xc000e04, 0x0], .isel (xOps 6 10 4 14 .s32 0)),
   ([0x102818b8], .leaShort (sOps 6 10 4)),
   ([0x2818ba, 0xc000004, 0x0], .lea (xOps 6 10 4 0 .s32 0))]

theorem test_decode_integer1 : wordsInteger1.all reads = true := by decide

/-- Words of R264 to R266, with what they stand for. -/
def wordsFloat0 : List (List Word × Instr) :=
  [([0x102818c0], .faddShort (sOps 6 10 4)),
   ([0x2818c2, 0x24000004, 0x0], .fadd (xOps 6 10 4 0 .f32 0)),
   ([0x102818c8], .fsubShort (sOps 6 10 4)),
   ([0x2818ca, 0x24000004, 0x0], .fsub (xOps 6 10 4 0 .f32 0)),
   ([0x102818d0], .fmulShort (sOps 6 10 4)),
   ([0x2818d2, 0x24000004, 0x0], .fmul (xOps 6 10 4 0 .f32 0)),
   ([0x2818da, 0x24000e04, 0x0], .ffma (xOps 6 10 4 14 .f32 0)),
   ([0x102818e0], .fminShort (sOps 6 10 4)),
   ([0x2818e2, 0x24000004, 0x0], .fmin (xOps 6 10 4 0 .f32 0)),
   ([0x102818e8], .fmaxShort (sOps 6 10 4)),
   ([0x2818ea, 0x24000004, 0x0], .fmax (xOps 6 10 4 0 .f32 0)),
   ([0x2818f2, 0x24000004, 0x0], .fcmp .eq (xOps 6 10 4 0 .f32 0)),
   ([0x42818f2, 0x24000004, 0x0], .fcmp .ne (xOps 6 10 4 0 .f32 0)),
   ([0x82818f2, 0x24000004, 0x0], .fcmp .lt (xOps 6 10 4 0 .f32 0)),
   ([0xc2818f2, 0x24000004, 0x0], .fcmp .le (xOps 6 10 4 0 .f32 0)),
   ([0x102818f2, 0x24000004, 0x0], .fcmp .gt (xOps 6 10 4 0 .f32 0)),
   ([0x142818f2, 0x24000004, 0x0], .fcmp .ge (xOps 6 10 4 0 .f32 0)),
   ([0x182818f2, 0x24000004, 0x0], .fcmp .ord (xOps 6 10 4 0 .f32 0)),
   ([0x1c2818f2, 0x24000004, 0x0], .fcmp .uno (xOps 6 10 4 0 .f32 0)),
   ([0x102818f8], .fdivShort (sOps 6 10 4)),
   ([0x2818fa, 0x24000004, 0x0], .fdiv (xOps 6 10 4 0 .f32 0)),
   ([0x281900], .fabsShort (sOps 6 10 0)),
   ([0x281902, 0x24000000, 0x0], .fabs (xOps 6 10 0 0 .f32 0)),
   ([0x4281900], .fnegShort (sOps 6 10 0)),
   ([0x4281902, 0x24000000, 0x0], .fneg (xOps 6 10 0 0 .f32 0)),
   ([0x8281900], .frcpShort (sOps 6 10 0)),
   ([0x8281902, 0x24000000, 0x0], .frcp (xOps 6 10 0 0 .f32 0)),
   ([0xc281900], .frsqShort (sOps 6 10 0)),
   ([0xc281902, 0x24000000, 0x0], .frsq (xOps 6 10 0 0 .f32 0)),
   ([0x10281900], .fsqrtShort (sOps 6 10 0)),
   ([0x10281902, 0x24000000, 0x0], .fsqrt (xOps 6 10 0 0 .f32 0)),
   ([0x14281900], .fexp2Short (sOps 6 10 0))]

theorem test_decode_float0 : wordsFloat0.all reads = true := by decide

/-- Words of R264 to R266, with what they stand for. -/
def wordsFloat1 : List (List Word × Instr) :=
  [([0x14281902, 0x24000000, 0x0], .fexp2 (xOps 6 10 0 0 .f32 0)),
   ([0x18281900], .flog2Short (sOps 6 10 0)),
   ([0x18281902, 0x24000000, 0x0], .flog2 (xOps 6 10 0 0 .f32 0)),
   ([0x1c281900], .fsinShort (sOps 6 10 0)),
   ([0x1c281902, 0x24000000, 0x0], .fsin (xOps 6 10 0 0 .f32 0)),
   ([0x20281900], .fcosShort (sOps 6 10 0)),
   ([0x20281902, 0x24000000, 0x0], .fcos (xOps 6 10 0 0 .f32 0)),
   ([0x24281900], .froundShort (sOps 6 10 0)),
   ([0x24281902, 0x24000000, 0x0], .fround (xOps 6 10 0 0 .f32 0)),
   ([0x28281900], .fclassShort (sOps 6 10 0)),
   ([0x28281902, 0x24000000, 0x0], .fclass (xOps 6 10 0 0 .f32 0)),
   ([0x28190a, 0xc000000, 0x3], .cvt (xOps 6 10 0 0 .s32 0x3)),
   ([0x281912, 0x28000e04, 0x0], .hfma2 (xOps 6 10 4 14 .f16 0)),
   ([0x28191a, 0x30000e04, 0x0], .dot4 (xOps 6 10 4 14 .e4m3 0))]

theorem test_decode_float1 : wordsFloat1.all reads = true := by decide

/-- Words of R264 to R266, with what they stand for. -/
def wordsMove0 : List (List Word × Instr) :=
  [([0x281920], .movShort (sOps 6 10 0)),
   ([0x281922, 0x0, 0x0], .mov (xOps 6 10 0 0 .b32 0)),
   ([0x10001928], .moviShort (sOps 6 0 4)),
   ([0x192a, 0x0, 0x0], .movi (xOps 6 0 0 0 .b32 0)),
   ([0x10281930], .bcastShort (sOps 6 10 4)),
   ([0x281932, 0x4, 0x0], .bcast (xOps 6 10 4 0 .b32 0)),
   ([0x28193a, 0x4, 0x0], .shfl .idx (xOps 6 10 4 0 .b32 0)),
   ([0x428193a, 0x4, 0x0], .shfl .up (xOps 6 10 4 0 .b32 0)),
   ([0x828193a, 0x4, 0x0], .shfl .down (xOps 6 10 4 0 .b32 0)),
   ([0xc28193a, 0x4, 0x0], .shfl .xor (xOps 6 10 4 0 .b32 0)),
   ([0x1942, 0x0, 0x0], .vote .any (xOps 6 0 0 0 .b32 0)),
   ([0x4001942, 0x0, 0x0], .vote .all (xOps 6 0 0 0 .b32 0)),
   ([0x8001942, 0x0, 0x0], .vote .ballot (xOps 6 0 0 0 .b32 0)),
   ([0x28194a, 0xc000000, 0x0], .redux .add (xOps 6 10 0 0 .s32 0)),
   ([0x428194a, 0xc000000, 0x0], .redux .min (xOps 6 10 0 0 .s32 0)),
   ([0x828194a, 0xc000000, 0x0], .redux .max (xOps 6 10 0 0 .s32 0)),
   ([0xc28194a, 0xc000000, 0x0], .redux .and (xOps 6 10 0 0 .s32 0)),
   ([0x1028194a, 0xc000000, 0x0], .redux .or (xOps 6 10 0 0 .s32 0)),
   ([0x1428194a, 0xc000000, 0x0], .redux .xor (xOps 6 10 0 0 .s32 0)),
   ([0x281952, 0xc000000, 0x0], .scan .add false (xOps 6 10 0 0 .s32 0)),
   ([0x4281952, 0xc000000, 0x0], .scan .min false (xOps 6 10 0 0 .s32 0)),
   ([0x8281952, 0xc000000, 0x0], .scan .max false (xOps 6 10 0 0 .s32 0)),
   ([0xc281952, 0xc000000, 0x0], .scan .and false (xOps 6 10 0 0 .s32 0)),
   ([0x10281952, 0xc000000, 0x0], .scan .or false (xOps 6 10 0 0 .s32 0)),
   ([0x14281952, 0xc000000, 0x0], .scan .xor false (xOps 6 10 0 0 .s32 0)),
   ([0x80281952, 0xc000000, 0x0], .scan .add true (xOps 6 10 0 0 .s32 0)),
   ([0x84281952, 0xc000000, 0x0], .scan .min true (xOps 6 10 0 0 .s32 0)),
   ([0x88281952, 0xc000000, 0x0], .scan .max true (xOps 6 10 0 0 .s32 0)),
   ([0x8c281952, 0xc000000, 0x0], .scan .and true (xOps 6 10 0 0 .s32 0)),
   ([0x90281952, 0xc000000, 0x0], .scan .or true (xOps 6 10 0 0 .s32 0)),
   ([0x94281952, 0xc000000, 0x0], .scan .xor true (xOps 6 10 0 0 .s32 0)),
   ([0x10281958], .movsShort (sOps 6 10 4))]

theorem test_decode_move0 : wordsMove0.all reads = true := by decide

/-- Words of R264 to R266, with what they stand for. -/
def wordsMove1 : List (List Word × Instr) :=
  [([0x28195a, 0x4, 0x0], .movs (xOps 6 10 4 0 .b32 0))]

theorem test_decode_move1 : wordsMove1.all reads = true := by decide

/-- Words of R264 to R266, with what they stand for. -/
def wordsScalar : List (List Word × Instr) :=
  [([0x281980], .smovShort (sOps 6 10 0)),
   ([0x281982, 0x0, 0x0], .smov (xOps 6 10 0 0 .b32 0)),
   ([0x10001988], .smoviShort (sOps 6 0 4)),
   ([0x198a, 0x0, 0x0], .smovi (xOps 6 0 0 0 .b32 0)),
   ([0x10281990], .saddShort (sOps 6 10 4)),
   ([0x281992, 0xc000004, 0x0], .sadd (xOps 6 10 4 0 .s32 0)),
   ([0x10281998], .ssubShort (sOps 6 10 4)),
   ([0x28199a, 0xc000004, 0x0], .ssub (xOps 6 10 4 0 .s32 0)),
   ([0x102819a0], .smulShort (sOps 6 10 4)),
   ([0x2819a2, 0xc000004, 0x0], .smul (xOps 6 10 4 0 .s32 0)),
   ([0x102819a8], .sandShort (sOps 6 10 4)),
   ([0x2819aa, 0x4, 0x0], .sand (xOps 6 10 4 0 .b32 0)),
   ([0x102819b0], .sorShort (sOps 6 10 4)),
   ([0x2819b2, 0x4, 0x0], .sor (xOps 6 10 4 0 .b32 0)),
   ([0x102819b8], .sxorShort (sOps 6 10 4)),
   ([0x2819ba, 0x4, 0x0], .sxor (xOps 6 10 4 0 .b32 0)),
   ([0x102819c0], .sshlShort (sOps 6 10 4)),
   ([0x2819c2, 0xc000004, 0x0], .sshl (xOps 6 10 4 0 .s32 0)),
   ([0x102819c8], .sshrShort (sOps 6 10 4)),
   ([0x2819ca, 0xc000004, 0x0], .sshr (xOps 6 10 4 0 .s32 0)),
   ([0x2819d2, 0xc000004, 0x0], .scmp .eq (xOps 6 10 4 0 .s32 0)),
   ([0x42819d2, 0xc000004, 0x0], .scmp .ne (xOps 6 10 4 0 .s32 0)),
   ([0x82819d2, 0xc000004, 0x0], .scmp .lt (xOps 6 10 4 0 .s32 0)),
   ([0xc2819d2, 0xc000004, 0x0], .scmp .le (xOps 6 10 4 0 .s32 0)),
   ([0x102819d2, 0xc000004, 0x0], .scmp .gt (xOps 6 10 4 0 .s32 0)),
   ([0x142819d2, 0xc000004, 0x0], .scmp .ge (xOps 6 10 4 0 .s32 0)),
   ([0x2819da, 0xe04, 0x0], .ssel (xOps 6 10 4 14 .b32 0))]

theorem test_decode_scalar : wordsScalar.all reads = true := by decide

/-- Words of R264 to R266, with what they stand for. -/
def wordsControl : List (List Word × Instr) :=
  [([0x202, 0x0, 0x0], .bra (xOps 0 0 0 0 .b32 0)),
   ([0x20b, 0x4, 0x0, 0x24, 0x0], .brd ({ xOps 0 0 4 0 .b32 0 with lit := some 0x24 })),
   ([0x210], .join (sOps 0 0 0)),
   ([0x28021a, 0x0, 0x0], .jmpi (xOps 0 10 0 0 .b32 0)),
   ([0x1a22, 0x0, 0x0], .call (xOps 6 0 0 0 .b32 0)),
   ([0x281a28], .calliShort (sOps 6 10 0)),
   ([0x281a2a, 0x0, 0x0], .calli (xOps 6 10 0 0 .b32 0)),
   ([0x280230], .retShort (sOps 0 10 0)),
   ([0x280232, 0x0, 0x0], .ret (xOps 0 10 0 0 .b32 0)),
   ([0x238], .land (sOps 0 0 0)),
   ([0x240], .exitShort (sOps 0 0 0)),
   ([0x242, 0x0, 0x0], .exit (xOps 0 0 0 0 .b32 0)),
   ([0x1a48], .execrShort (sOps 6 0 0)),
   ([0x1a4a, 0x0, 0x0], .execr (xOps 6 0 0 0 .b32 0)),
   ([0x4280248], .execwShort (sOps 0 10 0)),
   ([0x428024a, 0x0, 0x0], .execw (xOps 0 10 0 0 .b32 0)),
   ([0x250], .nop (sOps 0 0 0)),
   ([0x258], .yield (sOps 0 0 0)),
   ([0x260], .ffence (sOps 0 0 0))]

theorem test_decode_control : wordsControl.all reads = true := by decide

/-- Words of R264 to R266, with what they stand for. -/
def wordsMemory : List (List Word × Instr) :=
  [([0x10281a80], .ldShort (sOps 6 10 4)),
   ([0x281a82, 0xc000000, 0x0], .ld (xOps 6 10 0 0 .s32 0)),
   ([0x10281a88], .stShort (sOps 6 10 4)),
   ([0x281a8a, 0xc000000, 0x0], .st (xOps 6 10 0 0 .s32 0)),
   ([0x10281a90], .lduShort (sOps 6 10 4)),
   ([0x281a92, 0xc000000, 0x0], .ldu (xOps 6 10 0 0 .s32 0)),
   ([0x10280298], .prefShort (sOps 0 10 4)),
   ([0x28029a, 0xc000000, 0x0], .pref (xOps 0 10 0 0 .s32 0)),
   ([0x281aa2, 0x4, 0x0], .ldt (xOps 6 10 4 0 .b32 0)),
   ([0x281aaa, 0x4, 0x0], .stt (xOps 6 10 4 0 .b32 0)),
   ([0x281ab2, 0x0, 0x0], .ldacc (xOps 6 10 0 0 .b32 0)),
   ([0x281aba, 0x0, 0x0], .stacc (xOps 6 10 0 0 .b32 0)),
   ([0x281ac2, 0x0, 0x0], .tlook (xOps 6 10 0 0 .b32 0)),
   ([0x4281ac2, 0x0, 0x0], .tlookClm (xOps 6 10 0 0 .b32 0)),
   ([0x82802c2, 0x4, 0x0], .tfill (xOps 0 10 4 0 .b32 0)),
   ([0xc281ac2, 0x4, 0x0], .tevict (xOps 6 10 4 0 .b32 0)),
   ([0x100002c2, 0x0, 0x0], .tinv (xOps 0 0 0 0 .b32 0)),
   ([0x281aca, 0xc000004, 0x0], .atom (xOps 6 10 4 0 .s32 0)),
   ([0x281ad2, 0xe04, 0x0], .atomcas (xOps 6 10 4 14 .b32 0)),
   ([0x2802da, 0xc000004, 0x0], .red (xOps 0 10 4 0 .s32 0)),
   ([0x2e2, 0x0, 0x13], .fence (xOps 0 0 0 0 .b32 0x13)),
   ([0x2e8], .opfence (sOps 0 0 0))]

theorem test_decode_memory : wordsMemory.all reads = true := by decide

/-- Words of R264 to R266, with what they stand for. -/
def wordsQueue : List (List Word × Instr) :=
  [([0x2f2, 0x0, 0x100], .barinit (xOps 0 0 0 0 .b32 0x100)),
   ([0x1b00], .baraShort (sOps 6 0 0)),
   ([0x1b02, 0x0, 0x0], .bara (xOps 6 0 0 0 .b32 0)),
   ([0x4001b00], .barwShort (sOps 6 0 0)),
   ([0x4001b02, 0x0, 0x0], .barw (xOps 6 0 0 0 .b32 0)),
   ([0x8001b00], .barawShort (sOps 6 0 0)),
   ([0x8001b02, 0x0, 0x0], .baraw (xOps 6 0 0 0 .b32 0)),
   ([0x1b0a, 0x0, 0x0], .waitc (xOps 6 0 0 0 .b32 0)),
   ([0x1b10], .gsetShort (sOps 6 0 0)),
   ([0x1b12, 0x0, 0x0], .gset (xOps 6 0 0 0 .b32 0)),
   ([0x4001b10], .gclrShort (sOps 6 0 0)),
   ([0x4001b12, 0x0, 0x0], .gclr (xOps 6 0 0 0 .b32 0)),
   ([0x281b1a, 0xe04, 0x0], .xch (xOps 6 10 4 14 .b32 0)),
   ([0x320], .qpushShort (sOps 0 0 0)),
   ([0x322, 0x0, 0x0], .qpush (xOps 0 0 0 0 .b32 0)),
   ([0x82328], .qpopShort (sOps 8 2 0)),
   ([0x8232a, 0x0, 0x0], .qpop (xOps 8 2 0 0 .b32 0)),
   ([0x1b30], .qstatShort (sOps 6 0 0)),
   ([0x1b32, 0x0, 0x0], .qstat (xOps 6 0 0 0 .b32 0)),
   ([0x4001b30], .qstatSatShort (sOps 6 0 0)),
   ([0x4001b32, 0x0, 0x0], .qstatSat (xOps 6 0 0 0 .b32 0))]

theorem test_decode_queue : wordsQueue.all reads = true := by decide

/-- Words of R264 to R266, with what they stand for. -/
def wordsMatrix : List (List Word × Instr) :=
  [([0x4c033a, 0x30100000, 0x0], .mldw ({ xOps 0 19 0 0 .e4m3 0 with ka := .scal })),
   ([0x281b40], .mswapShort (sOps 6 10 0)),
   ([0x1b42, 0x0, 0x0], .mswap (xOps 6 0 0 0 .b32 0)),
   ([0x281b4a, 0x30000000, 0x0], .mma (xOps 6 10 0 0 .e4m3 0)),
   ([0x4281b4a, 0x30000004, 0x0], .mmaJ (xOps 6 10 4 0 .e4m3 0)),
   ([0x500352, 0x30500015, 0x0], .mmas ({ xOps 0 20 21 0 .e4m3 0 with ka := .scal, kb := .scal })),
   ([0x281b5a, 0x24000000, 0x0], .mhad (xOps 6 10 0 0 .f32 0)),
   ([0x80362, 0x38400006, 0x0], .mqnt ({ xOps 0 2 6 0 .qn4 0 with kb := .scal })),
   ([0xb6a, 0x0, 0x800000], .accz (xOps 2 0 0 0 .b32 0x800000)),
   ([0x4100b6a, 0x28100000, 0x800000], .acccvt ({ xOps 2 4 0 0 .f16 0x800000 with ka := .scal })),
   ([0x100372, 0x500006, 0x84], .subscribe ({ xOps 0 4 6 0 .b32 0x84 with ka := .scal, kb := .scal })),
   ([0x10037a, 0x1500706, 0x10000], .publish ({ xOps 0 4 6 7 .b32 0x10000 with ka := .scal, kb := .scal, kc := .scal })),
   ([0x3ea, 0x0, 0x3], .mcad (xOps 0 0 0 0 .b32 0x3))]

theorem test_decode_matrix : wordsMatrix.all reads = true := by decide

/-- Words of R264 to R266, with what they stand for. -/
def wordsGraphics : List (List Word × Instr) :=
  [([0x280382, 0x4, 0x0], .vout (xOps 0 10 4 0 .b32 0)),
   ([0x28038a, 0xe04, 0x0], .pout (xOps 0 10 4 14 .b32 0)),
   ([0x280392, 0x0, 0x0], .msetcnt (xOps 0 10 0 0 .b32 0)),
   ([0x28039a, 0x4, 0x203], .vamp (xOps 0 10 4 0 .b32 0x203)),
   ([0x2803a2, 0x4, 0x0], .rayl (xOps 0 10 4 0 .b32 0)),
   ([0x3aa, 0x4, 0x0], .rayq (xOps 0 0 4 0 .b32 0)),
   ([0x2803b2, 0x4, 0x0], .sample (xOps 0 10 4 0 .b32 0)),
   ([0x281bba, 0x4, 0x0], .samplev (xOps 6 10 4 0 .b32 0)),
   ([0x4281bc2, 0x4, 0x0], .tiledone (xOps 6 10 4 0 .b32 0)),
   ([0x80003c2, 0x0, 0x0], .tilerel (xOps 0 0 0 0 .b32 0)),
   ([0x4003c2, 0x1501211, 0x0], .tilebind ({ xOps 0 16 17 18 .b32 0 with ka := .scal, kb := .scal, kc := .scal })),
   ([0x1bf0], .mflagShort (sOps 6 0 0)),
   ([0x1bf2, 0x0, 0x0], .mflag (xOps 6 0 0 0 .b32 0))]

theorem test_decode_graphics : wordsGraphics.all reads = true := by decide

/-- Words of R264 to R266, with what they stand for. -/
def wordsSystem : List (List Word × Instr) :=
  [([0x2803c8], .emitShort (sOps 0 10 0)),
   ([0x2803ca, 0x0, 0x0], .emit (xOps 0 10 0 0 .b32 0)),
   ([0x4281bc8], .emitqShort (sOps 6 10 0)),
   ([0x4281bca, 0x0, 0x0], .emitq (xOps 6 10 0 0 .b32 0)),
   ([0x82803c8], .launchShort (sOps 0 10 0)),
   ([0x82803ca, 0x0, 0x0], .launch (xOps 0 10 0 0 .b32 0)),
   ([0xc001bc8], .spliceShort (sOps 6 0 0)),
   ([0xc001bca, 0x0, 0x0], .splice (xOps 6 0 0 0 .b32 0)),
   ([0x10001bc8], .spliceRelShort (sOps 6 0 0)),
   ([0x10001bca, 0x0, 0x0], .spliceRel (xOps 6 0 0 0 .b32 0)),
   ([0x1bd0], .trapShort (sOps 6 0 0)),
   ([0x1bd2, 0x0, 0x0], .trap (xOps 6 0 0 0 .b32 0)),
   ([0x4001bd0], .bkptShort (sOps 6 0 0)),
   ([0x4001bd2, 0x0, 0x0], .bkpt (xOps 6 0 0 0 .b32 0)),
   ([0x80003d0], .icinvShort (sOps 0 0 0)),
   ([0x80003d2, 0x0, 0x0], .icinv (xOps 0 0 0 0 .b32 0)),
   ([0xc001bd0], .timeShort (sOps 6 0 0)),
   ([0xc001bd2, 0x0, 0x0], .time (xOps 6 0 0 0 .b32 0)),
   ([0x10001bd0], .perfShort (sOps 6 0 0)),
   ([0x10001bd2, 0x0, 0x0], .perf (xOps 6 0 0 0 .b32 0)),
   ([0x281bd8], .rdsrShort (sOps 6 10 0)),
   ([0x281bda, 0x0, 0x0], .rdsr (xOps 6 10 0 0 .b32 0)),
   ([0xc4fe0], .wrsrShort (sOps 19 3 0)),
   ([0xc4fe2, 0x0, 0x0], .wrsr (xOps 19 3 0 0 .b32 0))]

theorem test_decode_system : wordsSystem.all reads = true := by decide

/-- Worked words of the spec (08 An assembled fragment, 10, 11, 12, 13). -/
theorem test_decode_worked : ([
    ([0x001028C2, 0xA46B0007, 0], .fadd
      { xOps 10 4 7 0 .f32 0 with pred := 3, pneg := true, ka := .left, kb := .scal, edge := .wrap }),
    ([0x00103282, 0x20000000, 0x0000080B], .ld (xOps 12 4 0 0 .n64 0x80B)),
    ([0x00200ECA, 0x1C000009, 0x1B], .atom (xOps 3 8 9 0 .n32 0x1B)),
    ([0x0480134A, 0x30000103, 3], .mmaJ (xOps 4 32 3 1 .e4m3 3)),
    ([0x00080F40], .mswapShort (sOps 3 2 0)),
    ([0x04041730], .qstatSatShort (sOps 5 1 0)),
    ([0x001053BA, 0x00400002, 0], .samplev { xOps 20 4 2 0 .b32 0 with kb := .scal }),
    ([0x049C08AA, 0x1C000023, 0], .icmp .ne (xOps 2 39 35 0 .n32 0)),
    ([0x000003EA, 0, 4], .mcad (xOps 0 0 0 0 .b32 4))] : List (List Word × Instr)).all reads = true := by decide

/-- The cause that words meet at decode. -/
def refusal (ws : List Word) : Option Cause :=
  match decodeList ws with
  | .ok _ => none
  | .error c => some c

/-- Words that decode refuses, with the cause that R255 names. -/
theorem test_decode_refuses : ([([0], .illegalOpcode), ([0x17F8], .illegalOpcode), ([0x251, 0, 0], .badLength),
    ([0x04000250], .reservedField),
        ([0x001028C2, 0x3C000007, 0], .reservedField), ([0x001028C2, 0x0C000007, 0], .typeInvalid)] :
    List (List Word × Cause)).all (fun e => refusal e.1 == some e.2) = true := by decide

/-- R254 to R262: an ill-formed term for each check, with the cause it meets. -/
def illFormed : List (Instr × Cause) :=
  [(.nop { sOps 0 0 0 with lit := some 1 }, .badLength),                    -- a literal where none may stand
   (.brd (xOps 0 0 4 0 .b32 0), .badLength),                                -- `BRD` without the offset of its `JOIN`
   (.nop (sOps 0 0 1), .reservedField),                                     -- bits of a short form that must be zero
   (.lea (xOps 5 10 4 0 .s32 0), .reservedField),                           -- a destination pair at an odd register
   (.icmp .eq (xOps 8 10 4 0 .s32 0), .reservedField),                      -- a predicate beyond p7
   (.sadd (xOps 64 0 0 0 .s32 0), .reservedField),                          -- a scalar beyond s63
   (.iadd { xOps 6 10 64 0 .s32 0 with kb := .scal }, .reservedField),      -- a scalar source beyond s63
   (.lea (xOps 6 11 4 0 .s32 0), .reservedField),                           -- a source pair at an odd register
   (.iadd (xOps 6 10 4 1 .s32 0), .reservedField),                          -- a field the form does not use
   (.mldw (xOps 0 19 0 0 .e4m3 0), .reservedField),                         -- a source of a wrong kind
   (.ld { xOps 6 10 0 0 .b32 0 with ka := .left }, .reservedField),         -- a neighbour where none may stand
   (.fence { xOps 0 0 0 0 .b32 0x13 with pred := 1 }, .reservedField),      -- a predicate where none may stand
   (.iadd { xOps 6 10 4 0 .s32 0 with edge := .clamp }, .reservedField),    -- an edge mode without a neighbour
   (.iadd (xOps 6 10 4 0 .s32 1), .reservedField),                          -- a bit of word 3 that must be zero
   (.iadd { xOps 6 10 4 0 .s32 0 with lit := some 1 }, .reservedField),     -- a literal beside the field it replaces
   (.iadd { xOps 6 10 0 0 .s32 0 with lit := some 0x100000000 }, .reservedField),  -- a literal wider than its operand
   (.accz (xOps 2 0 0 0 .b32 0x40010000), .reservedField),                  -- rows past the end of a tile
   (.bra (xOps 0 0 0 0 .b32 2), .reservedField),                            -- an offset that is no multiple of 4
   (.fadd (xOps 6 10 4 0 .s32 0), .typeInvalid)]                            -- a type the instruction does not take

theorem test_illformed : illFormed.all (fun e => formCause e.1 == some e.2) = true := by decide

theorem test_illformed_refused : ∀ e ∈ illFormed, ¬ e.1.WellFormed := by
  intro e he h
  have := List.all_eq_true.mp test_illformed e he
  rw [show formCause e.1 = none from h] at this
  exact absurd this (by simp)

/-! ### States to issue in -/

/-- All lanes. -/
def full : Word := 0xFFFFFFFF

/-- The placed grid with two roles, core 0 and core 1 (R210). -/
def testGrid : Grid := { placedGrid with rc := { placedGrid.rc with nroles := 2 }, roles := [1, 0x101] }

/-- The placed machine with some code and another team in the place of the placed one. -/
def onCode (code : List Word) (t : Team) : State :=
  { State.reset.placed (wordBytes code) with teams := [(2, t)], grids := [(1, testGrid)] }

/-- The machine without code. -/
def on (t : Team) : State := onCode [] t

/-- The placed team with another group. -/
def tg (g : Group) : Team := { placedTeam with groups := [(0, g)] }

/-- The machine in which the placed team is about to issue. -/
def m0 : State := on placedTeam

/-- The conditions of `Issues` that depend on the instruction. -/
def fits (i : Instr) (s : State) (t : Team) (f : Frag) : Bool :=
  (form i).isSome && (fieldCause i f.hm).isNone && (s.liveCause t f i).isNone

theorem issues_of {i : Instr} {s : State} {t : Team} {f : Frag} {g : Group} {m : Word}
    (hc : s.cur = some { team := t.id, frag := f.id }) (ht : s.team? t.id = some t) (hf : t.frag? f.id = some f)
    (hl : f.lanes = [(g.num, m)]) (hm : m ≠ 0) (hg : t.group? g.num = some g) (hp : g.pend = []) (hr : g.regPoison = [])
    (hs : (s.core t.core).dbg.step = false) (h : fits i s t f = true) : Issues i s t f g m := by
  simp only [fits, Bool.and_eq_true, Option.isNone_iff_eq_none] at h
  exact ⟨hc, ht, hf, hl, hm, hg, hp, hr, hs, h.1.1, h.1.2, h.2⟩

/-- Instructions that the placed team may issue. -/
theorem issues_placed {i : Instr} (h : fits i m0 placedTeam placedFrag = true) :
    Issues i m0 placedTeam placedFrag placedGroup full :=
  issues_of rfl rfl rfl rfl (by decide) rfl rfl rfl rfl h

/-- Those of some instructions that meet a condition, none of which the placed team may not issue. -/
theorem issues_each {l : List Instr} {q : Instr → Bool}
    (h : l.all (fun i => fits i m0 placedTeam placedFrag && q i) = true) :
    ∀ i ∈ l, Issues i m0 placedTeam placedFrag placedGroup full ∧ q i = true := by
  intro i hi
  have := List.all_eq_true.mp h i hi
  rw [Bool.and_eq_true] at this
  exact ⟨issues_placed this.1, this.2⟩

/-- The instructions of some words that meet a condition. -/
def pick (l : List (List Word × Instr)) (q : Instr → Bool) : List Instr := (l.map (fun e => e.2)).filter q

/-! ### Lane, floating and scalar instructions -/

/-- What the placed fragment sees. -/
abbrev c0 (i : Instr) : Ctx := ctx i m0 placedTeam placedFrag
/-- And its home group. -/
abbrev gc0 (i : Instr) : GCtx := gctx i placedGroup full

/-- The short-class lane instructions of the tests of decoding. -/
def laneForms : List Instr :=
  pick (wordsInteger0 ++ wordsInteger1 ++ wordsMove0 ++ wordsMove1) (fun i => (laneOf i (c0 i) (gc0 i)).isSome)

theorem witness_lane : laneForms.length = 53 ∧ ∀ i ∈ laneForms,
    Issues i m0 placedTeam placedFrag placedGroup full ∧ (laneOf i (c0 i) (gc0 i)).isSome = true :=
  ⟨by decide, issues_each (by decide)⟩

theorem witness_counters : (pick wordsSystem (fun i => (readOf i m0 (c0 i) (gc0 i)).isSome)).length = 6 ∧
    ∀ i ∈ pick wordsSystem (fun i => (readOf i m0 (c0 i) (gc0 i)).isSome),
      Issues i m0 placedTeam placedFrag placedGroup full ∧ (readOf i m0 (c0 i) (gc0 i)).isSome = true :=
  ⟨by decide, issues_each (by decide)⟩

/-- With no exception enabled nothing traps. -/
theorem untrapped {α : Type} (act : Word) (v : Nat → α × Exc) : Untrapped placedFrag act v := by
  intro l _ _
  show _ &&& fmtEnabled 0 = 0
  rw [show fmtEnabled 0 = 0 by decide]; simp

theorem witness_float : (pick (wordsFloat0 ++ wordsFloat1) (fun i => (floatOf i (c0 i)).isSome)).length = 21 ∧
    ∀ i ∈ pick (wordsFloat0 ++ wordsFloat1) (fun i => (floatOf i (c0 i)).isSome),
      (Issues i m0 placedTeam placedFrag placedGroup full ∧ (floatOf i (c0 i)).isSome = true) ∧
        ∀ v : GCtx → Nat → Word × Exc, Untrapped placedFrag (active i placedGroup full) (v (gc0 i)) :=
  ⟨by decide, fun i hi => ⟨issues_each (q := fun i => (floatOf i (c0 i)).isSome) (by decide) i hi, fun _ => untrapped _ _⟩⟩

theorem witness_long_float : (pick (wordsFloat0 ++ wordsFloat1) (fun i => (longFloatOf i (c0 i)).isSome)).length = 16 ∧
    ∀ i ∈ pick (wordsFloat0 ++ wordsFloat1) (fun i => (longFloatOf i (c0 i)).isSome),
      (Issues i m0 placedTeam placedFrag placedGroup full ∧ (longFloatOf i (c0 i)).isSome = true) ∧
        ∀ v : GCtx → Nat → Word × Exc, Untrapped placedFrag (active i placedGroup full) (v (gc0 i)) :=
  ⟨by decide, fun i hi => ⟨issues_each (q := fun i => (longFloatOf i (c0 i)).isSome) (by decide) i hi, fun _ => untrapped _ _⟩⟩

/-- Comparisons and conversions. -/
def fcmpCvtForms : List Instr := pick (wordsFloat0 ++ wordsFloat1) (fun i => i matches .fcmp _ _ | .cvt _)

theorem witness_comparison_conversion : fcmpCvtForms.length = 9 ∧
    (∀ i ∈ fcmpCvtForms, Issues i m0 placedTeam placedFrag placedGroup full ∧ true = true) ∧
    (∀ act (v : Nat → Bool × Exc), Untrapped placedFrag act v) ∧ ∀ act (v : Nat → Dword × Exc), Untrapped placedFrag act v :=
  ⟨by decide, issues_each (by decide), untrapped, untrapped⟩

/-- The scalar instructions. -/
def scalForms : List Instr :=
  pick (wordsMove0 ++ wordsMove1 ++ wordsScalar) (fun i => (scalOf i (c0 i) (gc0 i)).isSome || i matches .scmp _ _)

theorem witness_scalar : scalForms.length = 29 ∧ ∀ i ∈ scalForms,
    Issues i m0 placedTeam placedFrag placedGroup full ∧
      ((scalOf i (c0 i) (gc0 i)).isSome || i matches .scmp _ _) = true :=
  ⟨by decide, issues_each (by decide)⟩

/-! ### Control flow -/

/-- A group of the placed team of which one lane is enabled. -/
def g1 : Group := { placedGroup with exec := 1 }

/-- The bare instructions of control flow. -/
def bareForms : List Instr := pick wordsControl (fun i => i matches .nop _ | .land _ | .yield _ | .execrShort _ | .execr _
  | .execwShort _ | .execw _ | .exitShort _ | .exit _)

theorem witness_bare : bareForms.length = 9 ∧ placedTeam.regions = [] ∧
    (∀ k ∈ placedTeam.frags, ∀ j arr n, k.st ≠ .held j arr n) ∧
    ∀ i ∈ bareForms, Issues i m0 placedTeam placedFrag placedGroup full ∧ true = true := by
  refine ⟨by decide, rfl, ?_, issues_each (by decide)⟩
  intro k hk j arr n
  rw [List.mem_singleton.mp hk]; exact FState.noConfusion

/-- Code: a landing point at the placed address and after it. -/
def lands : State := onCode [0x238, 0x238, 0x238, 0x238] (tg g1)

/-- A branch under p1, which no lane holds, and one under p0. -/
def braOn (p : BitVec 3) : XOps := { xOps 0 0 0 0 .b32 4 with pred := p }

set_option maxRecDepth 20000 in
theorem witness_branch :
    (Issues (.bra (braOn 1)) lands (tg g1) placedFrag g1 full ∧ ¬ taken (.bra (braOn 1)) g1 full) ∧
    (Issues (.bra (braOn 0)) lands (tg g1) placedFrag g1 full ∧ taken (.bra (braOn 0)) g1 full ∧
      TargetPasses (begins (.bra (braOn 0)) lands (tg g1) placedFrag) (tg g1) placedFrag false false
        (offAddr placedPc (ops (.bra (braOn 0))).w3)) := by
  refine ⟨⟨issues_of rfl rfl rfl rfl (by decide) rfl rfl rfl rfl (by decide), by unfold taken; decide⟩,
    issues_of rfl rfl rfl rfl (by decide) rfl rfl rfl rfl (by decide), by unfold taken; decide,
    by decide, _, Prod.ext (by decide) rfl⟩

/-- A group whose lanes hold the placed address in the pair v10. -/
def gJump : Group := { g1 with regs := [(320, 0x20000)] }

/-- Calls and returns. -/
def callForms : List Instr := pick wordsControl (fun i => i matches .call _ | .calliShort _ | .calli _ | .retShort _ | .ret _)

/-- The call goes to a target that passes its check. -/
def callOk (s : State) (t : Team) (f : Frag) (g : Group) (m : Word) (i : Instr) : Bool :=
  match transferOf i (ctx i s t f) (gctx i g m) with
  | some (_, ind, land, target) => ((begins i s t f).targetBad t.vi t.core f.hm ind land target).1.isNone &&
      !(begins i s t f).targetHeld t.vi f.hm ind target
  | none => false

/-- Code with a landing point, and the team whose lanes name it. -/
def jumps : State := onCode [0x238, 0x238] (tg gJump)

set_option maxRecDepth 20000 in
theorem witness_calls : callForms.length = 5 ∧ ∀ i ∈ callForms,
    Issues i jumps (tg gJump) placedFrag gJump full ∧ callOk jumps (tg gJump) placedFrag gJump full i = true := by
  refine ⟨by decide, fun i hi => ?_⟩
  have h : callForms.all (fun i => fits i jumps (tg gJump) placedFrag && callOk jumps (tg gJump) placedFrag gJump full i)
    = true := by decide
  have := List.all_eq_true.mp h i hi
  rw [Bool.and_eq_true] at this
  exact ⟨issues_of rfl rfl rfl rfl (by decide) rfl rfl rfl rfl this.1, this.2⟩

/-- A team in one region, of whose lanes the fragment carries some. -/
def inRegion (meet arr : Word) (m : Word) : Team :=
  { placedTeam with
    frags := [{ placedFrag with region := some 0, lanes := [(0, m)] }], nextRegion := 1
    regions := [{ id := 0, jaddr := placedPc, paths := 2, kind := false, parent := none, ppath := 0, fmts := [(0, 0)],
                  meet := [(0, meet)], arr := [(0, arr)] }] }

theorem witness_join_arrives :
    let t := inRegion full 0 0xFFFF
    let f : Frag := { placedFrag with region := some 0, lanes := [(0, 0xFFFF)] }
    ∃ r, Issues (.join (sOps 0 0 0)) (on t) t f placedGroup 0xFFFF ∧ t.regions = [r] ∧ f.region = some r.id ∧
      r.jaddr = f.pc ∧ t.meetsElsewhere f none = false ∧ (∀ k ∈ t.frags, ∀ j arr n, k.st ≠ .held j arr n) ∧
      gsubset r.meet (gunion r.arr [(placedGroup.num, 0xFFFF)]) = false := by
  refine ⟨_, issues_of rfl rfl rfl rfl (by decide) rfl rfl rfl rfl (by decide), rfl, rfl, rfl, rfl, ?_, by decide⟩
  intro k hk j arr n
  rw [List.mem_singleton.mp hk]; exact FState.noConfusion

theorem witness_join_closes :
    let t := inRegion full 0xFFFF0000 0xFFFF
    let f : Frag := { placedFrag with region := some 0, lanes := [(0, 0xFFFF)] }
    ∃ r, Issues (.join (sOps 0 0 0)) (on t) t f placedGroup 0xFFFF ∧ t.regions = [r] ∧ f.region = some r.id ∧
      r.jaddr = f.pc ∧ r.meet = [(placedGroup.num, full)] ∧ r.fmts = [(placedGroup.num, f.fmt)] ∧
      t.meetsElsewhere f none = false ∧ (∀ k ∈ t.frags, ∀ j arr n, k.st ≠ .held j arr n) ∧
      (∀ k ∈ t.frags, k.id < t.nextFrag) ∧ placedGroup.way < 8 ∧ full &&& placedGroup.alive ≠ 0 ∧
      gsubset r.meet (gunion r.arr [(placedGroup.num, 0xFFFF)]) = true := by
  refine ⟨_, issues_of rfl rfl rfl rfl (by decide) rfl rfl rfl rfl (by decide), rfl, rfl, rfl, rfl, rfl, rfl, ?_, ?_,
    by decide, by decide, by decide⟩
  · intro k hk j arr n
    rw [List.mem_singleton.mp hk]; exact FState.noConfusion
  · intro k hk
    rw [List.mem_singleton.mp hk]; decide

/-- `BRD` on p1 with its `JOIN` 36 bytes on, and `JMPI` by v10. -/
def brd0 : Instr := .brd { xOps 0 0 1 0 .b32 4 with lit := some 36 }
def jmpi0 : Instr := .jmpi (xOps 0 10 0 0 .b32 4)

/-- The targets of a meeting pass their checks. -/
def meetOk (s : State) (t : Team) (f : Frag) (g : Group) (m : Word) (i : Instr) : Bool :=
  match meetOf i (ctx i s t f) (gctx i g m) with
  | some (j, target, _) =>
    let l := takenTargets g.num (active i g m) (fun k => (target (k % 32)).isSome) (fun k => (target (k % 32)).getD (after i f))
    l.all (fun e => !(begins i s t f).targetHeld t.vi g.hm j e.2) &&
      decide (((begins i s t f).checkWalk t.vi t.core g.hm j j l).1 = {})
  | none => false

set_option maxRecDepth 20000 in
theorem witness_divergence : ∀ i ∈ [brd0, jmpi0],
    Issues i jumps (tg gJump) placedFrag gJump full ∧ meetOk jumps (tg gJump) placedFrag gJump full i = true ∧
    (tg gJump).path placedFrag = [placedFrag] ∧ active i gJump full ≠ 0 ∧ (tg gJump).regions.length < stackLimit ∧
    gJump.way < 8 ∧ ∀ k ∈ (tg gJump).frags, k.id < (tg gJump).nextFrag ∧ k.region ≠ some (tg gJump).nextRegion := by
  intro i hi
  have h : [brd0, jmpi0].all (fun i => fits i jumps (tg gJump) placedFrag &&
    meetOk jumps (tg gJump) placedFrag gJump full i && decide (active i gJump full ≠ 0)) = true := by decide
  have := List.all_eq_true.mp h i hi
  simp only [Bool.and_eq_true, decide_eq_true_eq] at this
  refine ⟨issues_of rfl rfl rfl rfl (by decide) rfl rfl rfl rfl this.1.1, this.1.2, rfl, this.2, by decide, by decide, ?_⟩
  intro k hk
  rw [List.mem_singleton.mp hk]; decide

/-- A fragment that waits at a `BRD` of one active lane. -/
def fMeet : Frag :=
  { placedFrag with st := .meeting brd0 [(0, 1)] (targetsOf 0 1 (fun _ => some 0x20000)) 0x20024 0x20014 }

set_option maxRecDepth 20000 in
theorem witness_meeting :
    let t : Team := { tg g1 with frags := [fMeet] }
    let s : State := { onCode [0x238] t with cur := none }
    s.team? t.id = some t ∧ t.frag? fMeet.id = some fMeet ∧ fMeet.lanes = [(g1.num, full)] ∧
    t.group? g1.num = some g1 ∧ t.path fMeet = [fMeet] ∧ (1 : Word) ≠ 0 ∧ (1 : Word) &&& ~~~full = 0 ∧
    t.regions.length < stackLimit ∧ g1.way < 8 ∧ (s.core t.core).dbg.step = false ∧
    (∀ k ∈ t.frags, k.id < t.nextFrag ∧ k.region ≠ some t.nextRegion) ∧
    ∃ u, TargetsPass (now s) t g1 false (takenTargets g1.num 1 (fun _ => true) (fun _ => 0x20000)) u := by
  refine ⟨rfl, rfl, rfl, rfl, rfl, by decide, by decide, by decide, by decide, rfl, ?_, _, ?_, Prod.ext (by decide) rfl⟩
  · intro k hk
    rw [List.mem_singleton.mp hk]; decide
  · decide

/-! ### Member-masked instructions and the exchange -/

/-- The instructions over named lanes. -/
def memberForms : List Instr := pick (wordsMove0 ++ wordsMove1) (fun i => i matches .shfl _ _ | .vote _ _ | .redux _ _ | .scan _ _ _)

/-- The conditions under which a member-masked instruction completes at once. -/
def memberOk (t : Team) (f : Frag) (g : Group) (m : Word) (s : State) (i : Instr) : Bool :=
  let named := namedLanes (memberMask i) (active i g m) g.launched
  decide (named &&& ~~~m = 0) && decide (active i g m &&& ~~~g.launched = 0) &&
    (memberOf i (ctx i s t f) (gctx i g m) named).isSome

theorem witness_member : memberForms.length = 25 ∧ ∀ i ∈ memberForms,
    Issues i m0 placedTeam placedFrag placedGroup full ∧ memberOk placedTeam placedFrag placedGroup full m0 i = true :=
  ⟨by decide, issues_each (by decide)⟩

/-- A fragment that carries half the lanes of the group. -/
def fHalf : Frag := { placedFrag with lanes := [(0, 0xFFFF)] }
def tHalf : Team := { placedTeam with frags := [fHalf] }

/-- The instructions over named lanes, with every lane named. -/
def heldForms : List Instr :=
  [.shfl .idx (xOps 6 10 4 0 .b32 0xFFFFFFFF), .vote .any (xOps 6 0 0 0 .b32 0xFFFFFFFF),
   .redux .add (xOps 6 10 0 0 .s32 0xFFFFFFFF), .scan .add false (xOps 6 10 0 0 .s32 0xFFFFFFFF),
   .xch (xOps 6 10 4 0 .b32 0xFFFFFFFF)]

theorem no_held (t : Team) (f : Frag) (h : t.frags = [f]) (hf : f.st = .ready) :
    ∀ k ∈ t.frags, ∀ j arr n, k.st ≠ .held j arr n := by
  intro k hk j arr n
  rw [h] at hk
  rw [List.mem_singleton.mp hk, hf]; exact FState.noConfusion

theorem witness_member_waits : ∀ i ∈ heldForms, Issues i (on tHalf) tHalf fHalf placedGroup 0xFFFF ∧
    (∀ k ∈ tHalf.frags, ∀ j arr n, k.st ≠ .held j arr n) ∧ tHalf.regions = [] ∧ placedGroup.exited = 0 ∧
    namedLanes (memberMask i) (active i placedGroup 0xFFFF) placedGroup.launched &&& ~~~0xFFFF ≠ 0 := by
  intro i hi
  have h : heldForms.all (fun i => fits i (on tHalf) tHalf fHalf &&
    decide (namedLanes (memberMask i) (active i placedGroup 0xFFFF) placedGroup.launched &&& ~~~0xFFFF ≠ 0)) = true := by decide
  have := List.all_eq_true.mp h i hi
  simp only [Bool.and_eq_true, decide_eq_true_eq] at this
  exact ⟨issues_of rfl rfl rfl rfl (by decide) rfl rfl rfl rfl this.1, no_held _ fHalf rfl rfl, rfl, rfl, this.2⟩

theorem witness_exchange_arrives : let i : Instr := .xch (xOps 6 10 4 0 .b32 0)
    Issues i m0 placedTeam placedFrag placedGroup full ∧ (∀ k ∈ placedTeam.frags, ∀ j arr n, k.st ≠ .held j arr n) ∧
    namedLanes (memberMask i) (active i placedGroup full) placedGroup.launched &&& ~~~full = 0 ∧
    active i placedGroup full &&& ~~~placedGroup.launched = 0 :=
  ⟨issues_placed (by decide), no_held _ placedFrag rfl rfl, by decide, by decide⟩

/-- Two fragments that wait at one vote, each with half of the group. -/
def fVote (id : Nat) (m : Word) : Frag :=
  { placedFrag with
    id := id, lanes := [(0, m)]
    st := .held (.vote .any (xOps 6 0 0 0 .b32 0xFFFFFFFF)) [{ group := 0, lanes := m, act := m }] 0x2000C }
def tVote : Team := { placedTeam with frags := [fVote 0 0xFFFF, fVote 1 0xFFFF0000], nextFrag := 2 }

theorem witness_member_arrival :
    let s : State := { on tVote with cur := none }
    let i : Instr := .vote .any (xOps 6 0 0 0 .b32 0xFFFFFFFF)
    ∃ p named arr, s.team? tVote.id = some tVote ∧ tVote.group? 0 = some placedGroup ∧
      fVote 0 0xFFFF ∈ tVote.frags ∧ (fVote 0 0xFFFF).st = .held i arr 0x2000C ∧ (s.core tVote.core).dbg.step = false ∧
      (tVote.frags.map (fun f => f.id)).Nodup ∧
      (∀ k ∈ tVote.frags, ∃ m, m ≠ 0 ∧ k.lanes = [(0, m)] ∧ k.pc = placedPc ∧
        ∃ a, k.st = .held i [a] 0x2000C ∧ a.group = 0 ∧ a.lanes = m) ∧
      tVote.memberReady 0 (tVote.gather i placedPc 0) i = some named ∧
      memberPerform i 0 named (tVote.gather i placedPc 0) = .ok p ∧
      ∀ e ∈ tVote.gather i placedPc 0, e.1.fmt = 0 := by
  refine ⟨_, full, _, rfl, rfl, .head _, rfl, rfl, by decide, ?_, by decide, rfl, ?_⟩
  · intro k hk
    rcases List.mem_cons.mp hk with rfl | hk
    · exact ⟨0xFFFF, by decide, rfl, rfl, _, rfl, rfl, rfl⟩
    · rw [List.mem_singleton.mp hk]; exact ⟨0xFFFF0000, by decide, rfl, rfl, _, rfl, rfl, rfl⟩
  · decide

/-! ### Memory -/

/-- A group of one enabled lane whose pair v10 holds an address. -/
def gAt (hi lo : Word) : Group := { g1 with regs := [(320, lo), (352, hi)] }

/-- The machine whose team has that group. -/
def sAt (hi lo : Word) : State := on (tg (gAt hi lo))

/-- The same with SLICE pages (R21, R29). -/
def sSlice (hi lo : Word) : State := { sAt hi lo with mem := layBytes (sAt hi lo).mem 0x12000 (leBytes 8 0xC9F) }

/-- The places that an access of lanes finds. -/
def hitsOf (i : Instr) (s : State) (t : Team) (f : Frag) (g : Group) (kind : AKind) (size : Nat)
    (lanes : List (Nat × Dword)) : List (Nat × Dword × Tgt) :=
  match ((sees i s t f).locateAll (seen i g full) kind size lanes (begins i s t f)).1 with
  | .ok h _ => h
  | _ => []

/-- An instruction of the placed fragment by a group whose pair v10 holds an address. -/
abbrev Ready (i : Instr) (s : State) (hi lo : Word) : Prop := Issues i s (tg (gAt hi lo)) placedFrag (gAt hi lo) full

/-- Its accesses pass their checks. -/
abbrev Finds (i : Instr) (s : State) (hi lo : Word) (kind : AKind) (size : Nat) (lanes : List (Nat × Dword))
    (hits : List (Nat × Dword × Tgt)) : Prop :=
  Located i s (tg (gAt hi lo)) placedFrag (gAt hi lo) full kind size lanes hits

/-- The lanes' addresses of an access by v10. -/
abbrev addrs (i : Instr) (s : State) (hi lo : Word) : List (Nat × Dword) :=
  addrsOf i s (tg (gAt hi lo)) placedFrag (gAt hi lo) full

theorem ready {i : Instr} (hi lo : Word) (h : fits i (sAt hi lo) (tg (gAt hi lo)) placedFrag = true) :
    Ready i (sAt hi lo) hi lo := issues_of rfl rfl rfl rfl (by decide) rfl rfl rfl rfl h

theorem finds {i : Instr} {s : State} {hi lo : Word} {kind : AKind} {size : Nat} {lanes : List (Nat × Dword)}
    (h : (sees i s (tg (gAt hi lo)) placedFrag).locateAll (seen i (gAt hi lo) full) kind size lanes
      (begins i s (tg (gAt hi lo)) placedFrag) =
        (.ok (hitsOf i s (tg (gAt hi lo)) placedFrag (gAt hi lo) kind size lanes) (goesOn i placedFrag),
          begins i s (tg (gAt hi lo)) placedFrag)) : ∃ h, Finds i s hi lo kind size lanes h := ⟨_, h⟩

def ldS : Instr := .ldShort (sOps 6 10 1)
def ldX : XOps := xOps 6 10 0 0 .b32 0
def lduS : Instr := .lduShort (sOps 6 10 1)
def lduX : Instr := .ldu (xOps 6 10 0 0 .b32 0)

set_option maxRecDepth 20000 in
/-- `LD` and `LDU` of scratch and of global memory. -/
theorem witness_loads :
    (Ready ldS (sAt 0xF0000000 64) 0xF0000000 64 ∧ ∃ h,
      Finds ldS (sAt 0xF0000000 64) 0xF0000000 64 .load (accBytes (ops ldS)) (addrs ldS (sAt 0xF0000000 64) 0xF0000000 64) h) ∧
    (Ready (.ld ldX) (sAt 0 0x30000) 0 0x30000 ∧ ∃ h,
      Finds (.ld ldX) (sAt 0 0x30000) 0 0x30000 .load (accBytes (ops (.ld ldX))) (addrs (.ld ldX) (sAt 0 0x30000) 0 0x30000) h) ∧
    (Ready lduS (sAt 0xF0000000 64) 0xF0000000 64 ∧ ∃ h,
      Finds lduS (sAt 0xF0000000 64) 0xF0000000 64 .load (accBytes (ops lduS))
        ((addrs lduS (sAt 0xF0000000 64) 0xF0000000 64).take 1) h) ∧
    (Ready lduX (sAt 0 0x30000) 0 0x30000 ∧ ∃ h,
      Finds lduX (sAt 0 0x30000) 0 0x30000 .load (accBytes (ops lduX)) ((addrs lduX (sAt 0 0x30000) 0 0x30000).take 1) h) :=
  ⟨⟨ready _ _ (by decide), finds rfl⟩, ⟨ready _ _ (by decide), finds rfl⟩,
   ⟨ready _ _ (by decide), finds rfl⟩, ⟨ready _ _ (by decide), finds rfl⟩⟩

set_option maxRecDepth 20000 in
/-- `LD` of bytes that stand as they are: scratch, lane-private memory, global memory. -/
theorem witness_load_reads : acquires (fld ldX.w3 3 3) = false ∧
    ∀ a ∈ [((0xF0000000 : Word), (64 : Word)), (0xF2000000, 64), (0, 0x30000)],
      ∃ e : Nat × Dword × Tgt, Ready (.ld ldX) (sAt a.1 a.2) a.1 a.2 ∧
        Finds (.ld ldX) (sAt a.1 a.2) a.1 a.2 .load (accBytes ldX) (addrs (.ld ldX) (sAt a.1 a.2) a.1 a.2) [e] ∧
        Plain (sAt a.1 a.2) (tg (gAt a.1 a.2)) (gAt a.1 a.2) e.1 (accBytes ldX) e.2.2 := by
  refine ⟨by decide, ?_⟩
  intro a ha
  simp only [List.mem_cons, List.not_mem_nil, or_false] at ha
  rcases ha with rfl | rfl | rfl
  · exact ⟨(0, 0xF000000000000040, .scr 2 64), ready _ _ (by decide), rfl, _, rfl, by decide⟩
  · exact ⟨(0, 0xF200000000000040, .priv 64), ready _ _ (by decide), rfl, nofun⟩
  · refine ⟨(hitsOf (.ld ldX) (sAt 0 0x30000) (tg (gAt 0 0x30000)) placedFrag (gAt 0 0x30000) .load 4
      (addrs (.ld ldX) (sAt 0 0x30000) 0 0x30000)).headD (0, 0, .priv 0), ready _ _ (by decide), rfl, ?_⟩
    show Plain _ _ _ _ _ (.glob _)
    exact ⟨by decide, by decide, by decide, by decide, nofun, nofun⟩

def stS : Instr := .stShort (sOps 6 10 1)
def stX : XOps := xOps 6 10 0 0 .b32 0

set_option maxRecDepth 20000 in
/-- `ST` to scratch and to global memory. -/
theorem witness_stores :
    (Ready stS (sAt 0xF0000000 64) 0xF0000000 64 ∧ ∃ h,
      Finds stS (sAt 0xF0000000 64) 0xF0000000 64 .store (accBytes (ops stS)) (addrs stS (sAt 0xF0000000 64) 0xF0000000 64) h) ∧
    (Ready (.st stX) (sAt 0 0x30000) 0 0x30000 ∧ ∃ h,
      Finds (.st stX) (sAt 0 0x30000) 0 0x30000 .store (accBytes (ops (.st stX))) (addrs (.st stX) (sAt 0 0x30000) 0 0x30000) h) :=
  ⟨⟨ready _ _ (by decide), finds rfl⟩, ⟨ready _ _ (by decide), finds rfl⟩⟩

/-- The one place of a store by v10. -/
def stPlace (s : State) (hi lo : Word) : Nat × Dword × Tgt :=
  (hitsOf (.st stX) s (tg (gAt hi lo)) placedFrag (gAt hi lo) .store 4 (addrs (.st stX) s hi lo)).headD (0, 0, .regw 0)

set_option maxRecDepth 20000 in
/-- `ST` by one lane to scratch, to lane-private memory, to a CACHED page and to a SLICE page. -/
theorem witness_store_writes : releases (fld stX.w3 3 3) = false ∧
    (∀ a ∈ [((0xF0000000 : Word), (64 : Word)), (0xF2000000, 64), (0, 0x30000)],
      Ready (.st stX) (sAt a.1 a.2) a.1 a.2 ∧
      Finds (.st stX) (sAt a.1 a.2) a.1 a.2 .store (accBytes stX) (addrs (.st stX) (sAt a.1 a.2) a.1 a.2) [stPlace (sAt a.1 a.2) a.1 a.2]) ∧
    (∃ y, (stPlace (sAt 0 0x30000) 0 0x30000).2.2 = .glob y ∧ y.cached = true) ∧
    Issues (.st stX) (sSlice 0 0x30000) (tg (gAt 0 0x30000)) placedFrag (gAt 0 0x30000) full ∧
    Finds (.st stX) (sSlice 0 0x30000) 0 0x30000 .store (accBytes stX) (addrs (.st stX) (sSlice 0 0x30000) 0 0x30000)
      [stPlace (sSlice 0 0x30000) 0 0x30000] ∧
    ∃ y, (stPlace (sSlice 0 0x30000) 0 0x30000).2.2 = .glob y ∧ y.cached = false := by
  refine ⟨by decide, ?_, ⟨_, rfl, by decide⟩, issues_of rfl rfl rfl rfl (by decide) rfl rfl rfl rfl (by decide), rfl,
    _, rfl, by decide⟩
  intro a ha
  simp only [List.mem_cons, List.not_mem_nil, or_false] at ha
  rcases ha with rfl | rfl | rfl <;> exact ⟨ready _ _ (by decide), rfl⟩

/-- A team with a tile binding, and the tag window on. -/
def tTile : Team :=
  { tg g1 with binding := some { base := 0, vmask := 1, strips := 1, tx := 1, ty := 1, natt := 0 }, tagwin := 1 }

theorem tile_issues {i : Instr} (h : fits i (on tTile) tTile placedFrag = true) :
    Issues i (on tTile) tTile placedFrag g1 full := issues_of rfl rfl rfl rfl (by decide) rfl rfl rfl rfl h

theorem witness_tile_memory : let o := xOps 6 10 4 0 .b32 0
    (∃ hits, Issues (.ldt o) (on tTile) tTile placedFrag g1 full ∧
      (sees (.ldt o) (on tTile) tTile placedFrag).tileCheck (seen (.ldt o) g1 full) (begins (.ldt o) (on tTile) tTile placedFrag)
        = (.ok hits (goesOn (.ldt o) placedFrag), begins (.ldt o) (on tTile) tTile placedFrag)) ∧
    ∃ hits, Issues (.stt o) (on tTile) tTile placedFrag g1 full ∧
      (sees (.stt o) (on tTile) tTile placedFrag).tileCheck (seen (.stt o) g1 full) (begins (.stt o) (on tTile) tTile placedFrag)
        = (.ok hits (goesOn (.stt o) placedFrag), begins (.stt o) (on tTile) tTile placedFrag) :=
  ⟨⟨_, tile_issues (by decide), rfl⟩, _, tile_issues (by decide), rfl⟩

theorem witness_accumulators : let o := xOps 6 10 0 0 .b32 0x300
    (∃ hits, Issues (.ldacc o) (on tTile) tTile placedFrag g1 full ∧
      (sees (.ldacc o) (on tTile) tTile placedFrag).accCheck (seen (.ldacc o) g1 full) (begins (.ldacc o) (on tTile) tTile placedFrag)
        = (.ok hits (goesOn (.ldacc o) placedFrag), begins (.ldacc o) (on tTile) tTile placedFrag)) ∧
    ∃ e, Issues (.stacc o) (on tTile) tTile placedFrag g1 full ∧
      (sees (.stacc o) (on tTile) tTile placedFrag).accCheck (seen (.stacc o) g1 full) (begins (.stacc o) (on tTile) tTile placedFrag)
        = (.ok [e] (goesOn (.stacc o) placedFrag), begins (.stacc o) (on tTile) tTile placedFrag) :=
  ⟨⟨_, tile_issues (by decide), rfl⟩, (0, 0), tile_issues (by decide), rfl⟩

theorem witness_tags :
    (∀ i ∈ [Instr.tlook (xOps 6 10 0 0 .b32 0), .tlookClm (xOps 6 10 0 0 .b32 0), .tfill (xOps 0 10 4 0 .b32 0),
        .tevict (xOps 6 10 4 0 .b32 0)], Issues i (on tTile) tTile placedFrag g1 full ∧ ∃ k sl op hits,
      tagOf i = some (k, sl, op) ∧
      (sees i (on tTile) tTile placedFrag).tagCheck k sl (seen i g1 full) (begins i (on tTile) tTile placedFrag)
        = (.ok hits (goesOn i placedFrag), begins i (on tTile) tTile placedFrag)) ∧
    Issues (.tinv (xOps 0 0 0 0 .b32 0)) (on tTile) tTile placedFrag g1 full ∧ bit tTile.tagwin 0 = true := by
  refine ⟨?_, tile_issues (by decide), by decide⟩
  intro i hi
  simp only [List.mem_cons, List.not_mem_nil, or_false] at hi
  rcases hi with rfl | rfl | rfl | rfl <;> exact ⟨tile_issues (by decide), _, _, _, _, rfl, rfl⟩

/-- `ATOM.add`, `RED.add` and `ATOMCAS` of 32 bits without order. -/
def atomX : XOps := xOps 6 10 4 0 .n32 0
def atomForms : List Instr := [.atom atomX, .red (xOps 0 10 4 0 .n32 0), .atomcas (xOps 6 10 4 12 .b32 0)]

/-- The lanes and addresses of an atomic instruction by v10. -/
abbrev atomAddrs (i : Instr) (hi lo : Word) : List (Nat × Dword) :=
  (lanesOf (active i (gAt hi lo) full)).map (fun l =>
    (l, (sees i (sAt hi lo) (tg (gAt hi lo)) placedFrag).srcA (seen i (gAt hi lo) full) 2 l))

set_option maxRecDepth 20000 in
theorem witness_atomics : ∀ i ∈ atomForms, Ready i (sAt 0 0x30000) 0 0x30000 ∧ (∃ ret op,
    atomOf i (sees i (sAt 0 0x30000) (tg (gAt 0 0x30000)) placedFrag) = some (ret, op)) ∧ ∃ hits,
    Finds i (sAt 0 0x30000) 0 0x30000 .atomic (tyBytes (ops i).ty) (atomAddrs i 0 0x30000) hits := by
  intro i hi
  simp only [atomForms, List.mem_cons, List.not_mem_nil, or_false] at hi
  rcases hi with rfl | rfl | rfl <;> exact ⟨ready _ _ (by decide), ⟨_, _, rfl⟩, finds rfl⟩

set_option maxRecDepth 20000 in
theorem witness_atomic_reads : ∃ a x, Ready (.atom atomX) (sAt 0 0x30000) 0 0x30000 ∧ fld atomX.w3 3 3 = 0 ∧
    Finds (.atom atomX) (sAt 0 0x30000) 0 0x30000 .atomic (tyBytes atomX.ty) (atomAddrs (.atom atomX) 0 0x30000)
      [(0, a, .glob x)] ∧
    Plain (sAt 0 0x30000) (tg (gAt 0 0x30000)) (gAt 0 0x30000) 0 (tyBytes atomX.ty) (.glob x) ∧
    adBits .atomic &&& ~~~x.known = 0 ∧
    ∀ e ∈ ((sAt 0 0x30000).core (tg (gAt 0 0x30000)).core).wbuf, e.pa / 128 ≠ x.pa / 128 :=
  ⟨_, _, ready _ _ (by decide), by decide, rfl, ⟨by decide, by decide, by decide, by decide, nofun, nofun⟩, by decide, nofun⟩

theorem witness_fences : ∀ i ∈ pick wordsMemory (fun i => i matches .fence _ | .opfence _) ++
    [.ffence (sOps 0 0 0), .fence (xOps 0 0 0 0 .b32 0x0B), .fence (xOps 0 0 0 0 .b32 0x23)],
    Issues i m0 placedTeam placedFrag placedGroup full ∧ true = true := issues_each (by decide)

set_option maxRecDepth 20000 in
theorem witness_prefetch : ∀ i ∈ [Instr.prefShort (sOps 0 10 1), .pref (xOps 0 10 0 0 .b32 0)], Ready i (sAt 0 0x30000) 0 0x30000 ∧
    ∃ hits, hits.length = 1 ∧ (sees i (sAt 0 0x30000) (tg (gAt 0 0x30000)) placedFrag).prefCheck (seen i (gAt 0 0x30000) full)
      (begins i (sAt 0 0x30000) (tg (gAt 0 0x30000)) placedFrag) =
        (.ok hits (goesOn i placedFrag), begins i (sAt 0 0x30000) (tg (gAt 0 0x30000)) placedFrag) := by
  intro i hi
  simp only [List.mem_cons, List.not_mem_nil, or_false] at hi
  rcases hi with rfl | rfl <;> exact ⟨ready _ _ (by decide), [_], rfl, rfl⟩

/-- The atomic instructions in the order `.sc`. -/
def scForms : List Instr := [.atom (xOps 6 10 4 0 .n32 0x23), .red (xOps 0 10 4 0 .n32 0x23), .atomcas (xOps 6 10 4 12 .b32 0x23)]

set_option maxRecDepth 20000 in
theorem witness_sc_atomics : ∀ i ∈ scForms, Ready i (sAt 0 0x30000) 0 0x30000 ∧
    (sees i (sAt 0 0x30000) (tg (gAt 0 0x30000)) placedFrag).order = 4 ∧ ∃ hits, hits.length = 1 ∧
    Finds i (sAt 0 0x30000) 0 0x30000 .atomic (tyBytes (ops i).ty) (atomAddrs i 0 0x30000) hits := by
  intro i hi
  simp only [scForms, List.mem_cons, List.not_mem_nil, or_false] at hi
  rcases hi with rfl | rfl | rfl <;> exact ⟨ready _ _ (by decide), by decide, [_], rfl, rfl⟩

/-- A `.sc` addition to the four bytes at 0x30000 that waits for its ticket. -/
def scOp : TixOp :=
  { lane := 0, addr := 0x30000, place := .glob 0 0x30000 0 1 true, size := 4, aop := 0, ty := .n32, b := 1 }
def gSc : Group := { placedGroup with sc := some { left := 1, dst := some (.n32, 6), wide := true } }

set_option maxRecDepth 20000 in
theorem witness_tickets :
    let s : State := { on (tg gSc) with cur := none, tickReq := [{ die := 0, home := 6, team := 2, core := 0, groups := [0], op := some scOp }] }
    (∃ w, s.team? 2 = some (tg gSc) ∧ (tg gSc).group? 0 = some gSc ∧ gSc.sc = some w ∧ w.left = 1 ∧ w.res = []) ∧
    s.poisoned 0x30000 4 = false ∧ (∀ k, k < 4 → zget ((0x30000 + k) / 64) s.tags = 0) ∧
    (∀ e ∈ (s.core 0).wbuf, e.pa / 128 ≠ 0x30000 / 128) ∧ (∀ r ∈ s.tickReq, r.die < 4) ∧ s.tickReq ≠ [] :=
  ⟨⟨_, rfl, rfl, rfl, rfl, rfl⟩, by decide, fun _ _ => rfl, nofun, by decide, nofun⟩

/-! ### Barriers, guards, queues, the exchange -/

/-- A team with a barrier, and a guard that is pending. -/
def tBar : Team := { placedTeam with bars := [(0, { scope := 2, count := 2, phase := 0, arr := 0 })], guards := [(0, .pending)] }

theorem bar_issues {i : Instr} (h : fits i (on tBar) tBar placedFrag = true) :
    Issues i (on tBar) tBar placedFrag placedGroup full := issues_of rfl rfl rfl rfl (by decide) rfl rfl rfl rfl h

theorem no_heads (t : Team) (c : Nat) : Unguarded (on t) c := by
  intro x h; rcases h with h | h <;> cases h

theorem witness_barinit : let o := xOps 0 0 0 0 .b32 0x10200
    Issues (.barinit o) (on tBar) tBar placedFrag placedGroup full ∧ fld o.w3 0 4 < tBar.barsN ∧ fld o.w3 16 16 ≠ 0 ∧
    (on tBar).barNamed tBar (fld o.w3 0 4) = false ∧ tBar.barWaited (fld o.w3 0 4) = false :=
  ⟨bar_issues (by decide), by decide, by decide, rfl, rfl⟩

theorem witness_barriers : ∀ i ∈ [Instr.baraShort (sOps 0 0 0), .bara (xOps 0 0 0 0 .b32 0), .barwShort (sOps 0 0 0),
      .barw (xOps 0 0 0 0 .b32 0), .barawShort (sOps 0 0 0), .baraw (xOps 0 0 0 0 .b32 0), .waitc (xOps 0 0 0 0 .b32 4)],
    Issues i (on tBar) tBar placedFrag placedGroup full ∧ Unguarded (on tBar) tBar.core ∧
    (∃ a w, barOf i placedFrag 0 = some (a, w)) ∧ (∃ b, tBar.bar? (fld (ops i).d 0 4) = some b) ∧
    ∀ n, kfind (fld (ops i).d 0 4) placedGroup.ap ≠ some n := by
  intro i hi
  simp only [List.mem_cons, List.not_mem_nil, or_false] at hi
  rcases hi with rfl | rfl | rfl | rfl | rfl | rfl | rfl <;>
    exact ⟨bar_issues (by decide), no_heads _ _, ⟨_, _, rfl⟩, ⟨_, rfl⟩, fun _ => nofun⟩

/-- A team whose fragment waits at a barrier that has completed a phase. -/
def tWaits (st : FState) : Team :=
  { tBar with bars := [(0, { scope := 2, count := 2, phase := 1, arr := 0 })], frags := [{ placedFrag with st := st }] }

theorem witness_barrier_waits : ∀ e ∈ [(FState.barw 0 [0] 0x20004, Instr.barrierWaitRelease 2 0),
      (.sleeping 0 [0] 0x20004, .waitcReactivate 2 0)],
    let t := tWaits e.1
    let f : Frag := { placedFrag with st := e.1 }
    (on t).team? t.id = some t ∧ t.frag? f.id = some f ∧ f.lanes = [(placedGroup.num, full)] ∧
    t.group? placedGroup.num = some placedGroup ∧ ((on t).core t.core).dbg.step = false ∧
    (∃ bar, t.bar? 0 = some bar ∧ barReady bar (kget 0 0 placedGroup.ep) = true) ∧
    ((f.st = .barw 0 [0] 0x20004 ∧ e.2 = .barrierWaitRelease t.id f.id) ∨
      (f.st = .sleeping 0 [0] 0x20004 ∧ e.2 = .waitcReactivate t.id f.id)) := by
  intro e he
  simp only [List.mem_cons, List.not_mem_nil, or_false] at he
  rcases he with rfl | rfl
  · exact ⟨rfl, rfl, rfl, rfl, rfl, ⟨_, rfl, by decide⟩, .inl ⟨rfl, rfl⟩⟩
  · exact ⟨rfl, rfl, rfl, rfl, rfl, ⟨_, rfl, by decide⟩, .inr ⟨rfl, rfl⟩⟩

theorem witness_guards : (∀ i ∈ [Instr.gsetShort (sOps 0 0 0), .gset (xOps 16 0 0 0 .b32 0), .gclrShort (sOps 0 0 0),
      .gclr (xOps 0 0 0 0 .b32 0)], Issues i (on tBar) tBar placedFrag placedGroup full ∧
      tBar.guard (fld (ops i).d 0 4) ≠ .idle) ∧ Unguarded (on tBar) tBar.core := by
  refine ⟨?_, no_heads _ _⟩
  intro i hi
  simp only [List.mem_cons, List.not_mem_nil, or_false] at hi
  rcases hi with rfl | rfl | rfl | rfl <;> exact ⟨bar_issues (by decide), by decide⟩

/-- A command of the placed team that stands in a queue. -/
def plainCmd : Cmd := { id := 9, team := 2, kind := 1, body := [16, 0, 0xF0000000, 64, 0xF0000000, 0, 0] }

/-- The machine whose core 0 holds commands. -/
def queued (mx cp : List Cmd) (t : Team) : State := { on t with cores := [(0, { qmx := mx, qcp := cp })] }

theorem witness_heads : let s := queued [] [plainCmd] tBar
    (s.core 0).qmx.length ≤ 32 ∧ (s.core 0).qcp.length ≤ 16 ∧
    ∃ x rest u, ((s.heads 0).core 0).queue 1 = x :: rest ∧ (s.heads 0).team? x.team = some u :=
  ⟨by decide, by decide, _, _, _, rfl, rfl⟩

theorem witness_queue_status : ∀ i ∈ pick wordsQueue (fun i => i matches .qstatShort _ | .qstat _ | .qstatSatShort _ | .qstatSat _),
    Issues i m0 placedTeam placedFrag placedGroup full ∧ true = true := issues_each (by decide)

/-- Groups with a record, with a request in flight, and with no lane enabled. -/
def gRecord : Group := { placedGroup with qix := [[1, 2, 3, 4, 5, 6, 7, 8]] }
def gInflight : Group := { placedGroup with inflight := 1 }
def gOff : Group := { placedGroup with exec := 0 }

theorem no_qpop (t : Team) (f : Frag) (h : t.frags = [f]) (hf : f.st = .ready) :
    ∀ k ∈ t.frags, ∀ d gs n, k.st ≠ .qpop d gs n := by
  intro k hk d gs n
  rw [h] at hk
  rw [List.mem_singleton.mp hk, hf]; exact FState.noConfusion

theorem group_issues {i : Instr} (g : Group) (hn : g.num = 0) (hg : (tg g).group? g.num = some g) (hp : g.pend = [])
    (hr : g.regPoison = []) (h : fits i (on (tg g)) (tg g) placedFrag = true) :
    Issues i (on (tg g)) (tg g) placedFrag g full :=
  issues_of rfl rfl rfl (by rw [hn]; rfl) (by decide) hg hp hr rfl h

theorem witness_qpop : ∀ i ∈ [Instr.qpopShort (sOps 8 2 0), .qpop (xOps 8 2 0 0 .b32 0)],
    (Issues i (on (tg gRecord)) (tg gRecord) placedFrag gRecord full ∧
      (∀ k ∈ (tg gRecord).frags, ∀ d gs n, k.st ≠ .qpop d gs n) ∧ active i gRecord full ≠ 0 ∧
      ∃ rec rest, gRecord.qix = rec :: rest) ∧
    (Issues i (on (tg gInflight)) (tg gInflight) placedFrag gInflight full ∧
      (∀ k ∈ (tg gInflight).frags, ∀ d gs n, k.st ≠ .qpop d gs n) ∧ active i gInflight full ≠ 0 ∧ gInflight.qix = [] ∧
      gInflight.inflight ≠ 0) ∧
    Issues i (on (tg gOff)) (tg gOff) placedFrag gOff full ∧
      (∀ k ∈ (tg gOff).frags, ∀ d gs n, k.st ≠ .qpop d gs n) ∧ active i gOff full = 0 := by
  intro i hi
  simp only [List.mem_cons, List.not_mem_nil, or_false] at hi
  rcases hi with rfl | rfl <;>
    exact ⟨⟨group_issues _ rfl rfl rfl rfl (by decide), no_qpop _ placedFrag rfl rfl, by decide, _, _, rfl⟩,
      ⟨group_issues _ rfl rfl rfl rfl (by decide), no_qpop _ placedFrag rfl rfl, by decide, rfl, by decide⟩,
      group_issues _ rfl rfl rfl rfl (by decide), no_qpop _ placedFrag rfl rfl, by decide⟩

theorem witness_qpop_unblocks :
    let f : Frag := { placedFrag with st := .qpop 8 [0] 0x20004 }
    let t : Team := { tg gRecord with frags := [f] }
    (on t).team? t.id = some t ∧ t.frag? f.id = some f ∧ f.lanes = [(gRecord.num, full)] ∧
    t.group? gRecord.num = some gRecord ∧ ((on t).core t.core).dbg.step = false ∧
    f.st = .qpop 8 [gRecord.num] 0x20004 ∧ gRecord.pend = [] ∧ ∃ rec rest, gRecord.qix = rec :: rest :=
  ⟨rfl, rfl, rfl, rfl, rfl, rfl, rfl, _, _, rfl⟩

/-- Two teams on neighbouring cores, a group of each waiting to exchange a register with the other. -/
def xOf (role seq v : Nat) : Xch :=
  { seq := seq, tag := 5, wide := false, role := role, dst := 6, act := full, vals := [(0, w64 v)], pc := placedPc }
def tLeft : Team := { tg { placedGroup with xch := some (xOf 1 1 7) } with frags := [{ placedFrag with st := .xch 0x2000C }] }
def tRight : Team :=
  { tg { placedGroup with xch := some (xOf 0 2 8) } with
    frags := [{ placedFrag with st := .xch 0x2000C }], id := 3, core := 1, index := 1, rank := 0 }
def sXch : State := { on tLeft with teams := [(2, tLeft), (3, tRight)], cur := none }

theorem witness_exchange : sXch.nextXch = some (tLeft.id, 0) ∧ sXch.team? tLeft.id = some tLeft ∧
    sXch.team? tRight.id = some tRight ∧ (∃ g, tLeft.group? 0 = some g ∧ g.xch = some (xOf 1 1 7)) ∧
    (∃ g, tRight.group? 0 = some g ∧ g.xch = some (xOf 0 2 8)) ∧ tRight.id ≠ tLeft.id ∧
    tRight ∈ sXch.xchCandidates tLeft 0 (xOf 1 1 7) ∧
    (∀ k ∈ sXch.xchCandidates tLeft 0 (xOf 1 1 7), ∀ z, k.group? 0 = some z → z.xch ≠ none → k = tRight) ∧
    sXch.roleCore tRight 0 = tLeft.core ∧ (sXch.core 0).dbg.step = false ∧ (sXch.core 1).dbg.step = false ∧
    (tLeft.frags.map (fun k => k.id)).Nodup ∧ (tRight.frags.map (fun k => k.id)).Nodup ∧
    ∀ k, k ∈ tLeft.frags ∨ k ∈ tRight.frags → ∀ n, k.st = .xch n → ∃ m, m ≠ 0 ∧ k.lanes = [(0, m)] := by
  have hc : sXch.xchCandidates tLeft 0 (xOf 1 1 7) = [tRight] := rfl
  refine ⟨by decide, rfl, rfl, ⟨_, rfl, rfl⟩, ⟨_, rfl, rfl⟩, by decide, by rw [hc]; exact .head _, ?_, by decide, rfl, rfl, by decide,
    by decide, ?_⟩
  · intro k hk z _ _
    rw [hc] at hk; exact List.mem_singleton.mp hk
  · intro k hk n _
    rcases hk with h | h <;> · rw [List.mem_singleton.mp h]; exact ⟨full, by decide, rfl⟩

/-! ### Engine queues, copies, publications, migration -/

/-- A group whose s8 to s15 hold a COPY, s40 to s47 an ACCZ, and s20 and s21 the operands of an `MMAS`. -/
def gCmd : Group :=
  { placedGroup with
    scal := [(8, 1), (9, 16), (11, 0xF0000000), (12, 64), (13, 0xF0000000), (21, 0x80001), (40, 1), (41, 0xB6A), (43, 0x800000)] }
def tCmd : Team := { tg gCmd with bars := [(0, { scope := 2, count := 2, phase := 0, arr := 0 })] }

/-- The instructions that push. -/
def pushForms : List Instr :=
  [.qpushShort (sOps 1 8 0), .qpush (xOps 0 40 0 0 .b32 0), .mldw { xOps 0 19 0 0 .e4m3 0 with ka := .scal },
   .mswapShort (sOps 3 0 0), .mswap (xOps 3 0 0 0 .b32 0), .mma (xOps 0 10 0 0 .e4m3 0),
   .mmas { xOps 0 20 21 0 .e4m3 0 with ka := .scal, kb := .scal }, .mhad (xOps 1 0 0 0 .f32 0),
   .mqnt { xOps 0 0 6 0 .qn4 0 with kb := .scal }, .accz (xOps 2 0 0 0 .b32 0x800000),
   .acccvt { xOps 2 4 0 0 .f16 0x800000 with ka := .scal }]

/-- The command that a push forms, with its queue. -/
def pushed (i : Instr) (s : State) (t : Team) (g : Group) : Option (Nat × Cmd) :=
  match pushOf i (sees i s t placedFrag) (begins i s t placedFrag) with
  | none => none
  | some (q, mk) => match mk (seen i g full) with | .ok x => some (q, x) | .error _ => none

theorem pushed_spec {i : Instr} {s : State} {t : Team} {g : Group} {q : Nat} {x : Cmd} (h : pushed i s t g = some (q, x)) :
    ∃ mk, pushOf i (sees i s t placedFrag) (begins i s t placedFrag) = some (q, mk) ∧ mk (seen i g full) = .ok x := by
  unfold pushed at h
  split at h
  · cases h
  · rename_i q' mk hp
    split at h
    · cases h; exact ⟨mk, hp, by assumption⟩
    · cases h

/-- A push whose command may enter a queue. -/
def pushOk (i : Instr) (s : State) (t : Team) (g : Group) : Bool :=
  match pushed i s t g with
  | none => false
  | some (q, x) => fits i s t placedFrag && decide (active i g full ≠ 0) && decide (q < 2) && x.guard.isNone && !x.isPub q

theorem witness_pushes : Unguarded (on tCmd) tCmd.core ∧
    (∀ q, (on tCmd).queueWaiters tCmd.core q = false ∧ ((on tCmd).core tCmd.core).queue q = []) ∧
    ∀ i ∈ pushForms, Issues i (on tCmd) tCmd placedFrag gCmd full ∧ active i gCmd full ≠ 0 ∧ ∃ q mk x, q < 2 ∧
      pushOf i (sees i (on tCmd) tCmd placedFrag) (begins i (on tCmd) tCmd placedFrag) = some (q, mk) ∧
      mk (seen i gCmd full) = .ok x ∧ Standing tCmd x ∧ x.isPub q = false := by
  refine ⟨no_heads _ _, fun q => ⟨rfl, ?_⟩, fun i hi => ?_⟩
  · show (if q = 0 then [] else []) = []
    split <;> rfl
  · have h : pushForms.all (fun i => pushOk i (on tCmd) tCmd gCmd) = true := by decide
    have h := List.all_eq_true.mp h i hi
    unfold pushOk at h
    split at h
    · cases h
    · rename_i q x hp
      simp only [Bool.and_eq_true, decide_eq_true_eq, Bool.not_eq_true', Option.isNone_iff_eq_none] at h
      obtain ⟨mk, h1, h2⟩ := pushed_spec hp
      refine ⟨issues_of rfl rfl rfl rfl (by decide) rfl rfl rfl rfl h.1.1.1.1, h.1.1.1.2, q, mk, x, h.1.1.2, h1, h2, ?_, h.2⟩
      intro n hn; rw [h.1.2] at hn; cases hn

/-- A full `q.cp` of commands of another team. -/
def fullCp : State := queued [] (List.replicate 16 { plainCmd with team := 9 }) tCmd

theorem witness_push_waits : let i : Instr := .qpushShort (sOps 1 8 0)
    Issues i fullCp tCmd placedFrag gCmd full ∧ Unguarded fullCp tCmd.core ∧ active i gCmd full ≠ 0 ∧
    16 ≤ ((fullCp.core tCmd.core).queue 1).length ∧ fullCp.headStuck tCmd 0 = none ∧ fullCp.headStuck tCmd 1 = none ∧
    ∃ mk x, pushOf i (sees i fullCp tCmd placedFrag) (begins i fullCp tCmd placedFrag) = some (1, mk) ∧
      mk (seen i gCmd full) = .ok x ∧ x.isPub 1 = false := by
  refine ⟨issues_of rfl rfl rfl rfl (by decide) rfl rfl rfl rfl (by decide), ?_, by decide, by decide, rfl, rfl, _, _, rfl,
    rfl, rfl⟩
  intro x h
  rcases h with h | h
  · cases h
  · cases h; rfl

theorem witness_blocked_push :
    let f : Frag := { placedFrag with st := .qpush 1 [plainCmd] 5 0x20004 }
    let t : Team := { tCmd with frags := [f] }
    ((on t).core t.core).queue 1 = [] ∧ (on t).nextWaiter t.core 1 = some (.push t.id f.id) ∧ (on t).team? t.id = some t ∧
    t.frag? f.id = some f ∧ f.lanes = [(gCmd.num, full)] ∧ t.group? gCmd.num = some gCmd ∧ plainCmd.group = gCmd.num ∧ (∀ o, plainCmd.instr ≠ some (.mmaJ o)) ∧
    ((on t).core t.core).dbg.step = false ∧ Unguarded (on t) t.core ∧ Standing t plainCmd :=
  ⟨rfl, by decide, rfl, rfl, rfl, rfl, rfl, fun _ => nofun, rfl, no_heads _ _, fun _ => nofun⟩

/-- A team that subscribes to a stream of its own, open or not yet. -/
def gPub : Group := { placedGroup with scal := [(6, 1), (7, 16)] }
def tPub (isOpen : Bool) : Team :=
  { tg gPub with
    bars := [(0, { scope := 2, count := 2, phase := 0, arr := 0 })]
    subs := if isOpen then [(1, { isOpen := true, base := 1024, slot := 64, w := 2, bar := 0, out := 0, next := 0, reserved := 0 })] else [] }
def pubX : XOps := { xOps 0 4 6 7 .b32 0x10000 with ka := .scal, kb := .scal, kc := .scal }

/-- The command that a `PUBLISH` forms. -/
def pubCmd (b : Bool) : Except Trap Cmd :=
  (sees (.publish pubX) (on (tPub b)) (tPub b) placedFrag).publishCmd (begins (.publish pubX) (on (tPub b)) (tPub b) placedFrag)
    (seen (.publish pubX) gPub full)

theorem no_publish (t : Team) (f : Frag) (h : t.frags = [f]) (hf : f.st = .ready) :
    ∀ k ∈ t.frags, ∀ l n, k.st ≠ .publish l n := by
  intro k hk l n
  rw [h] at hk
  rw [List.mem_singleton.mp hk, hf]; exact FState.noConfusion

theorem filed_on (t : Team) (h : t.id = 2) : Filed (on t) := by
  refine ⟨?_, show ([2] : List Nat).Nodup by decide⟩
  intro e he
  rw [List.mem_singleton.mp he]; exact h

theorem witness_publish : ∀ b ∈ [true, false], Issues (.publish pubX) (on (tPub b)) (tPub b) placedFrag gPub full ∧
    Unguarded (on (tPub b)) (tPub b).core ∧ Filed (on (tPub b)) ∧ active (.publish pubX) gPub full ≠ 0 ∧
    (∀ k ∈ (tPub b).frags, ∀ l n, k.st ≠ .publish l n) ∧ (on (tPub b)).queueWaiters (tPub b).core 1 = false ∧
    ((on (tPub b)).core (tPub b).core).queue 1 = [] ∧
    ∃ x, pubCmd b = .ok x ∧ Standing (tPub b) x ∧ (on (tPub b)).pubState (tPub b) x = (none, b) := by
  intro b hb
  simp only [List.mem_cons, List.not_mem_nil, or_false] at hb
  rcases hb with rfl | rfl <;>
    exact ⟨issues_of rfl rfl rfl rfl (by decide) rfl rfl rfl rfl (by decide), no_heads _ _, filed_on _ rfl, by decide,
      no_publish _ placedFrag rfl rfl, rfl, rfl, _, rfl, fun _ => nofun, rfl⟩

/-- A publication to rank 0 of stream 1. -/
def pubWait : Cmd := { id := 9, team := 2, kind := 5, body := [0x10001, 0, 0xF0000000, 16, 0, 0, 0] }

theorem witness_publish_reserve :
    let f : Frag := { placedFrag with st := .publish [pubWait] 0x2000C }
    let t : Team := { tPub true with frags := [f] }
    Unguarded (on t) t.core ∧ Filed (on t) ∧ (on t).team? t.id = some t ∧ t.frag? f.id = some f ∧
    f.lanes = [(gPub.num, full)] ∧ t.group? gPub.num = some gPub ∧ pubWait.group = gPub.num ∧
    ((on t).core t.core).dbg.step = false ∧ Standing t pubWait ∧ (on t).pubState t pubWait = (none, true) ∧
    (on t).queueWaiters t.core 1 = false ∧ ((on t).core t.core).queue 1 = [] :=
  ⟨no_heads _ _, filed_on _ rfl, rfl, rfl, rfl, rfl, rfl, rfl, fun _ => nofun, rfl, rfl, rfl⟩

/-- A machine with one command at work on core 0. -/
def working (c : Cmd) (t : Team) : State := { on t with cores := [(0, { started := [c] })], cur := none }

/-- Copies of one unit from scratch to scratch. -/
def copy1 (kind : Nat) : Cmd :=
  { id := 9, team := 2, kind := kind
    body := [if kind = 1 then 16 else 0x00401001, 0, 0xF0000000, 64, 0xF0000000, 0, 0] }

theorem witness_copies : ∀ e ∈ [(1, Instr.copy 0), (2, .copy2d 0), (3, .copy3d 0)],
    AtWork (working (copy1 e.1) placedTeam) 0 placedTeam (copy1 e.1) ∧ (copy1 e.1).kind = e.1 ∧
    ((e.1 = 1 ∧ e.2 = .copy 0) ∨ (e.1 = 2 ∧ e.2 = .copy2d 0) ∨ (e.1 = 3 ∧ e.2 = .copy3d 0)) ∧
    (copy1 e.1).shape.1 * (copy1 e.1).shape.2.1 * (copy1 e.1).shape.2.2 = (copy1 e.1).resume + 1 ∧
    addrAt ((copy1 e.1).pair 1) ((copy1 e.1).unitAt 0).1 = 0xF000000000000000 ∧
    addrAt ((copy1 e.1).pair 3) ((copy1 e.1).unitAt 0).2 = 0xF000000000000040 ∧ placedTeam.scrSize = 65536 ∧
    placedTeam.scrPoisoned 0 16 = false := by
  intro e he
  simp only [List.mem_cons, List.not_mem_nil, or_false] at he
  rcases he with rfl | rfl | rfl
  · exact ⟨⟨rfl, rfl, rfl, rfl, rfl, rfl, rfl, rfl⟩, rfl, .inl ⟨rfl, rfl⟩, by decide, by decide, by decide, rfl, by decide⟩
  · exact ⟨⟨rfl, rfl, rfl, rfl, rfl, rfl, rfl, rfl⟩, rfl, .inr (.inl ⟨rfl, rfl⟩), by decide, by decide, by decide, rfl, by decide⟩
  · exact ⟨⟨rfl, rfl, rfl, rfl, rfl, rfl, rfl, rfl⟩, rfl, .inr (.inr ⟨rfl, rfl⟩), by decide, by decide, by decide, rfl, by decide⟩

/-- A copy of two units, and the conditions of `CopyRuns` on the units that remain. -/
def copy2 : Cmd := { copy1 1 with body := [32, 0, 0xF0000000, 64, 0xF0000000, 0, 0] }
def copyRuns (t : Team) (c : Cmd) : Bool :=
  let total := c.shape.1 * c.shape.2.1 * c.shape.2.2
  decide (c.resume < total) && (List.range total).all (fun k =>
    [addrAt (c.pair 1) (c.unitAt k).1, addrAt (c.pair 3) (c.unitAt k).2].all (fun a =>
      fld a 56 8 == 0xF0 && fld a 0 56 % 16 == 0 && decide (fld a 0 56 + 16 ≤ t.scrSize) && !t.scrPoisoned (fld a 0 56) 16))

theorem witness_copy_runs : AtWork (working copy2 placedTeam) 0 placedTeam copy2 ∧ copy2.shape.1 * copy2.shape.2.1 * copy2.shape.2.2 = 2 ∧
    ∀ c ∈ [copy2, copy1 1, copy1 2, copy1 3], copyRuns placedTeam c = true := by
  refine ⟨⟨rfl, rfl, rfl, rfl, rfl, rfl, rfl, rfl⟩, by decide, fun c hc => ?_⟩
  simp only [List.mem_cons, List.not_mem_nil, or_false] at hc
  rcases hc with rfl | rfl | rfl | rfl <;> decide

/-- Copies of one unit out of memory and into it. -/
def copyIn (kind : Nat) : Cmd := { copy1 kind with body := [if kind = 1 then 16 else 0x00401001, 0x31000, 0, 64, 0xF0000000, 0, 0] }
def copyOut (kind : Nat) : Cmd := { copy1 kind with body := [if kind = 1 then 16 else 0x00401001, 0, 0xF0000000, 0x31000, 0, 0, 0] }

/-- The conditions of `CopyReachesMemory` on the side of the copy that is in memory, and on the one in scratch. -/
def copyPage (c : Cmd) (k : AKind) (a : Dword) (len : Nat) : Bool :=
  let s := working c placedTeam
  match (now s).translate 0 a k 16 c.priv with
  | .ok x => !x.packed && !s.migrating x.ea && !(now s).agentWaits (c.agent placedTeam len true) x &&
      adBits k &&& ~~~x.known &&& ~~~x.leaf == 0 && !s.poisoned x.pa 16
  | .error _ => false
def copyReach (c : Cmd) : Bool :=
  let src := addrAt (c.pair 1) (c.unitAt c.resume).1
  let dst := addrAt (c.pair 3) (c.unitAt c.resume).2
  let fits (a : Dword) : Bool := fld a 56 8 == 0xF0 && fld a 0 56 % 16 == 0 && decide (fld a 0 56 + 16 ≤ placedTeam.scrSize)
  decide (c.shape.1 * c.shape.2.1 * c.shape.2.2 = c.resume + 1) &&
    (if fld src 56 8 = 0 then copyPage c .load src (c.bursts c.resume src dst).1 && fits dst
     else fits src && fld dst 56 8 == 0 && copyPage c .store dst (c.bursts c.resume src dst).2)

theorem witness_copy_reaches : (∀ c ∈ [copyIn 1, copyIn 2, copyIn 3, copyOut 1, copyOut 2, copyOut 3], copyReach c = true) ∧
    AtWork (working (copyIn 1) placedTeam) 0 placedTeam (copyIn 1) ∧ AtWork (working (copyOut 1) placedTeam) 0 placedTeam (copyOut 1) := by
  refine ⟨fun c hc => ?_, ⟨rfl, rfl, rfl, rfl, rfl, rfl, rfl, rfl⟩, ⟨rfl, rfl, rfl, rfl, rfl, rfl, rfl, rfl⟩⟩
  simp only [List.mem_cons, List.not_mem_nil, or_false] at hc
  rcases hc with rfl | rfl | rfl | rfl | rfl | rfl <;> decide +kernel

def mcast1 : Cmd := { id := 9, team := 2, kind := 4, body := [16, 0, 0xF0000000, 64, 0, 1, 0] }

theorem witness_mcast : let s := working mcast1 placedTeam
    AtWork s 0 placedTeam mcast1 ∧ mcast1.kind = 4 ∧ Filed s ∧
    (ranksOf (fld (nth 0 mcast1.body 5) 0 16)).map (fun r => s.rankTeam placedTeam r) = [placedTeam].map some ∧
    (nth 0 mcast1.body 0).toNat / 16 = mcast1.resume + 1 ∧ addrAt (mcast1.pair 1) 0 = 0xF000000000000000 ∧
    placedTeam.scrPoisoned 0 16 = false ∧
    ∀ u ∈ [placedTeam], fld (mcast1.pair 3) 0 40 + (nth 0 mcast1.body 0).toNat ≤ u.scrSize :=
  ⟨⟨rfl, rfl, rfl, rfl, rfl, rfl, rfl, rfl⟩, rfl, filed_on _ rfl, rfl, by decide, by decide, by decide, by
    intro u hu; rw [List.mem_singleton.mp hu]; decide⟩

/-- The publication at work, its slot reserved. -/
def pub1 : Cmd := { pubWait with slots := [(0, 0)] }
def tSub : Team :=
  { placedTeam with
    bars := [(0, { scope := 2, count := 2, phase := 0, arr := 0 })]
    subs := [(1, { isOpen := true, base := 1024, slot := 64, w := 2, bar := 0, out := 1, next := 1, reserved := 1 })] }

theorem witness_publication_writes : let s := working pub1 tSub
    ∃ b bs v, AtWork s 0 tSub pub1 ∧ pub1.kind = 5 ∧ pub1.slots = [(0, 0)] ∧ s.rankTeam tSub 0 = some tSub ∧
    s.team? tSub.id = some tSub ∧ kfind pub1.sid tSub.subs = some b ∧ 0 ≤ b.next - b.reserved ∧
    (now s).readChunk tSub pub1 ((nth 0 pub1.body 3).toNat / 16) 0 [] = (.ok bs, v) ∧ v.teams = s.teams ∧
    bs.length = (nth 0 pub1.body 3).toNat :=
  ⟨_, _, _, ⟨rfl, rfl, rfl, rfl, rfl, rfl, rfl, rfl⟩, rfl, rfl, rfl, rfl, rfl, by decide, rfl, rfl, by decide⟩

/-- The buffers of a machine with one core's record. -/
theorem one_core (s : State) (k0 : Core) (h : s.cores = [(0, k0)]) (hb : k0.wbuf = []) : ∀ k, (s.core k).wbuf = [] := by
  intro k
  unfold State.core
  rw [h]
  by_cases hk : k = 0
  · subst hk; exact hb
  · have : kget ({} : Core) k [(0, k0)] = {} := by
      simp [kget, kfind, Ne.symm hk]
    rw [this]

/-- A machine whose page 0 of 64 MiB lies at 128 MiB, mapped by a table at 0x14000, and whose team may use the near tier. -/
def sMig (c : Cmd) : State :=
  { working c placedTeam with
    mem := layBytes (layBytes (working c placedTeam).mem 0x12000 (leBytes 8 0x14001)) 0x14000 (leBytes 8 0x8000C1F) }

def mig1 : Cmd := { id := 9, team := 2, kind := 6, priv := true, body := [0, 0, 0, 0x4000000, 0, 0, 0] }

set_option maxRecDepth 20000 in
theorem witness_migration_starts : let s := sMig mig1
    ∃ e lvl ea l, AtWork s 0 placedTeam mig1 ∧ mig1.kind = 6 ∧ bit (s.vi 0).troot 0 = true ∧ isNear 0x10000 = true ∧
    fld (s.vi 0).troot 13 35 * 8192 = 0x10000 ∧ fld (mig1.pair 1) 56 8 = 0 ∧
    fld (mig1.pair 1) 0 56 / 2 ^ fld (s.vi 0).cfg 0 6 = 0 ∧ s.migrating ea = false ∧
    (now s).walk 0 0 .prefetch (bit (s.vi 0).troot 1) (fld (s.vi 0).troot 52 12) [0, 1, 2, 3] 0x10000 [] = .ok (e, lvl, ea, l) ∧
    lvl ≠ 1 ∧ 0x4000000 % pageSize lvl = 0 ∧ isPopulated 0x4000000 = true ∧
    s.rangeRefuses 0 (0x4000000 / 65536) (0x4000000 / 65536 + leafLen e (pageSize lvl) / 65536 -
      (if leafLen e (pageSize lvl) < 65536 then 0 else 1)) = none ∧ 0x4000000 ≠ fld e 16 32 * 65536 :=
  ⟨0x8000C1F, 2, 0x14000, _, ⟨rfl, rfl, rfl, rfl, rfl, rfl, rfl, rfl⟩, rfl, by decide, by decide, by decide, by decide, by decide, by decide, rfl,
    by decide, by decide, by decide, by decide, by decide⟩

set_option maxRecDepth 20000 in
theorem witness_migration_copies :
    let c : Cmd := { mig1 with mig := some (0x14000, 0x8000C1F, 0, 0x4000000, 0x4000000) }
    let s := sMig c
    let e : Dword := w64 (leNat ((now s).bytesAs 0 0x14000 8))
    (s.core 0).started = [c] ∧ s.team? placedTeam.id = some placedTeam ∧ c.team = placedTeam.id ∧
    bit (s.vi 0).troot 1 = false ∧ bit e 9 = false ∧ bit (nth 0 c.body 0) 6 = false ∧ leafLen e 0x4000000 % 64 = 0 ∧
    (∀ k, (s.core k).wbuf = []) ∧ s.tickReq = [] ∧ s.tags = [] ∧ 0x4000000 + leafLen e 0x4000000 ≤ fld e 16 32 * 65536 ∧
    0x14000 + 8 ≤ fld e 16 32 * 65536 := by
  refine ⟨rfl, rfl, rfl, by decide, by decide, by decide, by decide, one_core _ _ rfl rfl, rfl, rfl, by decide, by decide⟩

theorem witness_command_completes : let c : Cmd := { copy1 1 with fin := true }
    let s := working c placedTeam
    (s.core 0).startedCmd c.id = some c ∧ c.fin = true ∧ c.slots = [] ∧ c.status ≠ 2 ∧ s.team? placedTeam.id = some placedTeam ∧
    c.team = placedTeam.id ∧ Unguarded s 0 := by
  refine ⟨rfl, rfl, rfl, by decide, rfl, rfl, ?_⟩
  intro x h; rcases h with h | h <;> cases h

/-! ### The matrix unit, subscriptions, the slew limiter -/

/-- Matrix commands: rows for strand 0, a clearing, a load, a swap, a transform, a conversion. -/
def mxForms : List Instr :=
  [.mma (xOps 0 10 0 0 .e4m3 0), .mmas { xOps 0 20 21 0 .e4m3 0 with ka := .scal, kb := .scal },
   .accz (xOps 2 0 0 0 .b32 0x800000), .mldw { xOps 0 19 0 0 .e4m3 0 with ka := .scal }, .mswap (xOps 1 0 0 0 .b32 0),
   .mhad (xOps 1 0 0 0 .f32 0), .mqnt { xOps 0 0 6 0 .qn4 0 with kb := .scal },
   .acccvt { xOps 2 4 0 0 .f16 0x800000 with ka := .scal }]

def mxCmdOf (i : Instr) : Cmd :=
  { id := 9, team := 2, kind := 1, instr := some i, sb := (match i with | .mqnt _ => 0 | _ => 0x80001), rows := [(0, List.replicate 32 0)] }

/-- The machine at the head of whose `q.mx` the command stands, with planes of the team in strand 0. -/
def mxState (i : Instr) : State :=
  { queued [mxCmdOf i] [] placedTeam with
    cores := [(0, { qmx := [mxCmdOf i], planes := [(0, { fmt := .e4m3, owner := 2, bytes := [] }), (1, { fmt := .e4m3, owner := 2, bytes := [] })] })] }

theorem witness_matrix : ∀ i ∈ mxForms, MxStarts (mxState i) 0 placedTeam (mxCmdOf i) i ∧
    ((∃ o, i = .mma o) ∨ (∃ o, i = .mmas o) → (mxCmdOf i).rowNums ≠ []) := by
  intro i hi
  simp only [mxForms, List.mem_cons, List.not_mem_nil, or_false] at hi
  rcases hi with rfl | rfl | rfl | rfl | rfl | rfl | rfl | rfl <;>
    exact ⟨⟨rfl, rfl, rfl, rfl, rfl, rfl, by intro x r h; rcases h with h | h <;> cases h⟩,
      by first | (intro _; decide) | (rintro (⟨o, h⟩ | ⟨o, h⟩) <;> cases h)⟩

/-- Joint commands: of every group of the team, and of groups 0 and 1. -/
def joint0 : XOps := { xOps 0 10 1 0 .e4m3 0 with kb := .vec }
def gSecond : Group := { placedGroup with num := 1, way := 1 }
def tJoint : Team := { placedTeam with bars := [(0, { scope := 2, count := 2, phase := 0, arr := 0 }), (1, { scope := 2, count := 2, phase := 0, arr := 0 })] }
def tJoint2 : Team := { tJoint with groups := [(0, placedGroup), (1, gSecond)], frags := [placedFrag, { placedFrag with id := 1, way := 1, lanes := [(1, full)] }] }

theorem witness_joint_arrives : let o := xOps 0 10 1 0 .e4m3 0
    (Issues (.mmaJ o) (on tJoint) tJoint placedFrag placedGroup full ∧ placedFrag.region = none ∧ Unguarded (on tJoint) tJoint.core ∧
      (∀ k ∈ tJoint.frags, ∀ j arr n, k.st ≠ .held j arr n) ∧ (tJoint.frags.map (fun k => k.id)).Nodup ∧
      (∀ k ∈ tJoint.jointNamed o.w3 [0], ∃ x, tJoint.group? k = some x ∧ x.finished = false) ∧
      (∀ k ∈ tJoint.jointNamed o.w3 [0], k = 0) ∧ (on tJoint).queueWaiters tJoint.core 0 = false ∧
      ((on tJoint).core tJoint.core).qmx.length < 32 ∧
      tJoint.badBars (tJoint.formCmd 0 false [w32 (1 + 16 * fld o.b 0 4)]) = none) ∧
    Issues (.mmaJ o) (on tJoint2) tJoint2 placedFrag placedGroup full ∧ Unguarded (on tJoint2) tJoint2.core ∧
      (∀ k ∈ tJoint2.frags, ∀ j arr n, k.st ≠ .held j arr n) ∧ placedFrag.region = none ∧ (tJoint2.frags.map (fun k => k.id)).Nodup ∧
      (∀ k ∈ tJoint2.jointNamed o.w3 [0], ∃ x, tJoint2.group? k = some x ∧ x.finished = false) ∧
      ∃ k ∈ tJoint2.jointNamed o.w3 [0], k ≠ 0 := by
  refine ⟨⟨issues_of rfl rfl rfl rfl (by decide) rfl rfl rfl rfl (by decide), rfl, no_heads _ _, no_held _ placedFrag rfl rfl,
      by decide, ?_, by decide, rfl, by decide, rfl⟩, issues_of rfl rfl rfl rfl (by decide) rfl rfl rfl rfl (by decide), no_heads _ _, ?_,
      rfl, by decide, ?_, 1,
      by decide, by decide⟩
  · intro k hk
    rw [show tJoint.jointNamed (xOps 0 10 1 0 .e4m3 0).w3 [0] = [0] by decide, List.mem_singleton] at hk
    subst hk; exact ⟨placedGroup, rfl, by decide⟩
  · intro k hk j arr n
    rcases List.mem_cons.mp hk with rfl | hk
    · exact FState.noConfusion
    · rw [List.mem_singleton.mp hk]; exact FState.noConfusion
  · intro k hk
    rw [show tJoint2.jointNamed (xOps 0 10 1 0 .e4m3 0).w3 [0] = [0, 1] by decide] at hk
    rcases List.mem_cons.mp hk with rfl | hk
    · exact ⟨placedGroup, rfl, by decide⟩
    · rw [List.mem_singleton.mp hk]; exact ⟨gSecond, rfl, by decide⟩

/-- Two groups whose fragments wait at one joint instruction. -/
def jWaits (k : Nat) : Frag :=
  { placedFrag with
    id := k, way := k, lanes := [(k, full)]
    st := .held (.mmaJ (xOps 0 10 1 0 .e4m3 0)) [{ group := k, lanes := full, act := full, seq := k }] 0x2000C }
def tJoined : Team := { tJoint2 with frags := [jWaits 0, jWaits 1] }

theorem witness_joint_forms : let o := xOps 0 10 1 0 .e4m3 0
    let s : State := { on tJoined with cur := none }
    ∃ arr, s.team? tJoined.id = some tJoined ∧ jWaits 0 ∈ tJoined.frags ∧ tJoined.frag? 0 = some (jWaits 0) ∧
    (jWaits 0).st = .held (.mmaJ o) arr 0x2000C ∧ Unguarded s tJoined.core ∧ (s.core tJoined.core).dbg.step = false ∧
    (tJoined.frags.map (fun k => k.id)).Nodup ∧ s.queueWaiters tJoined.core 0 = false ∧ (s.core tJoined.core).qmx.length < 32 ∧
    arr ≠ [] ∧ (∀ k ∈ tJoined.jointNamed o.w3 ((tJoined.jointArrivals (.mmaJ o) placedPc).map (fun a => a.2.group)),
      k ∈ (tJoined.jointArrivals (.mmaJ o) placedPc).map (fun a => a.2.group)) ∧
    (∀ a ∈ tJoined.jointArrivals (.mmaJ o) placedPc,
      tJoined.badBars (tJoined.formCmd a.2.group a.1.hm [w32 (1 + 16 * fld o.b 0 4)]) = none) ∧
    ∀ k ∈ tJoined.frags, ∀ a n, k.st = .held (.mmaJ o) a n →
      k.lanes ≠ [] ∧ ∀ e ∈ k.lanes, e.2 ≠ 0 ∧ (∃ x, tJoined.group? e.1 = some x) ∧ ∃ b ∈ a, b.group = e.1 := by
  refine ⟨_, rfl, .head _, rfl, rfl, ?_, rfl, by decide, rfl, by decide, by simp, by decide, by decide, ?_⟩
  · intro x h; rcases h with h | h <;> cases h
  · intro k hk a n h
    rcases List.mem_cons.mp hk with rfl | hk
    · cases h
      refine ⟨by decide, ?_⟩
      intro e he; rw [List.mem_singleton.mp he]; exact ⟨by decide, ⟨_, rfl⟩, _, .head _, rfl⟩
    · rw [List.mem_singleton.mp hk] at h ⊢
      cases h
      refine ⟨by decide, ?_⟩
      intro e he; rw [List.mem_singleton.mp he]; exact ⟨by decide, ⟨_, rfl⟩, _, .head _, rfl⟩

/-- A group that opens stream 1 with s4 and s5, and gives one slot back with s6. -/
def gSub : Group := { placedGroup with scal := [(4, 1024), (5, 0x100040), (6, 1)] }
def tSubs (r : Nat) : Team :=
  { tg gSub with
    bars := [(0, { scope := 2, count := 2, phase := 0, arr := 0 })]
    subs := [(1, { isOpen := true, base := 1024, slot := 64, w := 2, bar := 0, out := 2, next := 2, reserved := r })] }
def subX : XOps := { xOps 0 4 5 0 .b32 4 with ka := .scal, kb := .scal }
def relX : XOps := { xOps 0 6 0 0 .b32 5 with ka := .scal }
def closeX : XOps := xOps 0 0 0 0 .b32 6

theorem witness_subscribe :
    (Issues (.subscribe subX) (on tCmd) tCmd placedFrag gCmd full ∧ active (.subscribe subX) gCmd full ≠ 0) ∧
    (let t : Team := { tSubs 0 with subs := [] };
      Issues (.subscribe subX) (on t) t placedFrag gSub full ∧ active (.subscribe subX) gSub full ≠ 0 ∧
      fld subX.w3 0 2 = 0 ∧ fld subX.w3 6 4 < t.barsN ∧ (∃ b, kfind (fld subX.w3 6 4) t.bars = some b) ∧
      (∀ b, kfind (fld subX.w3 2 4) t.subs = some b → b.isOpen = false) ∧ fld (gSub.scalar 4) 0 4 = 0 ∧
      fld (gSub.scalar 5) 0 20 ≠ 0 ∧ fld (gSub.scalar 5) 0 20 % 16 = 0 ∧ fld (gSub.scalar 5) 24 8 = 0 ∧
      (gSub.scalar 4).toNat + (fld (gSub.scalar 5) 20 4 + 1) * fld (gSub.scalar 5) 0 20 ≤ t.scrSize) ∧
    (∀ e ∈ [(relX, 0), (closeX, 0), (closeX, 1)],
      Issues (.subscribe e.1) (on (tSubs e.2)) (tSubs e.2) placedFrag gSub full ∧ active (.subscribe e.1) gSub full ≠ 0 ∧
      ∃ b, kfind (fld e.1.w3 2 4) (tSubs e.2).subs = some b ∧ b.isOpen = true ∧ b.reserved = e.2 ∧
        (fld e.1.w3 0 2 = 1 → gSub.scalar 6 ≠ 0 ∧ (gSub.scalar 6).toNat ≤ b.out ∧ (gSub.scalar 6).toNat ≤ 16)) ∧
    Issues (.subscribe closeX) (on (tg gOff)) (tg gOff) placedFrag gOff full ∧ active (.subscribe closeX) gOff full = 0 := by
  refine ⟨⟨issues_of rfl rfl rfl rfl (by decide) rfl rfl rfl rfl (by decide), by decide⟩,
    ⟨issues_of rfl rfl rfl rfl (by decide) rfl rfl rfl rfl (by decide), by decide, by decide, by decide, ⟨_, rfl⟩, nofun, by decide,
      by decide, by decide, by decide, by decide⟩, ?_, group_issues _ rfl rfl rfl rfl (by decide), by decide⟩
  intro e he
  simp only [List.mem_cons, List.not_mem_nil, or_false] at he
  rcases he with rfl | rfl | rfl <;>
    exact ⟨issues_of rfl rfl rfl rfl (by decide) rfl rfl rfl rfl (by decide), by decide, _, rfl, rfl, rfl, by decide⟩

theorem witness_subscribe_closes :
    let f : Frag := { placedFrag with st := .subClose 1 0x2000C }
    let t : Team := { tSubs 0 with frags := [f] }
    ∃ b, (on t).team? t.id = some t ∧ t.frag? f.id = some f ∧ f.lanes = [(gSub.num, full)] ∧ t.group? gSub.num = some gSub ∧
    ((on t).core t.core).dbg.step = false ∧ f.st = .subClose 1 0x2000C ∧ kfind 1 t.subs = some b ∧ b.reserved = 0 :=
  ⟨_, rfl, rfl, rfl, rfl, rfl, rfl, rfl, rfl⟩

/-- The placed team in handler mode. -/
def fHand : Frag := { placedFrag with hm := true }
def gHand : Group := { placedGroup with hm := true }
def tHand : Team := { tg gHand with frags := [fHand] }

theorem witness_mcad : Issues (.mcad (xOps 0 0 0 0 .b32 4)) (on tHand) tHand fHand gHand full :=
  issues_of rfl rfl rfl rfl (by decide) rfl rfl rfl rfl (by decide)

/-- A command that waits for the injection of a row, and a machine on whose die it alone is at work. -/
def plane1 : Plane := { fmt := .e4m3, owner := 2, bytes := [] }
def rowCmd : Cmd := { mxCmdOf (.mma (xOps 0 10 0 0 .e4m3 0)) with inj := [(1, 1)], planes := [(0, plane1), (1, plane1), (2, plane1)] }
def sRow (n : Snub) (clk : Nat) (last : Option Nat) : State :=
  { on placedTeam with
    clock := { clk := clk }, cores := [(0, { started := [rowCmd], lastGrant := last })], snubs := [(0, n)], cur := none }

theorem row_stands (n : Snub) (clk : Nat) (last : Option Nat) (h : n.grantClk = none) :
    RowStands (sRow n clk last) 0 placedTeam rowCmd (.mma (xOps 0 10 0 0 .e4m3 0)) 1 1 [] (fun _ => plane1) where
  onDie := by decide
  started := rfl
  instr := rfl
  feeds := by decide
  ready := by simp [Core.rowReady, rowCmd, mxCmdOf, State.core, sRow, kget, kfind]
  others := by
    intro k _ hk
    simp [State.core, sRow, kget, kfind, Ne.symm hk]
  row := rfl
  paid := by decide
  team := rfl
  mine := rfl
  planes := by
    intro j hj
    have hs : rowCmd.strands = [0] := by decide
    rw [hs] at hj; rw [List.mem_singleton.mp hj]; rfl
  clean := ⟨rfl, rfl⟩
  turn := by
    have hd : dieOf 0 = 0 := by decide
    rw [hd]
    simp [State.snub, sRow, kget, kfind, h]

/-- The clauses of `RowsAreGranted` one by one: metering off; on, with a core that has been granted something lately, a row
that fits, one that alone exceeds the allowance, and one that does not fit; with a cold core, a clk that is no multiple of 4,
and one that is. -/
theorem witness_rows_granted :
    bit ({ inForce := 0 } : Snub).inForce 0 = false ∧
    (∀ n ∈ [({} : Snub), { a := 0 }, { a := 0, w := 7 }], n.grantClk = none ∧ bit n.inForce 0 = true ∧ n.floor ≤ n.w) ∧
    ((1 : Nat) + ({} : Snub).w ≤ ({} : Snub).a) ∧ (({ a := 0 } : Snub).w = 0 ∧ ({ a := 0 } : Snub).a < 1) ∧
    ¬ (1 + ({ a := 0, w := 7 } : Snub).w ≤ 0 ∨ (({ a := 0, w := 7 } : Snub).w = 0 ∧ 0 < 1)) ∧
    ((sRow {} 70 (some 69)).core 0).lastGrant = some 69 ∧ ¬ 69 + 64 < (sRow {} 70 (some 69)).clock.clk ∧
    ((sRow {} 71 none).core 0).lastGrant = none ∧ ((sRow {} 71 none).core 0).startOk = false ∧
    (sRow {} 71 none).clock.clk % 4 ≠ 0 ∧ (sRow {} 72 none).clock.clk % 4 = 0 := by
  refine ⟨by decide, ?_, by decide, by decide, by decide, rfl, by decide, rfl, rfl, by decide, by decide⟩
  intro n hn
  simp only [List.mem_cons, List.not_mem_nil, or_false] at hn
  rcases hn with rfl | rfl | rfl <;> decide

/-- A die without a request, a core of which received an injection in the window before. -/
def sFill : State :=
  { State.reset with clock := { clk := 64 }, cores := [(0, { injWin := some 0 })], snubs := [(0, { floor := 5, w := 1 })] }

theorem witness_fillers : bit (sFill.snub 0).inForce 0 = true ∧ (sFill.snub 0).grantClk ≠ some sFill.clock.clk ∧
    (∀ k, (sFill.core k).started = [] ∧ ∀ j, kfind j (sFill.core k).slot2 ≠ some sFill.clock.clk) ∧ sFill.clock.clk / 64 ≠ 0 := by
  refine ⟨by decide, by decide, fun k => ?_, by decide⟩
  by_cases h : k = 0
  · subst h; exact ⟨rfl, fun j => nofun⟩
  · have e : sFill.core k = {} := by simp [sFill, State.core, kget, kfind, Ne.symm h]
    rw [e]; exact ⟨rfl, fun j => nofun⟩

theorem witness_slew_limiter : (State.reset.snub 0).grantClk ≠ some State.reset.clock.clk ∧
    (let s : State := { State.reset with clock := { clk := 64 } };
      (s.snub 0).win < s.clock.clk / 64) ∧
    bit (State.reset.snub 0).inForce 0 = true ∧
    (let s : State := { State.reset with snubs := [(0, { w := 100, a := 256, floor := 0 })] };
      (s.snub 0).grantClk ≠ some s.clock.clk ∧ bit (s.snub 0).inForce 0 = true ∧ (s.snub 0).w ≠ 0 ∧
        (s.snub 0).w ≤ (s.snub 0).a ∧ (s.snub 0).floor ≤ (s.snub 0).a) := by decide

/-! ### Causes, stops and the handler -/

/-- The placed machine with another register file of its VI. -/
def onVi (v : ViCfg) (t : Team) : State := { on t with hub := { (on t).hub with vis := [(0, v)] } }

/-- A VI that traps every cause, one that halts on every cause. -/
def viTraps : ViCfg := { placedVi with trapCfg := 1, trapEntry := 0x20000, trapMask := 0xFFFFFFFFFFFFFFFF }
def viHalts : ViCfg := { placedVi with dbgHalt := 0xFFFFFFFFFFFFFFFF }

theorem issues_onVi {i : Instr} {v : ViCfg} (h : fits i (onVi v placedTeam) placedTeam placedFrag = true) :
    Issues i (onVi v placedTeam) placedTeam placedFrag placedGroup full :=
  issues_of rfl rfl rfl rfl (by decide) rfl rfl rfl rfl h

theorem faces_placed (v : ViCfg) : Faces (onVi v placedTeam) placedTeam placedFrag placedGroup full :=
  ⟨rfl, rfl, rfl, rfl, by decide, rfl, rfl, rfl⟩

/-- Instructions whose fields are good but which the placed team may not issue: privileged ones, and a role that its
grid has not. -/
def refusedLive : List (Instr × Cause) :=
  [(.mcad (xOps 0 0 0 0 .b32 4), .privileged), (.rdsr (xOps 6 0x20 0 0 .b32 0), .privileged), (.xch (xOps 6 10 4 3 .b32 0), .roleUnbound)]

theorem witness_causes : (∀ e ∈ illFormed, (form e.1).isSome = true ∧ fieldCause e.1 false = some e.2) ∧
    (∀ e ∈ refusedLive, (form e.1).isSome = true ∧ fieldCause e.1 false = none ∧
      ∀ v ∈ [placedVi, viTraps, viHalts], (onVi v placedTeam).liveCause placedTeam placedFrag e.1 = some e.2) ∧
    (∀ v, Faces (onVi v placedTeam) placedTeam placedFrag placedGroup full) ∧
    (placedFrag.hm = false ∧ Alone placedTeam placedFrag placedGroup ∧ (placedTeam.frags.map (fun k => k.id)).Nodup ∧
      ∀ k ∈ placedTeam.frags, k.id < placedTeam.nextFrag) ∧
    (onVi viTraps placedTeam).fate placedTeam false .reservedField = .handler ∧
    (onVi viHalts placedTeam).fate placedTeam false .reservedField = .halt ∧
    (onVi placedVi placedTeam).fate placedTeam false .reservedField = .team := by
  refine ⟨?_, ?_, faces_placed, ⟨rfl, ?_, by decide, by decide⟩, by decide, by decide, by decide⟩
  · intro e he
    have h : illFormed.all (fun e => (form e.1).isSome && decide (fieldCause e.1 false = some e.2)) = true := by decide
    have := List.all_eq_true.mp h e he
    rwa [Bool.and_eq_true, decide_eq_true_eq] at this
  rotate_left
  · intro x hx h
    rw [List.mem_singleton.mp hx] at h; exact absurd rfl h
  · have h : refusedLive.all (fun e => (form e.1).isSome && (fieldCause e.1 false).isNone && [placedVi, viTraps, viHalts].all (fun v =>
      decide ((onVi v placedTeam).liveCause placedTeam placedFrag e.1 = some e.2))) = true := by decide
    intro e he
    have := List.all_eq_true.mp h e he
    simp only [Bool.and_eq_true, Option.isNone_iff_eq_none] at this
    exact ⟨this.1.1, this.1.2, fun v hv => of_decide_eq_true (List.all_eq_true.mp this.2 v hv)⟩

/-- A group whose v10 is poisoned in lane 3. -/
def gBad : Group := { placedGroup with regPoison := [323] }
def addI : Instr := .iadd (xOps 6 10 4 0 .s32 0)

theorem witness_poisoned_operand : ∃ n v, Faces (on (tg gBad)) (tg gBad) placedFrag gBad full ∧ (form addI).isSome = true ∧
    fieldCause addI placedFrag.hm = none ∧ Alone (tg gBad) placedFrag gBad ∧ (on (tg gBad)).liveCause (tg gBad) placedFrag addI = none ∧
    laneOf addI (ctx addI (on (tg gBad)) (tg gBad) placedFrag) (gctx addI gBad full) = some (n, v) ∧
    (sees addI (on (tg gBad)) (tg gBad) placedFrag).poisonedOperand (seen addI gBad full) = true :=
  ⟨_, _, ⟨rfl, rfl, rfl, rfl, by decide, rfl, rfl, rfl⟩, by decide, by decide,
    fun x hx h => absurd (congrArg Frag.id (List.mem_singleton.mp hx)) h, by decide, rfl, by decide⟩

/-- A fragment with every exception enabled, whose group adds infinities of unlike signs in lane 0. -/
def fExc : Frag := { placedFrag with fmt := 0x1F0 }
def gExc : Group := { placedGroup with regs := [(128, 0xFF800000), (320, 0x7F800000)] }
def tExc : Team := { tg gExc with frags := [fExc] }
def faddI : Instr := .fadd (xOps 6 10 4 0 .f32 0)

theorem witness_enabled_exception : ∃ v, Issues faddI (on tExc) tExc fExc gExc full ∧
    floatOf faddI (ctx faddI (on tExc) tExc fExc) = some v ∧ ¬ Untrapped fExc (active faddI gExc full) (v (gctx faddI gExc full)) := by
  refine ⟨_, issues_of rfl rfl rfl rfl (by decide) rfl rfl rfl rfl (by decide), rfl, ?_⟩
  intro h
  exact absurd (h 0 (by decide) (by decide)) (by decide)

def trapForms : List Instr := pick wordsSystem (fun i => (stopOf i).isSome)

theorem witness_trap_instructions : trapForms.length = 4 ∧ (∀ i ∈ trapForms, Issues i m0 placedTeam placedFrag placedGroup full ∧
      ((stopOf i).isSome && decide (active i placedGroup full ≠ 0)) = true) ∧
    (∀ i ∈ trapForms, Issues i (onVi viTraps placedTeam) placedTeam placedFrag placedGroup full) ∧
    ∀ i ∈ trapForms, Issues i (on (tg gOff)) (tg gOff) placedFrag gOff full ∧ active i gOff full = 0 := by
  refine ⟨by decide, issues_each (by decide), ?_, ?_⟩
  · intro i hi
    have h : trapForms.all (fun i => fits i (onVi viTraps placedTeam) placedTeam placedFrag) = true := by decide
    exact issues_onVi (List.all_eq_true.mp h i hi)
  · intro i hi
    have h : trapForms.all (fun i => fits i (on (tg gOff)) (tg gOff) placedFrag && decide (active i gOff full = 0)) = true := by decide
    have := List.all_eq_true.mp h i hi
    rw [Bool.and_eq_true] at this
    exact ⟨group_issues _ rfl rfl rfl rfl this.1, of_decide_eq_true this.2⟩

/-! ### Meshlets, tiles, rays, samples -/

/-- Words laid out in a team's scratch from its beginning, and a group with one lane whose registers hold some words. -/
def scrOf (ws : List Word) : List (Nat × Byte) := ((List.range (4 * ws.length)).zip (wordBytes ws)).filter (fun e => e.2 != 0)
def inLane0 (l : List (Nat × Word)) : Group := { placedGroup with exec := 1, regs := l.map (fun e => (32 * e.1, e.2)) }

/-- The graphics instructions that act once per group. -/
def onceForms : List Instr := pick (wordsGraphics ++ wordsSystem) oncePerGroup

theorem witness_inactive_groups : onceForms.length = 15 ∧ ∀ i ∈ onceForms,
    Issues i (on (tg gOff)) (tg gOff) placedFrag gOff full ∧ active i gOff full = 0 := by
  refine ⟨by decide, fun i hi => ?_⟩
  have h : onceForms.all (fun i => fits i (on (tg gOff)) (tg gOff) placedFrag && decide (active i gOff full = 0)) = true := by decide
  have := List.all_eq_true.mp h i hi
  rw [Bool.and_eq_true] at this
  exact ⟨group_issues _ rfl rfl rfl rfl this.1, of_decide_eq_true this.2⟩

/-- A binding of views 0 to 3, and a meshlet of 3 vertices and 1 primitive for view 0, open. -/
def bind1 : Binding := { base := 0, vmask := 15, strips := 1, tx := 1, ty := 1, natt := 0 }
def openMesh (strict : Bool) : Mesh :=
  { isOpen := true, buf := 64, vmask := 1, vmax := 3, pmax := 1, nattr := 0, strict := strict }

/-- `VAMP` of a buffer at 64 for view 0, 3 vertices and 1 primitive. -/
def vampI : XOps := xOps 0 10 4 0 .b32 0x203
def gVamp : Group := inLane0 [(4, 1), (10, 64)]
def tVamp : Team := { tg gVamp with binding := some bind1 }

theorem witness_vamp : Issues (.vamp vampI) (on tVamp) tVamp placedFrag gVamp full ∧
    (let off := ((ctx (.vamp vampI) (on tVamp) tVamp placedFrag).groupA (gctx (.vamp vampI) gVamp full) 1).toNat
     let mask := ((ctx (.vamp vampI) (on tVamp) tVamp placedFrag).groupB (gctx (.vamp vampI) gVamp full) 1).toNat
     active (.vamp vampI) gVamp full ≠ 0 ∧ off % 64 = 0 ∧
     off + 4 * (4 + fld vampI.w3 18 5) * fld vampI.w3 0 9 + 8 * fld vampI.w3 9 9 ≤ tVamp.scrSize ∧
     tVamp.binding = some bind1 ∧ mask ≠ 0 ∧ mask < 65536 ∧ (∀ v, v < 16 → mask / 2 ^ v % 2 = 1 → bind1.vmask / 2 ^ v % 2 = 1)) :=
  ⟨issues_of rfl rfl rfl rfl (by decide) rfl rfl rfl rfl (by decide), by decide, by decide, by decide, rfl, by decide, by decide,
    by decide⟩

/-- An emission at vertex or primitive 0, into a strict meshlet and into one that is not. -/
def gMesh (strict : Bool) : Group := { inLane0 [] with mesh := openMesh strict }

theorem witness_emission : ∀ b ∈ [true, false], ∀ i ∈ [Instr.vout (xOps 0 10 4 0 .b32 0), .pout (xOps 0 10 4 14 .b32 0)],
    Issues i (on (tg (gMesh b))) (tg (gMesh b)) placedFrag (gMesh b) full ∧ active i (gMesh b) full ≠ 0 ∧
    (gMesh b).mesh.isOpen = true ∧ ∃ vertex inside place bytes,
    emission i (ctx i (on (tg (gMesh b))) (tg (gMesh b)) placedFrag) (gctx i (gMesh b) full) = some (vertex, inside, place, bytes) ∧
    maskOf (fun l => bit (active i (gMesh b) full) l && !inside l) = 0 := by
  intro b hb i hi
  simp only [List.mem_cons, List.not_mem_nil, or_false] at hb hi
  rcases hb with rfl | rfl <;> rcases hi with rfl | rfl <;>
    exact ⟨issues_of rfl rfl rfl rfl (by decide) rfl rfl rfl rfl (by decide), by decide, rfl, _, _, _, _, rfl, by decide⟩

/-- `MSETCNT` of 3 vertices and 1 primitive. -/
def setI : XOps := xOps 0 10 0 0 .b32 0
def gSet : Group := { inLane0 [(10, 0x203)] with mesh := openMesh false }

theorem witness_msetcnt : Issues (.msetcnt setI) (on (tg gSet)) (tg gSet) placedFrag gSet full ∧
    active (.msetcnt setI) gSet full ≠ 0 ∧ gSet.mesh.isOpen = true ∧ gSet.mesh.strict ≠ true ∧
    gSet.inflight + gSet.qix.length < 8 :=
  ⟨issues_of rfl rfl rfl rfl (by decide) rfl rfl rfl rfl (by decide), by decide, rfl, by decide, by decide⟩

theorem witness_mflag : ∀ i ∈ pick wordsGraphics (fun i => i matches .mflagShort _ | .mflag _),
    Issues i m0 placedTeam placedFrag placedGroup full ∧ decide (active i placedGroup full ≠ 0) = true := issues_each (by decide)

/-- The placed VI owns output 0 and view 0. -/
def shows (t : Team) : State :=
  { on t with
    hub := { (on t).hub with
      disps := [(0, { cfg := 0x0000800000110011 ||| 0x1100 })]
      views := [(0, { cfg := 0x10101 })] }
    dispds := [(0, { t0 := some 0 })] }

/-- `TILEBIND` of one strip of one tile for view 0. -/
def bindI : XOps := { xOps 0 16 17 18 .b32 0 with ka := .scal, kb := .scal, kc := .scal }
def gBind : Group := { placedGroup with scal := [(16, 0), (17, 0x10001), (18, 0x101)] }
def busyReq : Req := .mesh 9 0 64 1 3 4 [] 0 0 0
def tBind (l : List Req) : Team := { tg gBind with reqs := l }
def bindWords : Word × Word × Word := (0, 0x10001, 0x101)

def isOk {α β : Type} : Except α β → Bool
  | .ok _ => true
  | .error _ => false
theorem exists_ok {α β : Type} {x : Except α β} (h : isOk x = true) : ∃ b, x = .ok b := by
  cases x with
  | ok b => exact ⟨b, rfl⟩
  | error e => cases h

theorem witness_bindings : ∀ l ∈ [[], [busyReq]],
    (Issues (.tilebind bindI) (shows (tBind l)) (tBind l) placedFrag gBind full ∧ active (.tilebind bindI) gBind full ≠ 0 ∧
      (((ctx (.tilebind bindI) (shows (tBind l)) (tBind l) placedFrag).groupA (gctx (.tilebind bindI) gBind full) 1).setWidth 32,
        ((ctx (.tilebind bindI) (shows (tBind l)) (tBind l) placedFrag).groupB (gctx (.tilebind bindI) gBind full) 1).setWidth 32,
        ((ctx (.tilebind bindI) (shows (tBind l)) (tBind l) placedFrag).groupC (gctx (.tilebind bindI) gBind full) 1).setWidth 32)
        = bindWords ∧
      ∃ b, (shows (tBind l)).bindingOf (tBind l) bindWords.1 bindWords.2.1 bindWords.2.2 = .ok b) ∧
    Issues (.tilerel (xOps 0 0 0 0 .b32 0)) (shows (tBind l)) (tBind l) placedFrag gBind full ∧
      active (.tilerel (xOps 0 0 0 0 .b32 0)) gBind full ≠ 0 := by
  intro l hl
  simp only [List.mem_cons, List.not_mem_nil, or_false] at hl
  rcases hl with rfl | rfl <;>
    exact ⟨⟨issues_of rfl rfl rfl rfl (by decide) rfl rfl rfl rfl (by decide), by decide, by decide, exists_ok (by decide)⟩,
      issues_of rfl rfl rfl rfl (by decide) rfl rfl rfl rfl (by decide), by decide⟩

theorem witness_binding_proceeds : ∀ w ∈ [none, some bindWords],
    let f : Frag := { placedFrag with st := .tilebind w 0x2000C }
    let t : Team := { tBind [] with frags := [f] }
    (on t).team? t.id = some t ∧ t.frag? f.id = some f ∧ f.lanes = [(gBind.num, full)] ∧ t.group? gBind.num = some gBind ∧
    ((on t).core t.core).dbg.step = false ∧ f.st = .tilebind w 0x2000C ∧ t.reqs = [] ∧ t.reqDone = [] := by
  intro w _
  exact ⟨rfl, rfl, rfl, rfl, rfl, rfl, rfl, rfl⟩

/-- `TILEDONE` of the tile at column 0, row 0 of output 0, in frame 0, and of one of another frame. -/
def doneI : XOps := xOps 6 10 4 0 .b32 0
def gDone (w : Word) : Group := inLane0 [(4, w), (10, 0)]

theorem witness_tiledone : (shows (tg (gDone 0))).takesTiles 0 0 = true ∧
    (∀ w ∈ [(0 : Word), 0x1000000, 1], let g := gDone w; let s := shows (tg g)
      Issues (.tiledone doneI) s (tg g) placedFrag g full ∧ active (.tiledone doneI) g full ≠ 0 ∧
      ((ctx (.tiledone doneI) s (tg g) placedFrag).groupA (gctx (.tiledone doneI) g full) 1) = 0 ∧
      (((ctx (.tiledone doneI) s (tg g) placedFrag).groupB (gctx (.tiledone doneI) g full) 1).setWidth 32 : Word) = w) ∧
    0 < ((shows (tg (gDone 0))).disp 0).nstrip ∧ 0 < ((shows (tg (gDone 0))).disp 0).wt ∧
    (((shows (tg (gDone 0))).disp 0).rows 0).1 ≤ 0 ∧ 0 < (((shows (tg (gDone 0))).disp 0).rows 0).2 := by
  refine ⟨by decide, ?_, by decide, by decide, by decide, by decide⟩
  intro w hw
  simp only [List.mem_cons, List.not_mem_nil, or_false] at hw
  rcases hw with rfl | rfl | rfl <;>
    exact ⟨issues_of rfl rfl rfl rfl (by decide) rfl rfl rfl rfl (by decide), by decide, by decide, by decide⟩

/-- `RAYL` of a record of one ray in scratch; `RAYQ` of a ray without a direction. -/
def rayWords : List Word := [0, 0, 0, 1, 64, 0xF0000000, 128, 0xF0000000]
def raylI : XOps := xOps 0 10 4 0 .b32 0
def rayqI : XOps := xOps 0 0 10 0 .b32 0
def gRay : Group := inLane0 []
def tRay : Team := { tg gRay with scr := scrOf rayWords }

theorem witness_rays_begin :
    (let ws := bytesWords (tRay.scrRead 0 128);
      Issues (.rayl raylI) (on tRay) tRay placedFrag gRay full ∧ active (.rayl raylI) gRay full ≠ 0 ∧
      ((ctx (.rayl raylI) (on tRay) tRay placedFrag).groupA (gctx (.rayl raylI) gRay full) 1).toNat = 0 ∧
      tRay.scrPoisoned 0 128 = false ∧ rayMalformed ws = false ∧ bit (nth 0 ws 2) 0 = false ∧
      gRay.inflight + gRay.qix.length < 8) ∧
    Issues (.rayq rayqI) (on tRay) tRay placedFrag gRay full ∧ active (.rayq rayqI) gRay full ≠ 0 ∧
    ∀ l, l < 32 → (let r := (ctx (.rayq rayqI) (on tRay) tRay placedFrag).srcB (gctx (.rayq rayqI) gRay full) 2 l;
      fld r 56 8 = 0 ∧ fld r 0 7 = 0) :=
  ⟨⟨issues_of rfl rfl rfl rfl (by decide) rfl rfl rfl rfl (by decide), by decide, by decide, by decide, by decide, by decide,
    by decide⟩, issues_of rfl rfl rfl rfl (by decide) rfl rfl rfl rfl (by decide), by decide, by decide⟩

/-- A meshlet and a ray request of the placed team, and a record of a request carried out. -/
def rayReq : Req := .rays 10 0 (rayWords ++ List.replicate 24 0) 5 false
def tReqs : Team := { tRay with reqs := [busyReq, rayReq], reqDone := [(11, 0, [1, 2, 3, 4, 5, 6, 7, 8]), (12, 0, [0x1021, 0, 0, 0, 0, 0, 0, 0])] }

set_option maxRecDepth 20000 in
theorem witness_requests : let s : State := { on tReqs with cur := none }
    s.team? tReqs.id = some tReqs ∧ s.reqTeam 0 9 = some (tReqs, .mesh 9 0 64 1 3 4 [] 0 0 0) ∧
    (∃ rec v, s.reqTeam 0 10 = some (tReqs, .rays 10 0 (rayWords ++ List.replicate 24 0) 5 false) ∧
      (now s).rayRequest tReqs (rayWords ++ List.replicate 24 0) 5 false = some (rec, v)) ∧
    s.teams.find? (fun e => e.2.core == 0 && e.2.reqDone.any (fun r => r.1 == 11)) = some (tReqs.id, tReqs) ∧
    (∃ rec, tReqs.reqDone.find? (fun r => r.1 == 11) = some (11, gRay.num, rec) ∧ fld (nth 0 rec 0) 4 8 ≠ 2) ∧
    s.teams.find? (fun e => e.2.core == 0 && e.2.reqDone.any (fun r => r.1 == 12)) = some (tReqs.id, tReqs) ∧
    (∃ rec, tReqs.reqDone.find? (fun r => r.1 == 12) = some (12, gRay.num, rec) ∧ fld (nth 0 rec 0) 4 8 = 2) ∧
    tReqs.group? gRay.num = some gRay :=
  ⟨rfl, rfl, ⟨_, _, rfl, rfl⟩, rfl, ⟨_, rfl, by decide⟩, rfl, ⟨_, rfl, by decide⟩, rfl⟩

set_option maxRecDepth 20000 in
theorem witness_rayq_traces :
    let rays : List RayLane := [{ lane := 0, root := 0xF000000000000080, ray := List.replicate 8 0 }]
    let f : Frag := { placedFrag with st := .rayq (.rayq rayqI) rays 0x2000C }
    let t : Team := { tRay with frags := [f] }
    let s : State := { on t with cur := none }
    ∃ l v, s.team? t.id = some t ∧ t.frag? f.id = some f ∧ f.lanes = [(gRay.num, full)] ∧ t.group? gRay.num = some gRay ∧
    t.frags.find? (fun k => (match k.st with | .rayq _ _ _ => true | _ => false) && k.lanes.any (fun e => e.1 == gRay.num)) = some f ∧
    (s.core t.core).dbg.step = false ∧
    (∀ r ∈ rays, r.lane / 32 = gRay.num) ∧ (∀ r ∈ rays, (now s).rootWaits t r.root gRay.hm = false) ∧
    rayqLanes t gRay rayqI none rays (now s) = some (l, v) ∧ (∀ e ∈ l, ∀ c a, e.2 = .fault c a → c = .poisonRead) ∧
    (now s).rayqWatched t gRay rayqI rays = none := by
  refine ⟨[(0, .ok none)], _, rfl, rfl, rfl, rfl, rfl, rfl, by decide, by decide, rfl, ?_, by decide⟩
  intro e he c a h
  rw [List.mem_singleton.mp he] at h; cases h

/-- A descriptor of one texel in memory, in two and in three dimensions; one of a border all around. -/
def descWords (vol : Bool) (edge : Nat) : List Word :=
  [0x30000, 0, 0, w32 ((if vol then 0x120000 else 0x20000) + edge * 0x5000000 + (if vol then edge * 0x10000000 else 0)), 4,
   if vol then 4 else 0, 0, 0]
def tSamp (vol : Bool) (edge : Nat) : Team := { tg gRay with scr := scrOf (descWords vol edge) }

/-- The check that `SAMPLE` or `SAMPLEV` makes leaves its lanes and the machine as it was. -/
def sampleOk (vol : Bool) (i : Instr) (edge : Nat) : Prop :=
  let t := tSamp vol edge
  ∃ ls, (sees i (on t) t placedFrag).sampleCheck vol (seen i gRay full) (begins i (on t) t placedFrag) =
    (.ok ls (goesOn i placedFrag), begins i (on t) t placedFrag)

set_option maxRecDepth 20000 in
theorem witness_samples : ∀ e ∈ [(false, Instr.sample (xOps 20 10 4 0 .b32 0)), (true, .samplev (xOps 6 10 4 0 .b32 0))],
    Issues e.2 (on (tSamp e.1 0)) (tSamp e.1 0) placedFrag gRay full ∧ sampleOk e.1 e.2 0 := by
  intro e he
  simp only [List.mem_cons, List.not_mem_nil, or_false] at he
  rcases he with rfl | rfl <;>
    exact ⟨issues_of rfl rfl rfl rfl (by decide) rfl rfl rfl rfl (by decide), _, rfl⟩

/-- A lane whose texel is outside a texture with a border. -/
def gOut : Group := inLane0 [(10, 0xC1000000)]
def tOut (vol : Bool) : Team := { tg gOut with scr := scrOf (descWords vol 2) }

theorem witness_samples_outside : ∀ e ∈ [(false, Instr.sample (xOps 20 10 4 0 .b32 0)), (true, .samplev (xOps 6 10 4 0 .b32 0))],
    ∃ ls, Issues e.2 (on (tOut e.1)) (tOut e.1) placedFrag gOut full ∧
    (sees e.2 (on (tOut e.1)) (tOut e.1) placedFrag).sampleCheck e.1 (seen e.2 gOut full) (begins e.2 (on (tOut e.1)) (tOut e.1) placedFrag)
      = (.ok ls (goesOn e.2 placedFrag), begins e.2 (on (tOut e.1)) (tOut e.1) placedFrag) ∧ ∀ x ∈ ls, x.2.reads = [] := by
  intro e he
  simp only [List.mem_cons, List.not_mem_nil, or_false] at he
  rcases he with rfl | rfl <;>
    exact ⟨_, issues_of rfl rfl rfl rfl (by decide) rfl rfl rfl rfl (by decide), rfl, by decide⟩

/-! ### Emissions, launches, special registers, the splice -/

/-- A work graph of two nodes, the first of which emits to itself and to the second. -/
def graphGrid (depth : Nat) : Grid :=
  { placedGrid with
    rc := { placedGrid.rc with graph := true, extra := List.replicate 8 0 ++ [0, 0, 0, 0, 0, 0, 0, 0, 255, 255, 0, 0, 0, 0, 0, 0, 2] ++ List.replicate 23 0 }
    nodes := [{ entry := placedPc, rsz := 1, maxdepth := depth, succmask := 3 }, { entry := placedPc, rsz := 1, maxdepth := depth, succmask := 0 }] }

/-- A group that emits the 16 bytes at 64 to node 1. -/
def gEmit : Group := inLane0 [(10, 0x2100040)]
def sEmit (depth : Nat) : State := { on (tg gEmit) with grids := [(1, graphGrid depth)] }

def emitForms : List Instr :=
  [.emitShort (sOps 0 10 0), .emit (xOps 0 10 0 0 .b32 0), .emitqShort (sOps 6 10 0), .emitq (xOps 6 10 0 0 .b32 0)]

set_option maxRecDepth 8000 in
theorem witness_emissions : ∀ i ∈ emitForms,
    Issues i (sEmit 1) (tg gEmit) placedFrag gEmit full ∧
    (∃ n, Emits i (sEmit 1) (tg gEmit) placedFrag gEmit full (graphGrid 1) 64 1 1 n ∧ (if 1 = (tg gEmit).node then 1 else 0) ≤ n.maxdepth) ∧
    (sEmit 1).dequeFull 0 (graphGrid 1) 16 = false ∧ (tg gEmit).scrPoisoned 64 16 = false := by
  intro i hi
  simp only [emitForms, List.mem_cons, List.not_mem_nil, or_false] at hi
  rcases hi with rfl | rfl | rfl | rfl <;>
    exact ⟨issues_of rfl rfl rfl rfl (by decide) rfl rfl rfl rfl (by decide),
      ⟨_, ⟨by decide, by decide, by decide, by decide, by decide, by decide, rfl, rfl, rfl, ⟨_, rfl, by decide⟩, rfl⟩, by decide⟩,
      by decide, by decide⟩

/-- A group that emits to its own node, whose depth is at its limit. -/
def gSelf : Group := inLane0 [(10, 0x100040)]

theorem witness_emissions_exceed : ∀ i ∈ [Instr.emitqShort (sOps 6 10 0), .emitq (xOps 6 10 0 0 .b32 0)],
    let s : State := { on (tg gSelf) with grids := [(1, graphGrid 0)] }
    Issues i s (tg gSelf) placedFrag gSelf full ∧
    ∃ n, Emits i s (tg gSelf) placedFrag gSelf full (graphGrid 0) 64 1 0 n ∧
      ¬ (if 0 = (tg gSelf).node then (tg gSelf).depth + 1 else 0) ≤ n.maxdepth := by
  intro i hi
  simp only [List.mem_cons, List.not_mem_nil, or_false] at hi
  rcases hi with rfl | rfl <;>
    exact ⟨issues_of rfl rfl rfl rfl (by decide) rfl rfl rfl rfl (by decide),
      _, ⟨by decide, by decide, by decide, by decide, by decide, by decide, rfl, rfl, rfl, ⟨_, rfl, by decide⟩, rfl⟩, by decide⟩

/-- A launch record of one team of 32 lanes and 8 registers, at the beginning of scratch. -/
def launchRec : List Word := [0x20000, 0, 7, 0x200000, 0x10001, 0x1110001, 8]
def gLaunch : Group := inLane0 [(11, 0xF0000000)]
def tLaunch : Team := { tg gLaunch with scr := scrOf launchRec }

/-- Whether a record that a launch names is read and accepted. -/
def launchOk (i : Instr) : Bool :=
  let c := sees i (on tLaunch) tLaunch placedFrag
  let gc := seen i gLaunch full
  let u := (begins i (on tLaunch) tLaunch placedFrag).drainVi 0 0
  match (c.locateAll gc .load 16 ((List.range 8).map (fun k => (0, c.groupA gc 2 + w64 (16 * k)))) u).1 with
  | .ok hits _ =>
    match c.launchBytes gc hits (u.drainVi 0 0) with
    | (.ok bs, v) => (match (v.accept 0 bs).1 with | .ok r => decide ((v.grid? r.id).isNone) | _ => false)
    | _ => false
  | _ => false

set_option maxRecDepth 8000 in
theorem witness_launch : ∀ i ∈ [Instr.launchShort (sOps 0 10 0), .launch (xOps 0 10 0 0 .b32 0)],
    Issues i (on tLaunch) tLaunch placedFrag gLaunch full ∧ active i gLaunch full ≠ 0 ∧ launchOk i = true ∧
    (sees i (on tLaunch) tLaunch placedFrag).groupA (seen i gLaunch full) 2 = 0xF000000000000000 := by
  intro i hi
  simp only [List.mem_cons, List.not_mem_nil, or_false] at hi
  rcases hi with rfl | rfl <;>
    exact ⟨issues_of rfl rfl rfl rfl (by decide) rfl rfl rfl rfl (by decide), by decide, by decide, by decide⟩

theorem witness_icinv : ∀ i ∈ pick wordsSystem (fun i => i matches .icinvShort _ | .icinv _),
    Issues i m0 placedTeam placedFrag placedGroup full ∧ true = true := issues_each (by decide)

/-- `WRSR` of the pair v2, v3 to a special register, in handler mode. -/
def wrsrForms (n : Nat) : List Instr := [.wrsrShort (sOps n 2 0), .wrsr (xOps n 2 0 0 .b32 0)]

/-- The conditions of `WrsrWrites`, with the value 0. -/
def wrsrOk (n : Nat) : Bool :=
  (wrsrForms n).all (fun i => fits i (on tHand) tHand fHand && decide ((ops i).d.toNat = n) && decide (active i gHand full ≠ 0) &&
    (srRefuses tHand n 0).isNone && decide ((ctx i (on tHand) tHand fHand).groupA (gctx i gHand full) (if sr64 n then 2 else 1) = 0))

theorem witness_wrsr : [0x13, 0x0F, 0x23, 0x28, 0x29, 0x2B, 0x2C, 0x2D, 0x2E, 0x2F].all wrsrOk = true ∧
    (∀ i ∈ [Instr.wrsrShort (sOps 0x13 2 0), .wrsr (xOps 0x13 2 0 0 .b32 0)],
      Issues i (on tHand) tHand fHand gHand full ∧ Issues i (on (tg gOff)) (tg gOff) placedFrag gOff full ∧
      active i gOff full = 0) := by
  refine ⟨by decide, fun i hi => ?_⟩
  simp only [List.mem_cons, List.not_mem_nil, or_false] at hi
  rcases hi with rfl | rfl <;>
    exact ⟨issues_of rfl rfl rfl rfl (by decide) rfl rfl rfl rfl (by decide), group_issues _ rfl rfl rfl rfl (by decide), by decide⟩

/-- A group in handler mode that returns with 0, 1 or 2, to code at the placed address. -/
def gRet (v : Nat) (cause : Word) : Group :=
  { inLane0 [(2, w32 v)] with hm := true, tr := { tresume := placedPc, texec := 1, tcause := cause } }
def tRet (v : Nat) (cause : Word) : Team := { tg (gRet v cause) with frags := [fHand], lost := v = 0 && fld cause 0 6 == Cause.uncorrectable.code }

set_option maxRecDepth 20000 in
theorem witness_handler_returns : ∀ i ∈ wrsrForms 0x2A, (ops i).d.toNat = 0x2A ∧
    (∀ e ∈ [(0, (1 : Word)), (1, 1), (2, 1), (0, w32 (Cause.watchdog.code)), (0, w32 (Cause.uncorrectable.code))],
      let t := tRet e.1 e.2
      Issues i (onCode [0x238] t) t fHand (gRet e.1 e.2) full ∧ active i (gRet e.1 e.2) full ≠ 0 ∧
      (ctx i (onCode [0x238] t) t fHand).groupA (gctx i (gRet e.1 e.2) full) 1 = w64 e.1) ∧
    TargetPasses (begins i (onCode [0x238] (tRet 0 1)) (tRet 0 1) fHand) (tRet 0 1) { fHand with hm := false } false false
      (gRet 0 1).tr.tresume := by
  intro i hi
  simp only [wrsrForms, List.mem_cons, List.not_mem_nil, or_false] at hi
  rcases hi with rfl | rfl <;> refine ⟨by decide, ?_, by decide, _, Prod.ext (by decide) rfl⟩ <;>
  · intro e he
    simp only [List.mem_cons, List.not_mem_nil, or_false] at he
    rcases he with rfl | rfl | rfl | rfl | rfl <;>
      exact ⟨issues_of rfl rfl rfl rfl (by decide) rfl rfl rfl rfl (by decide), by decide, by decide⟩

/-- A successor of the placed team's shape, with 8 registers and one page of scratch inherited. -/
def succ1 : Succ :=
  { entry := placedPc, regmask := 1, tlanes := 32, regs := 8, accmask := 0, scr := 4096, priv := 0, acc := 0, bars := 0,
    scrfirst := 0, scrcount := 1, privi := false, fmti := false }
def succGrid : Grid := { placedGrid with succs := [succ1] }
def spliced (t : Team) : State := { on t with grids := [(1, succGrid)] }

theorem witness_splice_arrives : ∀ i ∈ [Instr.spliceShort (sOps 0 0 0), .splice (xOps 0 0 0 0 .b32 0), .spliceRelShort (sOps 0 0 0),
      .spliceRel (xOps 0 0 0 0 .b32 0)], Issues i (spliced placedTeam) placedTeam placedFrag placedGroup full ∧
    placedFrag.region = none ∧ (spliced placedTeam).grid? placedTeam.grid = some succGrid ∧
    fld (ops i).d 0 3 < succGrid.succs.length := by
  intro i hi
  simp only [List.mem_cons, List.not_mem_nil, or_false] at hi
  rcases hi with rfl | rfl | rfl | rfl <;>
    exact ⟨issues_of rfl rfl rfl rfl (by decide) rfl rfl rfl rfl (by decide), rfl, rfl, by decide⟩

/-- The placed team in a state of its splice. -/
def tSpl (x : SpliceSt) : Team := { placedTeam with splice := x, frags := [{ placedFrag with st := .splice 0 false }] }

theorem witness_splice_runs : ∀ x ∈ [SpliceSt.gathering, .draining 0 false, .growing 0 false],
    let t := tSpl x
    let s : State := { spliced t with cur := none }
    s.team? t.id = some t ∧ t.splice = x ∧ t.dead = false ∧ (s.core t.core).dbg.halt = false ∧ t.st = .resident ∧
    t.groups ≠ [] ∧
    (∀ e ∈ t.groups, e.2.finished = false ∧ t.spliceAt e.1 = some (0, false)) ∧ s.successor t 0 = some succ1 ∧
    t.shapeOk succ1 = true ∧ s.drained t = true ∧
    (growTo (s.core t.core).split (((s.teamsOn t.core).filter (fun u => u.id != t.id)).map Team.hold) t.hold
      { succ1.demand with offs := t.offsets }).isSome = true := by
  intro x hx
  simp only [List.mem_cons, List.not_mem_nil, or_false] at hx
  rcases hx with rfl | rfl | rfl <;>
    refine ⟨rfl, rfl, rfl, rfl, rfl, by simp [tSpl, placedTeam], ?_, rfl, by decide, by decide, by decide⟩ <;>
    · intro e he
      rw [List.mem_singleton.mp he]; exact ⟨by decide, rfl⟩

/-! ### Issue selection, results, the memory side -/

/-- Another team on way 0 of core 0, and the placed machine before a selection. -/
def tOther : Team := { placedTeam with id := 3, slot := 1, index := 1 }
def sSelect (ts : List (Nat × Team)) : State := { on placedTeam with teams := ts, cur := none }

theorem witness_way_selects : (sSelect [(2, placedTeam)]).cur = none ∧
    kfind 0 ((sSelect [(2, placedTeam)]).core 0).lastClk ≠ some (sSelect []).clock.clk ∧
    (sSelect [(2, placedTeam)]).selected 0 0 = some (placedTeam, placedFrag) ∧
    (∃ t f c, (sSelect [(2, placedTeam), (3, tOther)]).selected 0 0 = some (t, f) ∧
      (sSelect [(2, placedTeam), (3, tOther)]).candidates 0 0 = [(t, f), c] ∧ c.1.id ≠ t.id ∧
      (sSelect [(2, placedTeam), (3, tOther)]).team? c.1.id = some c.1 ∧ c.1.frag? c.2.id = some c.2) := by
  refine ⟨rfl, nofun, by decide, placedTeam, placedFrag, (tOther, placedFrag), by decide, rfl, by decide, rfl, rfl⟩

theorem witness_promotion : let f : Frag := { placedFrag with starve := 256 }
    let t : Team := { placedTeam with frags := [f] }
    (on t).team? t.id = some t ∧ t.frag? f.id = some f ∧ 256 ≤ f.starve := ⟨rfl, rfl, by decide⟩

theorem witness_result_returns : let p : Pend := { regs := [(192, 5), (193, 6)], part := [(224, (0xFF00, 0x700))] }
    let g : Group := { placedGroup with pend := [p] }
    (on (tg g)).team? (tg g).id = some (tg g) ∧ (tg g).group? g.num = some g ∧ g.pend = p :: [] ∧ p.poison = none ∧
    (p.regs.map (fun e => e.1)).Nodup ∧ (p.part.map (fun e => e.1)).Nodup ∧ ∀ e ∈ p.regs, ∀ q ∈ p.part, e.1 ≠ q.1 :=
  ⟨rfl, rfl, rfl, rfl, by decide, by decide, by decide⟩

/-- A machine with a buffered store of four bytes, a probe and a fill. -/
def wbEnt : WbEnt := { vi := 0, pa := 0x30000, tag := 0, cls := 0, bytes := [1, 2, 3, 4] }
def fill1 : Fill := { slice := 5, cls := 1, vi := 0, line := 0x30000, units := 1 }
def sBuf : State :=
  { on placedTeam with
    cores := [(0, { wbuf := [wbEnt], probes := [0x30000], l1 := [{ vi := 0, line := 0x30000, cells := [] }] })]
    side := { (on placedTeam).side with fillPend := [fill1], hotPend := [(5, 3)] }, sweep := some 5632, cur := none }

/-- Before it in the buffer a store of class 1, whose queue is full at its home. -/
def wbOld : WbEnt := { vi := 0, pa := 0x30080, tag := 0, cls := 1, bytes := [5] }
def sFull : State :=
  { sBuf with
    cores := [(0, { wbuf := [wbOld, wbEnt] })]
    side := { sBuf.side with buckets := [(4 * sBuf.home 0x30080 0 + 1, { bal := 0, waits := List.replicate 32 0 })] } }

set_option maxRecDepth 20000 in
theorem witness_stores_home :
    ((sBuf.core 0).wbuf = [] ++ wbEnt :: [] ∧ sBuf.wbFull wbEnt = false) ∧
    ((sFull.core 0).wbuf = [wbOld] ++ wbEnt :: [] ∧ sFull.wbFull wbOld = true ∧ wbOld.pa / 128 ≠ wbEnt.pa / 128 ∧
      sFull.wbFull wbEnt = false) ∧
    (sBuf.cores.filterMap (fun x => (wbNext (fun w => sBuf.home w.pa (sBuf.partOf w.vi) == sBuf.home 0x30000 0 && !sBuf.wbFull w)
      x.2.wbuf []).map (fun y => (x.1, y)))).head? = some (0, [], wbEnt, []) :=
  ⟨⟨rfl, by decide⟩, ⟨rfl, by decide, by decide, by decide⟩, by decide⟩

/-- A slice that has decoded a block of zeros, and an invalid one. -/
def sPack : State :=
  let d : Decode := { slice := 5, cls := 1, vi := 0, pack := 0, block := 0, addr := 0x1000, bytes := some (List.replicate 4096 0) }
  { State.reset with side := { State.reset.side with decodes := [{ d with addr := 0x2000, block := 1, bytes := none }, d] } }

set_option maxRecDepth 20000 in
theorem witness_caches :
    (let s := on placedTeam
     let root := fld (s.vi 0).troot 13 35 * 8192
     ∃ e lvl ea l, fld (0x30000 : Dword) 56 8 = 0 ∧ bit (s.vi 0).troot 0 = true ∧ (isNear root || isFar root) = true ∧
      fld (0x30000 : Dword) 0 56 / 2 ^ fld (s.vi 0).cfg 0 6 = 0 ∧ s.migrating ea = false ∧
      (now s).walk 0 (fld (0x30000 : Dword) 0 56) .prefetch (bit (s.vi 0).troot 1) (fld (s.vi 0).troot 52 12) [0, 1, 2, 3] root [] =
        .ok (e, lvl, ea, l)) ∧
    (∃ d, findIdx (fun d => d.vi == 0 && d.addr.toNat / 4096 == (0x1000 : Dword).toNat / 4096) sPack.side.decodes 0 = some (1, d) ∧
      d.bytes.isSome = true ∧ ((sPack.side.decodes.take 1).filter (fun e => e.slice == d.slice)).length < 4) ∧
    (∃ d, findIdx (fun d => d.vi == 0 && d.addr.toNat / 4096 == (0x2000 : Dword).toNat / 4096) sPack.side.decodes 0 = some (0, d) ∧
      d.bytes = none ∧ ((sPack.side.decodes.take 0).filter (fun e => e.slice == d.slice)).length < 4) ∧
    (sBuf.core 0).probes = 0x30000 :: [] :=
  ⟨⟨_, _, _, _, by decide, by decide, by decide, by decide, by decide, rfl⟩, ⟨_, rfl, rfl, by decide⟩, ⟨_, rfl, rfl, by decide⟩, rfl⟩

set_option maxRecDepth 20000 in
theorem witness_counted :
    findIdx (fun e => e.slice == 5 && e.line == (0x30000 : Dword).toNat) sBuf.side.fillPend 0 = some (0, fill1) ∧
    (now sBuf).portFull ((now sBuf).portOf fill1.line) fill1.cls = false ∧ fill1.packUnits = 0 ∧
    findIdx (fun e => e.1 == 5) sBuf.side.hotPend 0 = some (0, (5, 3)) ∧
    (now sBuf).portFull ((now sBuf).portOf (hotAddr (65536 * 3))) 3 = false ∧ sBuf.sweep = some 5632 :=
  ⟨by decide, rfl, rfl, by decide, rfl, rfl⟩

/-- A slice whose set of the line at 0x30000 is empty, or full with no line marked, with way 3 unused, or with way 7
evict-first; what `SlicesReplaceLines` asks of each. -/
def setLines (n : Nat) (p : SLine → SLine) : List SLine :=
  (List.range n).map (fun w => p { vi := 0, line := 0x80000 + 128 * w, set := SLine.setOf 0x30000 none, way := w, valid := 15 })
def sSet (l : List SLine) : State :=
  { State.reset with side := { State.reset.side with fillPend := [fill1], slices := [(5, l)] } }

set_option maxRecDepth 20000 in
theorem witness_replacement : ∀ p ∈ [(0, fun l : SLine => l), (16, fun l => l), (16, fun l => { l with used := l.way != 3 }),
      (16, fun l => { l with evict := l.way == 7 })],
    let s := sSet (setLines p.1 p.2)
    findIdx (fun e => e.slice == 5 && e.line == (0x30000 : Dword).toNat) s.side.fillPend 0 = some (0, fill1) ∧
    (now s).portFull ((now s).portOf fill1.line) fill1.cls = false ∧ fill1.packUnits = 0 ∧
    (s.slice 5 = setLines p.1 p.2) ∧ (∀ l ∈ setLines p.1 p.2, l.set = SLine.setOf fill1.line none) ∧
    (∀ l ∈ setLines p.1 p.2, l.line = fill1.line → l.dec.isSome) ∧ ∀ w, w < p.1 → ∃ l ∈ setLines p.1 p.2, l.way = w := by
  intro p hp
  simp only [List.mem_cons, List.not_mem_nil, or_false] at hp
  rcases hp with rfl | rfl | rfl | rfl <;>
    refine ⟨rfl, rfl, rfl, rfl, fun l hl => ?_, fun l hl h => ?_, fun w hw => ⟨_, List.mem_map.mpr ⟨w, List.mem_range.mpr hw, rfl⟩, rfl⟩⟩ <;>
      obtain ⟨w, _, rfl⟩ := List.mem_map.mp hl <;> first | rfl | (simp [fill1] at h; omega)

/-- A bucket with a request that its balance covers. -/
def sBucket : State :=
  { State.reset with
    hub := { State.reset.hub with tb := [(tbOffset 0 0, 0x100010)] }, side := { State.reset.side with buckets := [(0, { bal := 256, waits := [1, 2] })] } }

theorem witness_buckets : let off := tbOffset 0 0
    let depth := fld (sBucket.tbReg off) 16 20
    (sBucket.bucket 0 0 off).waits = 1 :: [2] ∧ 0 < depth ∧
    16 * 1 ≤ min (16 * depth) ((sBucket.bucket 0 0 off).bal + fld (sBucket.tbReg off) 0 16) ∧ (sBucket.bucket 0 1 (tbOffset 0 1)).waits = [] :=
  ⟨by decide, by decide, by decide, by decide⟩

/-- A machine that is READY, with an invalidation of VI 0, a key slot and a geometry under way. -/
def sUp : State := { State.reset with hub := { State.reset.hub with phase := 3 } }
def sInval : State :=
  { State.reset with
    hub := { State.reset.hub with
      phase := 3, door := true, mailbox := [(0, 0x11), (2, 1)], vis := [(0, { inval := 1 }), (1, { inval := 7 })],
      keys := [(1, { pair := 1, byPart := true, owner := 0, emptying := true })] }
    partds := [(2, { busy := true, newGeom := 0x4BB00 })] }

theorem witness_invalidations : (∀ vi ∈ [0, 1], bit (sInval.vi vi).inval 0 = true) ∧ sInval.tickReq = [] ∧
    (∃ k, kfind 1 sInval.hub.keys = some k ∧ k.emptying = true) ∧ sInval.hub.door = true ∧ sInval.arg 0 1 = 0x11 ∧
    sInval.arg 2 2 = 1 ∧ (sInval.partd 2).busy = true :=
  ⟨by decide, rfl, ⟨_, rfl, rfl⟩, rfl, by decide, by decide, rfl⟩

/-! ### Writes of control registers -/

theorem geom_reset (q : Nat) (h : q ≠ 0) : (sUp.part q).geom = 0 := by
  unfold State.part
  simp [sUp, State.reset, kget, kfind, Ne.symm h]

theorem witness_memory_registers : sUp.hub.phase = 3 ∧ (0 : Nat) < 64 ∧ (0 : Nat) < 144 ∧ sUp.teams = [] ∧
    (let v : Dword := 0x510;
      fld v 0 6 ≤ 32 ∧ 1 ≤ fld v 6 6 ∧ fld v 6 6 ≤ 43 ∧ fld v 12 2 ≤ 2 ∧ 64 * fld v 0 6 + 16 * fld v 6 6 * (4 + fld v 12 2) ≤ 2752) ∧
    (sUp.partd 1).busy = false ∧ sUp.partBusy 1 = false ∧ geomOk (0 &&& 0xFF07FFFF) = true ∧
    (∀ q, q < 64 → q ≠ 1 → geomMeets ((0 : Dword) &&& 0xFF07FFFF) (sUp.part q).geom = false ∧ (sUp.partd q).busy = false) ∧
    (∀ e ∈ sUp.hub.vis, sUp.partOf e.1 = sUp.partOf 0) ∧ sUp.partds = [] ∧
    (bit (sUp.vi 0).cfg 6 = false ∧ bit (placedVi.cfg) 6 = true) ∧ (0x100 : Nat) % 8 = 0 ∧ (0x200 : Nat) % 8 = 0 := by
  refine ⟨rfl, by decide, by decide, rfl, by decide, rfl, by decide, by decide, by decide, ?_, rfl, ⟨by decide, by decide⟩, by decide,
    by decide⟩
  intro e he; cases he

theorem witness_queue_registers : sUp.hub.phase = 3 ∧
    (bit (sUp.vid 0).lqCfg 0 = false) ∧
    (let s : State := { sUp with vids := [(0, { lqCfg := 3, lqHead := 0, lqTail := 0 })] };
      bit (s.vid 0).lqCfg 0 = true ∧ (bit (s.vid 0).lqCfg 0 && !bit (s.vid 0).lqCfg 8 &&
        decide (2 ^ fld (s.vid 0).lqCfg 1 4 < (((5 : Dword).setWidth 32 : Word) - (s.vid 0).lqHead).toNat)) = true ∧
      (bit (s.vid 0).lqCfg 0 && !bit (s.vid 0).lqCfg 8 &&
        decide (2 ^ fld (s.vid 0).lqCfg 1 4 < (((1 : Dword).setWidth 32 : Word) - (s.vid 0).lqHead).toNat)) = false) ∧
    (sUp.view 0).en = false ∧ (let s : State := { sUp with hub := { sUp.hub with views := [(0, { cfg := 0x10101 })] } };
      (s.view 0).en = true) ∧ sUp.hostWaits = false ∧
    ({ sUp with held := [.access 0 4 3 0x31000 (some 1)] } : State).hostWaits = true :=
  ⟨rfl, by decide, by decide, by decide, by decide, rfl, rfl⟩

theorem witness_registers : State.reset.hub.phase ≠ 3 ∧ sUp.hub.phase = 3 ∧ (1 ≤ fld (4 : Dword) 0 5 ∧ fld (4 : Dword) 0 5 ≤ 16) ∧
    fld (1900 : Dword) 0 16 ≤ 1900 ∧ sUp.hub.door = false ∧ bit (1 : Dword) 0 = true := by decide

/-! ### Launch queues, grids, event rings, the life of a team -/

/-- The placed machine with a launch queue of two records for its VI: the records are at 0x30000, or nowhere. -/
def sQueue (base : Dword) (v : Option (List Byte)) : State :=
  { on placedTeam with
    mem := layBytes (on placedTeam).mem 0x30000 (wordBytes launchRec)
    vids := [(0, { lqBase := base, lqCfg := 3, lqTail := 1, consumed := v })], cur := none }

/-- Whether the distributor can read the record, and the conditions under which it does. -/
def distOk (a : Dword) : Bool :=
  match (now (sQueue a none)).distRead 0 a.toNat 16 with
  | (.ok _, _) => true
  | _ => false
def consumes (s : State) : Bool :=
  let d := s.vid 0
  bit d.lqCfg 0 && !bit d.lqCfg 8 && bit (s.vi 0).cfg 6 && d.lqHead != d.lqTail && d.consumed.isNone &&
    decide ((s.grids.filter (fun e => e.2.vi == 0)).length < 64)

theorem witness_consumed : consumes (sQueue 0x30000 none) = true ∧ distOk 0x30000 = true := by decide +kernel
theorem witness_consume_fails : consumes (sQueue 0x800000000000 none) = true ∧ distOk 0x800000000000 = false := by decide +kernel

/-- Whether a record is accepted, and its grid is not stopped; with which status it is refused. -/
def accepts (s : State) (b : List Byte) : Bool :=
  match s.accept 0 b with
  | (.ok g, u) => (match u.grid? g.id with | some q => !q.stopped | none => true)
  | _ => false
def refuses (s : State) (b : List Byte) : Option Nat :=
  match s.accept 0 b with
  | (.refuse n, _) => some n
  | _ => none

def recBytes (l : List Word) : List Byte := wordBytes (l ++ List.replicate (32 - l.length) 0)

set_option maxRecDepth 20000 in
theorem witness_accepted : ((sQueue 0x30000 (some (recBytes launchRec))).vid 0).consumed = some (recBytes launchRec) ∧
    accepts (now (sQueue 0x30000 (some (recBytes launchRec)))) (recBytes launchRec) = true ∧
    refuses (now (sQueue 0x30000 (some (recBytes [])))) (recBytes []) = some 2 := ⟨rfl, by decide, by decide⟩

/-- An event ring of VI 0 at 0x30000 with a record that waits, thresholds of one record and of one µs reached. -/
def evRec1 : EvRec := { ring := 1, time := 5, kind := 3, body := List.replicate 24 0 }
def sRing (since : Nat) : State :=
  { on placedTeam with
    vids := [(0, { events := [evRec1], rings := [(1, { base := 0x30000, cfg := 0x2029, since := since, oldest := some 0 })] })]
    clock := { clk := 2000, ns := 1000 }, cur := none }

set_option maxRecDepth 20000 in
theorem witness_records_written : let r := ((sRing 0).vid 0).ring 1
    bit r.cfg 0 = true ∧ (r.tail - r.head).toNat < 2 ^ fld r.cfg 1 4 ∧
    findIdx (fun e => e.ring == 1) ((sRing 0).vid 0).events 0 = some (0, evRec1) ∧ r.since < fld r.cfg 5 8 ∧
    (match (now (sRing 0)).agentWrite { vi := 0, cls := 3 } (w64 (fld r.base 5 51 * 32 + 32 * (r.tail.toNat % 2 ^ fld r.cfg 1 4)))
      (leBytes 8 evRec1.time ++ (evRec1.body.take 7 ++ leBytes 1 0x80 ++ evRec1.body.drop 8)) with
      | (.ok _, _) => true | _ => false) = true :=
  ⟨by decide, by decide, by decide, by decide, by decide⟩

theorem witness_rings_interrupt : let r := ((sRing 1).vid 0).ring 1
    (fld r.cfg 5 8 ≠ 0 ∧ fld r.cfg 5 8 ≤ r.since) ∧ fld r.cfg 13 16 ≠ 0 ∧
    ∃ o, r.oldest = some o ∧ o + 1000 * fld r.cfg 13 16 ≤ (sRing 1).clock.ns :=
  ⟨by decide, by decide, _, rfl, by decide⟩

/-- A partition of some cores, with one grid of two teams and some of its teams. -/
def sGrid (geom : Dword) (g : Grid) (ts : List Team) : State :=
  { on placedTeam with
    hub := { (on placedTeam).hub with parts := [(0, { geom := geom })] }
    teams := ts.map (fun t => (t.id, t)), grids := [(1, g)], clock := { clk := 0x200000, ns := 0x100000 }, cur := none }
def grid2 : Grid := { placedGrid with rc := { placedGrid.rc with gx := 2, acc := 64 }, headSince := some (placedGrid.nextIdx, 0) }
def tFull : Team := { placedTeam with accN := 64 }

set_option maxRecDepth 20000 in
theorem witness_team_placed : let s := sGrid 0x40000 grid2 []
    ∃ h, s.grids = [(grid2.id, grid2)] ∧ (s.partd 0).evicting = none ∧ grid2.rc.braid = false ∧ grid2.rc.graph = false ∧
    grid2.rc.clusterSize ≤ 1 ∧ s.head grid2 = [{ idx := grid2.nextIdx, saved := none }] ∧
    s.headPlace grid2 [{ idx := grid2.nextIdx, saved := none }] = some (0, [(0, h)]) :=
  ⟨_, rfl, rfl, rfl, rfl, by decide, by decide, rfl⟩

set_option maxRecDepth 20000 in
theorem witness_team_evicted : let s := sGrid 0x40000 grid2 [tFull]
    s.grids = [(grid2.id, grid2)] ∧ (s.partd 0).evicting = none ∧
    (∃ x rest, s.head grid2 = x :: rest ∧ grid2.headSince = some (x.idx, 0)) ∧
    0 + fld (s.part 0).quantum 0 32 ≤ s.clock.clk ∧ s.headPlace grid2 (s.head grid2) = none ∧
    (s.evictPlan grid2 (s.head grid2)).isSome = true :=
  ⟨rfl, rfl, ⟨_, _, rfl, rfl⟩, by decide, by decide, by decide⟩

theorem witness_team_saved : let t : Team := { placedTeam with st := .saving }
    let s := { queued [{ plainCmd with kind := 0 }] [plainCmd] t with cur := none }
    s.team? t.id = some t ∧ t.dead = false ∧ t.lost = false ∧ s.saveReady t = true ∧
    Unguarded { s with cores := kset t.core { s.core t.core with
      qmx := (s.core t.core).qmx.filter (fun x => x.team != t.id),
      qcp := (s.core t.core).qcp.filter (fun x => x.team != t.id) } s.cores } t.core := by
  refine ⟨rfl, rfl, rfl, by decide, ?_⟩
  intro x h; rcases h with h | h <;> cases h

/-- A team all of whose lanes have exited. -/
def tDone : Team := { tg { placedGroup with exited := full, exec := 0 } with frags := [] }

theorem witness_team_retires : let s := sGrid 0x40000 grid2 [tDone]
    s.team? tDone.id = some tDone ∧ s.grid? tDone.grid = some grid2 ∧ grid2.id = tDone.grid ∧ grid2.rc.braid = false ∧
    grid2.rc.graph = false ∧ grid2.stopped = false ∧ grid2.retired + 1 < grid2.rc.teams ∧ s.retireReady tDone = true ∧
    Unguarded s tDone.core := by
  refine ⟨rfl, rfl, rfl, rfl, rfl, rfl, by decide, by decide, ?_⟩
  intro x h; rcases h with h | h <;> cases h

/-- A graph whose records wait at core 0, or at core 1 for core 0 to take. -/
def sGraph (core : Nat) : State :=
  { sGrid 0x40100 (graphGrid 1) [] with cores := [(core, { deque := [(1, [(1, 0, [1, 2, 3]), (0, 0, [4])])] })] }

set_option maxRecDepth 20000 in
theorem witness_graph_team : ∃ h n, (sGraph 0).grid? 1 = some (graphGrid 1) ∧ (graphGrid 1).id = 1 ∧
    kget [] 1 ((sGraph 0).core 0).deque = (1, 0, [1, 2, 3]) :: [(0, 0, [4])] ∧ (sGraph 0).gridHeld (graphGrid 1) = false ∧
    0 ∈ (sGraph 0).partCores 0 ∧ (sGraph 0).graphFits 0 (graphGrid 1) = some h ∧ (graphGrid 1).nodes[1]? = some n :=
  ⟨_, _, rfl, rfl, rfl, rfl, by decide, rfl, rfl⟩

set_option maxRecDepth 20000 in
theorem witness_steal : let s := sGraph 1
    ∃ h, s.grid? 1 = some (graphGrid 1) ∧ findIdx (fun c => c == 0) (s.partCores 0) 0 = some (0, 0) ∧
    (graphGrid 1).rc.graph = true ∧ s.gridHeld (graphGrid 1) = false ∧ kget [] 1 (s.core 0).deque = [] ∧
    s.graphFits 0 (graphGrid 1) = some h ∧
    (let a := kget (0, 0) 1 (s.core 0).steal
     let victim := nth 0 (s.partCores 0) ((0 + 1 + a.1 * (graphGrid 1).step) % (s.partCores 0).length)
     a.2 ≤ s.clock.clk ∧ 1 < (s.partCores 0).length ∧ victim ≠ 0 ∧
     kget [] 1 (s.core victim).deque = [(1, 0, [1, 2, 3])] ++ [(0, 0, [4])]) :=
  ⟨_, rfl, by decide, rfl, rfl, rfl, rfl, by decide, by decide, by decide, by decide⟩

/-! ### Outputs, power and debug -/

/-- READY, with output 0 of two rows and two strips: off, on, or to be turned on. -/
def dispOn : Dword := 0x0000800000202011
def sDisp (cfg : Dword) (dd : DispDyn) : State :=
  { State.reset with
    hub := { State.reset.hub with phase := 3, disps := [(0, { cfg := cfg, time := 0x100000F4240 })], views := [(0, { cfg := 0x10101 })] }
    clock := { clk := 0, ns := 0x10000000 }, dispds := [(0, dd)], teams := [(2, placedTeam)] }

/-- The ranges in which an enable takes effect (R430). -/
def sound (d : Disp) (c : Dword) : Bool :=
  decide (1 ≤ fld c 4 8) && decide (1 ≤ fld c 12 8) && decide (1 ≤ fld c 20 6) && decide (fld c 20 6 ≤ 32) &&
    decide (fld c 12 8 % fld c 20 6 = 0) && decide (128 ≤ fld c 40 8) && decide (fld c 40 8 ≤ 192) &&
    decide (100000 ≤ fld d.time 0 32 / fld c 20 6) && decide (fld d.time 32 32 < fld d.time 0 32 / fld c 20 6)

/-- An output that is off turned on, and turned on with fields out of range; one that is on rewritten, and turned off. -/
def dispOff : Dword := 0x0000800000202010

theorem witness_output_starts : (bit ((sDisp dispOff {}).disp 0).cfg 0 == false && bit (dispOn &&& 0xFFFF7FFFFFF7) 0 &&
    sound ((sDisp dispOff {}).disp 0) (dispOn &&& 0xFFFF7FFFFFF7)) = true := by decide +kernel
theorem witness_output_ignored : (bit ((1 : Dword) &&& 0xFFFF7FFFFFF7) 0 &&
    !sound ((sDisp dispOff {}).disp 0) ((1 : Dword) &&& 0xFFFF7FFFFFF7)) = true := by decide +kernel
theorem witness_output_stays : (bit ((sDisp dispOn {}).disp 0).cfg 0 &&
    ((1 : Dword) &&& 0xFFFF7FFFFFF7) >>> 1 != ((sDisp dispOn {}).disp 0).cfg >>> 1) = true := by decide +kernel
theorem witness_output_stops : (bit ((sDisp dispOn {}).disp 0).cfg 0 &&
    (dispOff &&& 0xFFFF7FFFFFF7) >>> 1 == ((sDisp dispOn {}).disp 0).cfg >>> 1) = true := by decide +kernel

/-- A tile accepted for strip 0, read or not. -/
def tile0 (b : Option (List Byte)) : Tile := { strip := 0, pos := 0, team := 2, offset := 64, read := 3, bytes := b }

theorem witness_strip_latches : let s := sDisp dispOn { t0 := some 0 }
    let d := s.disp 0
    let p := fld d.time 0 32 / fld d.cfg 20 6
    bit d.cfg 0 = true ∧ 0 < fld d.cfg 20 6 ∧ (s.dispd 0).t0 = some 0 ∧
    0 + kget 0 0 (s.dispd 0).latch * fld d.time 0 32 + 0 * p - fld d.cfg 26 5 * p ≤ s.clock.ns ∧
    (List.range 16).filter (fun v => bit (s.view v).cfg 0 && fld (s.view v).cfg 1 3 == 0) ≠ [] := by decide

theorem witness_deadline : ∀ l ∈ [[], [tile0 (some [1])], [tile0 (some [1]), { tile0 (some [2]) with pos := 256 }]],
    let s := sDisp dispOn { t0 := some 0, acc := l }
    let d := s.disp 0
    let p := fld d.time 0 32 / fld d.cfg 20 6
    bit d.cfg 0 = true ∧ 0 < fld d.cfg 20 6 ∧ (s.dispd 0).t0 = some 0 ∧
    0 + kget 0 0 (s.dispd 0).frame * fld d.time 0 32 + 0 * p - fld d.time 32 32 ≤ s.clock.ns ∧
    (∀ e ∈ (s.dispd 0).acc.filter (fun e => e.strip == 0), e.bytes.isSome = true) ∧
    (((s.dispd 0).acc.filter (fun e => e.strip == 0)).map (fun e => e.pos)).Nodup ∧
    ((s.vid (fld d.cfg 32 6)).events.filter (fun x => x.kind != 1)).length < 4096 := by decide

theorem witness_tile_read : let s := sDisp dispOn { t0 := some 0, acc := [tile0 none] }
    (s.dispd 0).acc.find? (fun x => x.read == 3 && x.bytes.isNone) = some (tile0 none) ∧ (tile0 none).team = placedTeam.id ∧
    s.team? placedTeam.id = some placedTeam := ⟨rfl, rfl, rfl⟩

theorem witness_governor : State.reset.gated = [] ∧ fld State.reset.hub.pwrCfg 0 16 < 2000 ∧ (2000 : Nat) < 65536 ∧
    (∃ c, c < 144 ∧ (State.reset.core c).gfloor < 16) ∧ 100 * 0 ≤ 95 * fld State.reset.hub.pwrCfg 0 16 ∧
    (∃ w, w ≤ fld State.reset.hub.pwrCfg 0 16 ∧ 95 * fld State.reset.hub.pwrCfg 0 16 < 100 * w) ∧
    (let s : State := { State.reset with cores := (List.range 144).map (fun c => (c, { gfloor := 16 })) };
      ¬ ∃ c, c < 144 ∧ (s.core c).gfloor < 16) :=
  ⟨rfl, by decide, by decide, ⟨0, by decide, by decide⟩, by decide, ⟨fld State.reset.hub.pwrCfg 0 16, by decide, by decide⟩,
    by decide +kernel⟩

theorem witness_throttle : let d : ViDyn := { denied := [(2, 7)] }
    let s : State := { State.reset with vids := [(1, d)] }
    s.vids = [(1, d)] ∧ d.denied = [(2, 7)] ∧ (d.events.filter (fun x => x.kind != 1)).length < 4096 := ⟨rfl, rfl, by decide⟩

theorem witness_ways_slow : let s : State := { State.reset with cores := [(0, { idle := [(3, 256)] })] }
    bit s.hub.pwrCfg 16 = true ∧ 256 ≤ kget 0 3 (s.core 0).idle := ⟨by decide, by decide⟩

/-- A group that has waited at a barrier for as long as the watchdog allows, under each fate. -/
def fStuck : Frag := { placedFrag with st := .barw 0 [0] 0x20004 }
def gStuck : Group := { placedGroup with wdog := 65536 }
def tStuck : Team := { tg gStuck with frags := [fStuck] }

theorem witness_watchdog : (∀ v ∈ [placedVi, viTraps, viHalts], let s := onVi { v with wdog := 1 } tStuck
      s.team? tStuck.id = some tStuck ∧ fld (s.vi tStuck.vi).wdog 0 16 ≠ 0 ∧
      65536 * fld (s.vi tStuck.vi).wdog 0 16 ≤ gStuck.wdog ∧ s.barred tStuck = false) ∧
    tStuck.group? gStuck.num = some gStuck ∧ fStuck.lanes = [(gStuck.num, full)] ∧ gStuck.stop = none ∧ gStuck.finished = false ∧
    (onVi { placedVi with wdog := 1 } tStuck).fate tStuck false .watchdog = .team ∧
    (onVi { viTraps with wdog := 1 } tStuck).fate tStuck false .watchdog = .handler ∧
    (onVi { viHalts with wdog := 1 } tStuck).fate tStuck false .watchdog = .halt := by
  refine ⟨?_, rfl, rfl, rfl, by decide, by decide, by decide, by decide⟩
  intro v hv
  simp only [List.mem_cons, List.not_mem_nil, or_false] at hv
  rcases hv with rfl | rfl | rfl <;> exact ⟨rfl, by decide, by decide, by decide⟩

/-- A core that has halted with a stopped group, or with none. -/
def gStop : Group := { placedGroup with stop := some (.fault .illegalOpcode false) }
def tStop : Team := { tg gStop with frags := [{ placedFrag with st := .stopped }] }
def sHalted (t : Team) : State :=
  { on t with hub := { (on t).hub with phase := 3 }, cores := [(0, { dbg := { halt := true, halted := true, cause := 1 } })], cur := none }

theorem witness_halts : sUp.hub.phase = 3 ∧ (sUp.core 0).dbg.halt = false ∧ (sHalted placedTeam).hub.phase = 3 ∧
    ((sHalted placedTeam).core 0).dbg.halt = true ∧
    (∀ e ∈ (sHalted placedTeam).teams, e.2.core = 0 → (∀ f ∈ e.2.frags, f.st ≠ .stopped) ∧ ∀ g ∈ e.2.groups, g.2.stop = none) ∧
    (sHalted tStop).teams = [(tStop.id, tStop)] ∧ tStop.core = 0 ∧ tStop.group? gStop.num = some gStop ∧ gStop.stop.isSome = true ∧
    tStop.st ≠ .saved ∧ tStop.dead = false ∧ fld (0x20000 : Dword) 17 2 = 1 := by
  refine ⟨rfl, rfl, rfl, rfl, fun e he _ => ⟨fun f hf => ?_, fun g hg => ?_⟩, rfl, rfl, rfl, rfl, by decide, rfl, by decide⟩
  · rw [List.mem_singleton.mp he] at hf
    rw [List.mem_singleton.mp hf]; exact FState.noConfusion
  · rw [List.mem_singleton.mp he] at hg
    rw [List.mem_singleton.mp hg]; rfl

theorem witness_errors : let g : Group := { placedGroup with bound := [0] }
    (on (tg g)).team? (tg g).id = some (tg g) ∧ (tg g).st ≠ .saved ∧ (tg g).group? g.num = some g ∧ g.bound.contains (0 / 8) = true ∧
    0 < (tg g).scrSize ∧ 0 < 256 * (tg g).privN ∧ 0 < (tg g).accN ∧ isNear 0 = true ∧ isFar 0x10000000000 = true :=
  ⟨rfl, by decide, rfl, by decide, by decide, by decide, by decide, by decide, by decide⟩

/-! ### The mailbox, the ports, bring-up -/

/-- READY, with a command in the mailbox and GO set. -/
def sCmd (b : List (Nat × Byte)) : State := { State.reset with hub := { State.reset.hub with phase := 3, door := true, mailbox := b } }

theorem witness_register_commands : (∀ op ∈ [(0x01 : Byte), 0x02], ∀ e ∈ [((0 : Byte), RegBlock.partman), (1, .display), (2, .core 3), (3, .memctl), (4, .power)],
      let s := sCmd [(0, op), (1, e.1), (2, 3), (8, 8)]
      s.hub.phase = 3 ∧ s.hub.door = true ∧ s.arg 0 1 = op.toNat ∧ NamesBlock s e.2) ∧
    (let s := sCmd [(0, 2), (1, 2), (2, 3), (8, 0x60), (16, 16)];
      s.arg 0 1 = 2 ∧ s.arg 1 1 = 2 ∧ s.arg 2 1 < 144 ∧ s.arg 8 8 = 0x060 ∧ 1 ≤ s.arg 16 8 % 32 ∧ s.arg 16 8 % 32 ≤ 16) ∧
    (let s := sCmd [(0, 2), (1, 4), (9, 1), (16, 0x6C), (17, 7)];
      s.arg 0 1 = 2 ∧ s.arg 1 1 = 4 ∧ s.arg 8 8 = 0x100 ∧ s.arg 16 8 % 65536 ≤ 1900) ∧
    (∀ op ∈ [(0x01 : Byte), 0x02], (sCmd [(0, op), (1, 5)]).arg 0 1 = op.toNat ∧ ∀ b, ¬ NamesBlock (sCmd [(0, op), (1, 5)]) b) := by
  refine ⟨?_, by decide, by decide, ?_⟩
  · intro op ho e he
    simp only [List.mem_cons, List.not_mem_nil, or_false] at ho he
    rcases ho with rfl | rfl <;> rcases he with rfl | rfl | rfl | rfl | rfl <;>
      refine ⟨rfl, rfl, by decide, ?_⟩ <;> unfold NamesBlock <;> decide
  · intro op ho
    simp only [List.mem_cons, List.not_mem_nil, or_false] at ho
    rcases ho with rfl | rfl <;> refine ⟨by decide, fun b h => ?_⟩ <;>
      rcases h with ⟨h, _⟩ | ⟨h, _⟩ | ⟨h, _⟩ | ⟨h, _⟩ | ⟨h, _⟩ <;> revert h <;> decide

theorem witness_key_commands : (∀ e ∈ [((1 : Byte), (none : Option KeySlot)), (1, some { pair := 1, byPart := false, owner := 0 }), (7, none)],
      let s := { sCmd [(0, 0x10), (2, 1), (5, e.1)] with }
      s.arg 0 1 = 0x10 ∧ s.arg 2 2 = 1 ∧ s.arg 4 1 < 2 ∧ s.arg 8 8 + 1160 ≤ 2 ^ 46 ∧ s.arg 5 1 < 64) ∧
    ¬ (sCmd [(0, 0x10), (4, 2)]).arg 4 1 < 2 ∧ (sCmd [(0, 0x11), (2, 1)]).arg 0 1 = 0x11 ∧
    kfind 1 (sCmd [(0, 0x11), (2, 1)]).hub.keys = none ∧ 4096 ≤ (sCmd [(0, 0x11), (3, 0x10)]).arg 2 2 ∧ sInval.hub.door = true ∧
    sInval.arg 0 1 = 0x11 ∧ (∃ k, kfind (sInval.arg 2 2) sInval.hub.keys = some k) := by
  refine ⟨?_, by decide, by decide, by decide, by decide, by decide, by decide, ⟨_, rfl⟩⟩
  intro e he
  simp only [List.mem_cons, List.not_mem_nil, or_false] at he
  rcases he with rfl | rfl | rfl <;> exact ⟨by decide, by decide, by decide, by decide, by decide⟩

theorem witness_attestation : (sCmd [(0, 0x20)]).arg 0 1 = 0x20 ∧ (sCmd [(0, 0x20)]).arg 40 8 + 3573 ≤ 2 ^ 46 ∧
    (sCmd [(0, 0x21)]).arg 0 1 = 0x21 ∧ (sCmd [(0, 0x21)]).arg 8 8 = 0 := by decide

/-- A halted core and one that runs, with a debug command.  What a command names is the configuration's. -/
theorem witness_debug_commands : ∀ op ∈ [(0x30 : Byte), 0x31],
    (sCmd [(0, op)]).arg 0 1 = op.toNat ∧ ((sCmd [(0, op)]).core 0).dbg.halted = false ∧
    (let s : State := { sHalted tStop with hub := { (sHalted tStop).hub with door := true, mailbox := [(0, op)] } };
      s.hub.phase = 3 ∧ s.hub.door = true ∧ s.arg 0 1 = op.toNat ∧ (s.core 0).dbg.halted = true ∧ s.teamAt 0 0 = some tStop ∧
      tStop.group? gStop.num = some gStop ∧ s.team? tStop.id = some tStop ∧
      ∀ e ∈ [(0, 5), (1, 5), (2, 5), (3, 0), (4, 0), (5, 0), (6, 0x20), (8, 0)], ((now s).dbgGet tStop gStop e.1 e.2).isSome = true) := by
  intro op ho
  simp only [List.mem_cons, List.not_mem_nil, or_false] at ho
  rcases ho with rfl | rfl <;> exact ⟨by decide, rfl, rfl, rfl, by decide, rfl, rfl, rfl, rfl, by decide⟩

theorem witness_other_commands : (sCmd [(0, 0x40), (16, 64)]).arg 0 1 = 0x40 ∧
    (sCmd [(0, 0x40), (16, 64)]).arg 8 8 + (sCmd [(0, 0x40), (16, 64)]).arg 16 4 ≤ 2 ^ 46 ∧
    ¬ (sCmd [(0, 0x40), (15, 1)]).arg 8 8 + (sCmd [(0, 0x40), (15, 1)]).arg 16 4 ≤ 2 ^ 46 ∧
    (sCmd [(0, 0x50), (2, 3)]).arg 0 1 = 0x50 ∧ (sCmd [(0, 0x50), (2, 3)]).arg 2 1 < 16 ∧ ¬ (sCmd [(0, 0x50), (2, 16)]).arg 2 1 < 16 ∧
    (sCmd [(0, 0x50), (2, 3)]).arg 3 1 < 64 ∧ (sCmd [(0, 0x50), (2, 3)]).arg 4 1 < 64 ∧
    (sCmd [(0, 0x03)]).arg 0 1 ∉ [0x01, 0x02, 0x10, 0x11, 0x20, 0x21, 0x30, 0x31, 0x40, 0x50] := by decide

/-- The placed machine with a bound peer and a peer ring, whose descriptor copies 16 bytes from 0x31000. -/
def peer1 : Peer := { vi := 0, serial := 0, remoteVi := 0, remoteBound := true }
def sPeer : State :=
  { on placedTeam with
    mem := layBytes (on placedTeam).mem 0x30000 (wordBytes [0x31000, 0, 0x32000, 0, 16, 3, 0x33000, 0])
    hub := { (on placedTeam).hub with peers := [(3, peer1)] }
    vids := [(0, { peerBase := 0x30000, peerCfg := 3, peerTail := 1 })], cur := none }

theorem witness_port_accesses : ([1, 2, 4, 8, 16].all (fun size => [AKind.store, .load].all (fun k =>
    match (now sPeer).translate 0 0x31000 k size false with
    | .ok x => !(now sPeer).migrating x.ea && !(now sPeer).noEntry (x.ask 0 2 0) x && !(now sPeer).noEntry (x.ask 0 3 0) x
    | .error _ => false)) &&
    decide (kfind 3 sPeer.hub.peers = some peer1) && sPeer.held.isEmpty && decide (kfind 4 sPeer.hub.peers = none)) = true := by
  decide +kernel

/-- Whether the descriptor is read, its copy ends as it is told to, and its flag can be written. -/
def peerOk (ok : Bool) : Bool :=
  let v := sPeer.vid 0
  match (now sPeer).agentReads { vi := 0, cls := 2 } 16 2 (w64 (fld v.peerBase 5 51 * 32 + 32 * (v.peerHead.toNat % 2 ^ fld v.peerCfg 1 4))) [] with
  | (.ok d, u) =>
    let r := u.peerMove 0 d [] ok
    let flag : Dword := if ok then (v.peerHead + 1).setWidth 64 else 0x8000000000000000
    (match r.1 with | .ok _ => ok | .fault _ => !ok | .hold => false) &&
      (match (r.2.agentWrite { vi := 0, cls := 2, pause := false } (w64 (leNat ((d.drop 24).take 8))) (leBytes 8 flag.toNat)).1 with | .ok _ => true | _ => false)
  | _ => false

theorem witness_peer_copies : bit (sPeer.vid 0).peerCfg 0 = true ∧ (sPeer.vid 0).peerHead ≠ (sPeer.vid 0).peerTail ∧
    peerOk true = true ∧ peerOk false = true := by decide +kernel

theorem witness_bring_up : (let s : State := { State.reset with hub := { State.reset.hub with phase := 1 } }; s.hub.phase = 1) ∧
    (let s : State := { State.reset with hub := { State.reset.hub with phase := 2 } }; s.hub.phase = 2) ∧
    (0x5FFC00 : Nat) % 1024 = 0 ∧ (0x5FFC00 : Nat) ≤ 0x5FFC00 := by decide

/-! ### Integer results, encoding, steps -/

def intForms : List Instr :=
  pick (wordsInteger0 ++ wordsInteger1 ++ wordsMove0 ++ wordsMove1) (fun i => i matches .imulhShort _ | .imulh _ | .idivShort _ |
    .idiv _ | .shlShort _ | .shl _ | .shrlShort _ | .shrl _ | .shraShort _ | .shra _ | .rotlShort _ | .rotl _ | .bfx _ | .bfi _ |
    .icmp _ _ | .isel _ | .leaShort _ | .lea _)

theorem witness_integer_results : intForms.length = 23 ∧
    ∀ i ∈ intForms, Issues i m0 placedTeam placedFrag placedGroup full ∧ true = true := ⟨by decide, issues_each (by decide)⟩

theorem witness_scaled_address_reserved : 8 ≤ (xOps 6 10 4 0 .s32 8).w3.toNat := by decide

/-- Words at the bounds of `ReservedEncodingsRefused`: an unassigned major; a word form of a major that has none, a literal where
none may stand; the reserved type and the reserved edge mode. -/
theorem witness_reserved_encodings : fld (0x178 : Word) 3 7 = 0x2F ∧ fld (0x250 : Word) 3 7 = 0x4A ∧ fld (0x251 : Word) 0 2 = 1 ∧
    fld (0x2C0 : Word) 3 7 = 0x58 ∧ fld (0x2C0 : Word) 0 2 ≠ 2 ∧ fld (0xA : Word) 3 7 = 0x01 ∧ fld (0xA : Word) 0 2 = 2 ∧
    fld (0x3C000000 : Word) 26 4 = 15 ∧ fld (0xC0000000 : Word) 30 2 = 3 := by decide

theorem witness_round_trip : (∃ ws, encode addI = some ws) ∧ formCause addI = none ∧ (form addI).isSome = true ∧
    ∃ i, decodeList [0x0C08240C, 0, 0, 0, 0] = .ok i := ⟨⟨_, rfl⟩, by decide, by decide, _, rfl⟩

/-- A step of the placed machine runs the instruction at its address. -/
def sStep : State := onCode [0x0C08240C] placedTeam

/-- The conditions of `StepRunsTheDecodedInstruction`, for the word at the address. -/
def stepOk (s : State) (t : Team) (f : Frag) : Bool :=
  match s.quiet.translate t.vi (f.pc + w64 (4 * 0)) .fetch 4 f.hm with
  | .error _ => false
  | .ok x =>
    !bit x.leaf 6 && !s.quiet.migrating x.ea && !s.quiet.noEntry (x.ask t.vi (if t.deadline then 0 else 1) 0) x &&
      !s.quiet.poisoned x.pa 4 && isOk (decodeList (codeAt s.quiet [x])) &&
      decide (4 * [x].length = lenOf ((codeAt s.quiet [x]).headD 0)) && s.inbox.isEmpty && !s.barred t && !t.lost &&
      decide (f.st = .ready) && (s.quiet.boundary t f).isEmpty && (s.core t.core).icache.isEmpty &&
      decide (s.cur = some { team := t.id, frag := f.id })

theorem witness_step : stepOk sStep placedTeam placedFrag = true := by decide +kernel

theorem witness_answers : State.reset.inbox = [] ∧ State.reset.cur = none := ⟨rfl, rfl⟩
theorem witness_rows : ((form .moduleReset).isNone && (form addI).isSome) = true := by decide +kernel

/-- The outcome is a next state. -/
def isNext (x : Host.Outcome State Fault Refusal) : Bool :=
  match x with
  | .next _ => true
  | _ => false

theorem witness_programs : ((form addI).isSome && isNext (exec addI m0)) = true := by decide +kernel

theorem witness_settled : (Memory.wf State.reset.mem && isNext (step State.reset)) = true := by decide +kernel

/-! ### The mesh and encryption -/

/-- The ring of 3 by 2 cores that R111 works out: the snake order, the packet from (7, 0) to (7, 1), the link between them set to
nothing, the wrap of column 6. -/
theorem test_ring_example : let g : Dword := 0x61806
    snake g = [6, 7, 8, 20, 19, 18] ∧ route g 7 19 = [8, 20, 19] ∧ muxOf g 7 .south = .nothing ∧ muxOf g 6 .north = .wrap ∧
    muxOf g 18 .south = .wrap ∧ muxOf g 6 .east = .neighbour ∧ muxOf g 8 .east = .nothing := by decide

/-- R110: in the tree of the same cores with its root at (8, 0), core (6, 1) links to (6, 0), and to the root in three. -/
theorem test_tree_example : let g : Dword := 0x08071806
    treeParent g 18 = some 6 ∧ treeParent g 6 = some 7 ∧ treeParent g 8 = none ∧ treeDepth g 18 = 3 ∧ treeUp g 3 18 = [18, 6, 7, 8] := by
  decide

/-- AES-256 on the example of its standard (FIPS 197, C.3), both ways. -/
theorem test_aes_256 :
    let key := aesKeys (List.range 32)
    let plain := [0x00, 0x11, 0x22, 0x33, 0x44, 0x55, 0x66, 0x77, 0x88, 0x99, 0xAA, 0xBB, 0xCC, 0xDD, 0xEE, 0xFF]
    let cipher := [0x8E, 0xA2, 0xB7, 0xCA, 0x51, 0x67, 0x45, 0xBF, 0xEA, 0xFC, 0x49, 0x90, 0x4B, 0x49, 0x60, 0x89]
    aesEncrypt key plain = cipher ∧ aesDecrypt key cipher = plain := by decide +kernel

/-- R37: a unit under a key pair read under the same pair at its own address is itself, and at another address is not. -/
theorem test_xts_round : let unit := (List.range 64).map (BitVec.ofNat 8)
    xtsUnit true 5 64 (xtsUnit false 5 64 unit) = unit ∧ xtsUnit true 5 128 (xtsUnit false 5 64 unit) ≠ unit := by decide +kernel

/-- SHA-384 of "abc" (FIPS 180-4): its first bytes. -/
theorem test_sha_384 : (sha384 [0x61, 0x62, 0x63]).take 4 = [0xCB, 0x00, 0x75, 0x3F] := by decide +kernel

/-! ### Single steps

What R301 to R320, R324 and R337 compute, by hand, on the one enabled lane of the placed group. -/

/-- The placed team after an instruction that its group executes with some registers of lane 0 and some scalars. -/
def teamAfter (i : Instr) (regs scal : List (Nat × Word)) : Option Team :=
  match exec i (on (tg { inLane0 regs with scal := scal })) with
  | .next s => s.team? 2
  | _ => none
def groupAfter (i : Instr) (regs scal : List (Nat × Word)) : Option Group := (teamAfter i regs scal).bind (fun t => t.group? 0)
/-- A register of lane 0 after it, where no result is pending; what is pending for a register of lane 0. -/
def regAfter (i : Instr) (regs : List (Nat × Word)) (r : Nat) : Option Word :=
  (groupAfter i regs []).bind (fun g => if g.pend.isEmpty then some (g.reg r 0) else none)
def pendAfter (i : Instr) (regs : List (Nat × Word)) (r : Nat) : Option Word :=
  (groupAfter i regs []).bind (fun g => match g.pend with | [p] => kfind (32 * r) p.regs | _ => none)

theorem test_iadd_wraps : regAfter addI [(10, 0xFFFFFFFF), (4, 2)] 6 = some 1 := by decide +kernel
theorem test_isub_order : regAfter (.isub (xOps 6 10 4 0 .s32 0)) [(10, 1), (4, 3)] 6 = some 0xFFFFFFFE := by decide +kernel
theorem test_imulh_signed : regAfter (.imulh (xOps 6 10 4 0 .s32 0)) [(10, 0x80000000), (4, 2)] 6 = some 0xFFFFFFFF := by decide +kernel
theorem test_imulh_unsigned : regAfter (.imulh (xOps 6 10 4 0 .n32 0)) [(10, 0x80000000), (4, 2)] 6 = some 1 := by decide +kernel
theorem test_idiv_by_zero : pendAfter (.idiv (xOps 6 10 4 0 .s32 0)) [(10, 5)] 6 = some 0xFFFFFFFF := by decide +kernel
theorem test_idiv_rounds : pendAfter (.idiv (xOps 6 10 4 0 .s32 0)) [(10, 0xFFFFFFF9), (4, 2)] 6 = some 0xFFFFFFFD := by decide +kernel
theorem test_shl_beyond_width : regAfter (.shl (xOps 6 10 4 0 .s32 0)) [(10, 1), (4, 40)] 6 = some 0 := by decide +kernel
theorem test_shra_beyond_width : regAfter (.shra (xOps 6 10 4 0 .s32 0)) [(10, 0x80000000), (4, 40)] 6 = some 0xFFFFFFFF := by
  decide +kernel
theorem test_rotl_modulo_width : regAfter (.rotl (xOps 6 10 4 0 .s32 0)) [(10, 0x80000001), (4, 33)] 6 = some 3 := by decide +kernel
theorem test_bfx_sign : regAfter (.bfx (xOps 6 10 4 14 .s32 0)) [(10, 0xF0), (4, 4), (14, 4)] 6 = some 0xFFFFFFFF := by decide +kernel
theorem test_bfi_places : regAfter (.bfi (xOps 6 10 4 14 .b32 0)) [(10, 0xFFFFFFFF), (4, 0), (14, 0x408)] 6 = some 0xFFFFF0FF := by
  decide +kernel
theorem test_clz_of_zero : regAfter (.clz (xOps 6 10 0 0 .b32 0)) [] 6 = some 32 := by decide +kernel
theorem test_icmp_signed : (groupAfter (.icmp .lt (xOps 3 10 4 0 .s32 0)) [(10, 0xFFFFFFFF), (4, 1)] []).map (fun g => g.pred 3) = some 1 := by
  decide +kernel
theorem test_icmp_unsigned : (groupAfter (.icmp .lt (xOps 3 10 4 0 .n32 0)) [(10, 0xFFFFFFFF), (4, 1)] []).map (fun g => g.pred 3) =
    some 0 := by decide +kernel
theorem test_lea_keeps_window : regAfter (.lea (xOps 6 10 4 0 .s32 2)) [(10, 0xFFFFFFFF), (11, 0xF0FFFFFF), (4, 1)] 7 = some 0xF0000000 := by
  decide +kernel
theorem test_fadd : regAfter faddI [(10, 0x3F800000), (4, 0x40000000)] 6 = some 0x40400000 := by decide +kernel
theorem test_fmul_rounds_to_even : regAfter (.fmul (xOps 6 10 4 0 .f32 0)) [(10, 0x3F800001), (4, 0x3F800001)] 6 = some 0x3F800002 := by
  decide +kernel
theorem test_fdiv : pendAfter (.fdiv (xOps 6 10 4 0 .f32 0)) [(10, 0x3F800000), (4, 0x40400000)] 6 = some 0x3EAAAAAB := by decide +kernel
theorem test_sadd_wraps : (groupAfter (.sadd (xOps 6 10 4 0 .s32 0)) [] [(10, 0xFFFFFFFF), (4, 3)]).map (fun g => g.scalar 6) = some 2 := by
  decide +kernel
theorem test_st_scratch : (teamAfter (.st (xOps 6 10 0 0 .s32 0)) [(6, 0x11223344), (10, 64), (11, 0xF0000000)] []).map
    (fun t => t.scrRead 64 4) = some [0x44, 0x33, 0x22, 0x11] := by decide +kernel
theorem test_ld_pends : pendAfter (.ld (xOps 6 10 0 0 .s32 0)) [(10, 64), (11, 0xF0000000)] 6 = some 0 := by decide +kernel
theorem test_execw_own_bits : (groupAfter (.execw (xOps 0 10 0 0 .b32 0)) [(10, 0xFF)] []).map (fun g => g.exec) = some 1 := by
  decide +kernel
theorem test_execw_scalar : (groupAfter (.execw { xOps 0 10 0 0 .b32 0 with ka := .scal }) [] [(10, 0xFF)]).map (fun g => g.exec) =
    some 0xFF := by decide +kernel
theorem test_trap_enters_handler :
    (match exec (.trap (xOps 6 0 0 0 .b32 0)) (onVi viTraps placedTeam) with
     | .next s => (s.team? 2).bind (fun t => (t.group? 0).map (fun g => (t.frags.map (fun f => (f.pc, f.hm)), g.tr.tinst, g.hm)))
     | _ => none) = some ([(0x20000, true)], placedPc, true) := by decide +kernel

/-- What `step` does with a word placed where it fetches: the address after it, and v6 of lane 0. -/
def stepped (nbits w : Nat) : Option (List Dword × Word) :=
  match step (State.reset.withFetchWord nbits w) with
  | .next s => (s.team? 2).bind (fun t => (t.group? 0).map (fun g => (t.frags.map (fun f => f.pc), g.reg 6 0)))
  | _ => none

theorem test_step_movi : stepped 32 0x10001928 = some ([0x20004], 4) := by decide +kernel
theorem test_step_nop : stepped 32 0x250 = some ([0x20004], 0) := by decide +kernel
end Sys2Proof.Tests
end

/-! The integer, bit-field, comparison and address instructions in numbers and bits (R302 to R307): what the values the
model writes come to, and the obligations on them. -/

namespace Sys2Proof.Laws.IntegerResults

open Sys2Proof.Machine Sys2Proof.Safety Sys2Proof.Claims

/-! ### Types in the model and in the claims (R279, R298) -/

theorem tyWidth_eq_width (t : Ty) : tyWidth t = width t := by cases t <;> rfl

theorem tySigned_eq_signed (t : Ty) : tySigned t = signed t := by cases t <;> rfl

theorem tyRegs_eq_wide (t : Ty) : tyRegs t = wide t := by cases t <;> rfl

theorem width_le (t : Ty) : width t ≤ 64 := by cases t <;> decide

theorem width_pos (t : Ty) : 0 < width t := by cases t <;> decide

/-- The two's complement value of the low bits is that of the bit vector of them. -/
theorem sval_eq_toInt {n : Nat} (hn : 0 < n) (x : Nat) : sval n x = (BitVec.ofNat n x).toInt := by
  have h2 : 2 ^ n = 2 * 2 ^ (n - 1) := by rw [← Nat.pow_succ', Nat.succ_eq_add_one, Nat.sub_add_cancel hn]
  rw [BitVec.toInt_eq_toNat_cond, BitVec.toNat_ofNat]
  unfold sval
  generalize x % 2 ^ n = y
  by_cases hy : 2 ^ (n - 1) ≤ y
  · rw [if_pos ⟨hy, hn⟩, if_neg (by omega)]
  · rw [if_neg (fun h => hy h.1), if_pos (by omega)]

theorem tyVal_eq_number (t : Ty) (x : Dword) : tyVal t x = number t x := by
  unfold tyVal number
  rw [tySigned_eq_signed, tyWidth_eq_width, sval_eq_toInt (width_pos t)]

/-- A field from bit 0 is the number modulo a power of two. -/
theorem fld_zero {w : Nat} (x : BitVec w) (len : Nat) : fld x 0 len = x.toNat % 2 ^ len :=
  congrArg (fun y => y % 2 ^ len) (Nat.div_one x.toNat)

theorem wrapInt_cast (n : Nat) (x : Int) : (wrapInt n x : Int) = x % (2 ^ n : Nat) :=
  Int.toNat_of_nonneg (Int.emod_nonneg _ (Int.natCast_ne_zero.2 (Nat.ne_of_gt (Nat.two_pow_pos n))))

theorem wrapInt_lt (n : Nat) (x : Int) : wrapInt n x < 2 ^ n := by
  have h := Int.emod_lt_of_pos x (Int.natCast_pos.2 (Nat.two_pow_pos n))
  rw [← wrapInt_cast] at h
  exact Int.ofNat_lt.1 h

/-- Wrapping undoes the reading as a signed number. -/
theorem wrapInt_toInt {n : Nat} (x : BitVec n) : wrapInt n x.toInt = x.toNat := by
  have h : (wrapInt n x.toInt : Int) = x.toNat := by
    rw [wrapInt_cast, BitVec.toInt_eq_toNat_bmod, Int.bmod_emod, ← Int.natCast_emod, Nat.mod_eq_of_lt x.isLt]
  exact Int.ofNat_inj.1 h

/-- R298: the low bits of a result, extended or not, are the low bits of the value. -/
theorem tyExt_mod (t : Ty) (x : Nat) : (tyExt t x).toNat % 2 ^ width t = x % 2 ^ width t := by
  have hd : 2 ^ width t ∣ 2 ^ 64 := Nat.pow_dvd_pow 2 (width_le t)
  have hle : 2 ^ width t ≤ 2 ^ 64 := Nat.le_of_dvd (by decide) hd
  have hadd : x % 2 ^ width t + 2 ^ 64 - 2 ^ width t = x % 2 ^ width t + (2 ^ 64 - 2 ^ width t) := by omega
  have hsub : 2 ^ width t ∣ 2 ^ 64 - 2 ^ width t := Nat.dvd_sub hd (Nat.dvd_refl _)
  unfold tyExt w64
  rw [tyWidth_eq_width]
  dsimp only
  split
  · rw [BitVec.toNat_ofNat, Nat.mod_mod_of_dvd _ hd, hadd, Nat.add_mod, Nat.mod_eq_zero_of_dvd hsub, Nat.add_zero,
      Nat.mod_mod, Nat.mod_mod]
  · rw [BitVec.toNat_ofNat, Nat.mod_mod_of_dvd _ hd, Nat.mod_mod]

theorem tyWrap_mod (t : Ty) (x : Int) : (((tyWrap t x).toNat % 2 ^ width t : Nat) : Int) = x % (2 ^ width t : Nat) := by
  unfold tyWrap
  rw [tyExt_mod, tyWidth_eq_width, Nat.mod_eq_of_lt (wrapInt_lt _ _), wrapInt_cast]

/-! ### What an instruction that issues leaves in its registers -/

/-- R255: fields that raise no cause in a mode raise none at all. -/
theorem formCause_of_fieldCause {i : Instr} {hm : Bool} (h : fieldCause i hm = none) : formCause i = none := by
  unfold fieldCause at h
  split at h
  · split at h <;> cases h
  · assumption
  · exact h

section
variable {i : Instr} {s : State} {t : Team} {f : Frag} {g : Group} {m : Word}

/-- R255: the type of an instruction that issues is one that it accepts. -/
theorem ty_mem_of_issues {tys : List Ty} (h : Issues i s t f g m)
    (hf : (form i).map (fun fm => fm.spec.tys) = some tys) : (ops i).ty ∈ tys := by
  obtain ⟨fm, hfm, rfl⟩ := Option.map_eq_some_iff.1 hf
  have hc := formCause_of_fieldCause h.fields
  have ho : ops i = fm.x := by unfold ops; rw [hfm]
  unfold formCause at hc
  rw [hfm] at hc
  rw [ho]
  refine Decidable.byContradiction fun hn => ?_
  have hty : (!fm.spec.tys.contains fm.x.ty || fm.spec.badTy fm.x) = true := by
    rw [Bool.eq_false_iff.2 (fun h => hn (List.contains_iff_mem.1 h)), Bool.not_false, Bool.true_or]
  dsimp only at hc
  rw [if_pos hty] at hc
  split at hc
  · cases hc
  · split at hc
    · cases hc
    · split at hc <;> cases hc

/-- R301 to R304: the multiplications and the shifts take full registers. -/
theorem width_eq_wide {ty : Ty} (h : ty ∈ mulTys ∨ ty ∈ bitTys) : 32 * wide ty = width ty := by
  revert h
  cases ty <;> decide

theorem destWords_one (d : Nat) (v : Dword) : destWords d 1 v = [(d, v.setWidth 32)] := rfl

theorem destWords_two (d : Nat) (v : Dword) :
    destWords d 2 v = [(d, v.setWidth 32), (d + 1, (v >>> 32).setWidth 32)] := rfl

theorem kfind_destWords_low (d n : Nat) (v : Dword) : kfind d (destWords d n v) = some (v.setWidth 32) := by
  unfold destWords
  split <;> exact if_pos rfl

theorem kfind_destWords_high (d : Nat) (v : Dword) : kfind (d + 1) (destWords d 2 v) = some ((v >>> 32).setWidth 32) := by
  rw [destWords_two, kfind, if_neg (Nat.ne_of_lt (Nat.lt_succ_self d)), kfind, if_pos rfl]

/-- R257: what registers that have taken a result of one or two words hold. -/
theorem held_of_destWords {d n l : Nat} {v : Dword} (hn : n = 1 ∨ n = 2)
    (hr : ∀ r, g.reg r l = (kfind r (destWords d n v)).getD (g.reg r l)) : held g d n l = v.toNat % 2 ^ (32 * n) := by
  have hlow : g.reg d l = v.setWidth 32 := by
    rw [hr d, kfind_destWords_low]; rfl
  unfold held
  rcases hn with rfl | rfl
  · rw [hlow, if_neg (by decide), BitVec.toNat_setWidth, Nat.add_zero]
  · have hhigh : g.reg (d + 1) l = (v >>> 32).setWidth 32 := by
      rw [hr (d + 1), kfind_destWords_high]; rfl
    rw [if_pos rfl, hlow, hhigh, BitVec.toNat_setWidth, BitVec.toNat_setWidth, BitVec.toNat_ushiftRight,
      Nat.shiftRight_eq_div_pow]
    omega

theorem kfind_destWords_outside {d n r : Nat} {v : Dword} (hn : n = 1 ∨ n = 2) (hr : r < d ∨ d + n ≤ r) :
    kfind r (destWords d n v) = none := by
  have h0 : d ≠ r := by omega
  rcases hn with rfl | rfl
  · rw [destWords_one, kfind, if_neg h0, kfind]
  · have h1 : d + 1 ≠ r := by omega
    rw [destWords_two, kfind, if_neg h0, kfind, if_neg h1, kfind]

/-- A short-class lane instruction of one or two words completes with what its value says of the registers D. -/
theorem yields_of_perLane (h : Issues i s t f g m) (n : Nat) (hn : n = 1 ∨ n = 2) (k : Ctx → Nat)
    (v : Ctx → GCtx → Nat → Dword) {R : Nat → Nat → Prop}
    (he : exec i s = issue i s (fun c => c.perLane (k c) (v c)))
    (hk : ∀ c, c.o = ops i → k c = n)
    (hv : ∀ c u, AtIssue i s t f g c u → v c (seen i g m) = v (ctx i s t f) (gctx i g m))
    (hR : ∀ l, R l ((v (ctx i s t f) (gctx i g m) l).toNat % 2 ^ (32 * n))) : Yields i s t f g m n R := by
  obtain ⟨s', t', f', g', e, hran, hregs, hreg⟩ := perLane_runs h k v
    (fun c u a => (hk c a.ops).trans (hk _ rfl).symm) hv
  rw [hk (ctx i s t f) rfl] at hreg
  refine ⟨s', t', f', g', he.trans e, hran, hregs, fun l hl ha => ?_, fun r l hl hout => ?_⟩
  · have hr : ∀ r, g'.reg r l = (kfind r (destWords (ops i).d.toNat n (v (ctx i s t f) (gctx i g m) l))).getD (g'.reg r l) := by
      intro r
      rw [hreg r l hl, if_pos ha]
      cases kfind r (destWords (ops i).d.toNat n (v (ctx i s t f) (gctx i g m) l)) <;> rfl
    rw [held_of_destWords hn hr]
    exact hR l
  · rw [hreg r l hl]
    split
    · next ha =>
      have hd := hout.resolve_left (by rw [ha]; exact Bool.noConfusion)
      rw [kfind_destWords_outside hn hd]; rfl
    · rfl

theorem wide_cases (ty : Ty) : wide ty = 1 ∨ wide ty = 2 := by cases ty <;> decide

/-- A short-class lane instruction whose result and operands have the width of its type. -/
theorem yields_of_typed {R : Nat → Nat → Prop} (h : Issues i s t f g m) (V : Ctx → GCtx → Nat → Nat → Dword)
    (he : exec i s = issue i s (fun c => c.perLane (tyRegs c.o.ty) (fun gc l => V c gc (tyRegs c.o.ty) l)))
    (hV : ∀ c u, AtIssue i s t f g c u → ∀ n l, V c (seen i g m) n l = V (ctx i s t f) (gctx i g m) n l)
    (hR : ∀ l, R l ((V (ctx i s t f) (gctx i g m) (wide (ops i).ty) l).toNat % 2 ^ (32 * wide (ops i).ty))) :
    Yields i s t f g m (wide (ops i).ty) R := by
  refine yields_of_perLane h _ (wide_cases _) (fun c => tyRegs c.o.ty) (fun c gc l => V c gc (tyRegs c.o.ty) l) he
    (fun c hc => by rw [hc, tyRegs_eq_wide]) (fun c u a => ?_) (fun l => ?_)
  · funext l; rw [hV c u a, ops_eq a]
  · have := hR l
    rwa [← tyRegs_eq_wide] at this ⊢

/-- R305, R306: an instruction of three sources. -/
theorem yields_of_int3 {F : Ty → Dword → Dword → Dword → Dword} {R : Nat → Nat → Prop} (h : Issues i s t f g m)
    (he : exec i s = issue i s (fun c => c.int3 F))
    (hR : ∀ l, R l ((F (ops i).ty ((ctx i s t f).srcA (gctx i g m) (wide (ops i).ty) l)
      ((ctx i s t f).srcB (gctx i g m) (wide (ops i).ty) l)
      ((ctx i s t f).srcC (gctx i g m) (wide (ops i).ty) l)).toNat % 2 ^ (32 * wide (ops i).ty))) :
    Yields i s t f g m (wide (ops i).ty) R :=
  yields_of_typed h (fun c gc n l => F c.o.ty (c.srcA gc n l) (c.srcB gc n l) (c.srcC gc n l)) he
    (fun c u a n l => by rw [srcA_eq a h, srcB_eq a h, srcC_eq a h, ops_eq a]) hR

end

/-! ### High products (R302) -/

theorem imulhVal_mod (ty : Ty) (a b : Dword) : (((imulhVal ty a b).toNat % 2 ^ width ty : Nat) : Int) =
    number ty a * number ty b / (2 ^ width ty : Nat) % (2 ^ width ty : Nat) := by
  unfold imulhVal
  rw [tyWrap_mod, tyVal_eq_number, tyVal_eq_number, tyWidth_eq_width]

/-- Settles O45: the exact product of the two numbers, divided by 2^w and wrapped to the width. -/
theorem highProducts : Obligations.HighProducts := by
  intro i s t f g m h hi
  have he : exec i s = issue i s (fun c => c.int2 imulhVal) := by
    rcases hi with ⟨o, rfl⟩ | ⟨o, rfl⟩ <;> rfl
  have hty : (ops i).ty ∈ mulTys := by
    refine ty_mem_of_issues h ?_
    rcases hi with ⟨o, rfl⟩ | ⟨o, rfl⟩ <;> rfl
  refine yields_of_typed h (fun c gc n l => imulhVal c.o.ty (c.srcA gc n l) (c.srcB gc n l)) he
    (fun c u a n l => by rw [srcA_eq a h, srcB_eq a h, ops_eq a]) (fun l => ?_)
  rw [width_eq_wide (.inl hty)]
  exact imulhVal_mod ..

/-! ### Shifts (R304) -/

theorem shlVal_testBit (ty : Ty) (a : Dword) (k j : Nat) : ((shlVal ty a k).toNat % 2 ^ width ty).testBit j =
    (decide (j < width ty) && decide (k ≤ j) && a.toNat.testBit (j - k)) := by
  unfold shlVal
  rw [tyExt_mod, Nat.testBit_mod_two_pow, tyWidth_eq_width]
  by_cases hk : k < width ty
  · rw [if_pos hk, Nat.testBit_mul_two_pow, Bool.and_assoc]
  · have hout : ¬ (j < width ty ∧ k ≤ j) := by omega
    rw [if_neg hk, Nat.zero_testBit, Bool.and_false, ← Bool.decide_and, decide_eq_false hout, Bool.false_and]

theorem shrlVal_testBit (ty : Ty) (a : Dword) (k j : Nat) : ((shrlVal ty a k).toNat % 2 ^ width ty).testBit j =
    (decide (j + k < width ty) && a.toNat.testBit (j + k)) := by
  unfold shrlVal
  rw [tyExt_mod, Nat.testBit_mod_two_pow, tyWidth_eq_width]
  by_cases hk : k < width ty
  · have hj : (j < width ty ∧ j + k < width ty) ↔ j + k < width ty := by omega
    rw [if_pos hk, Nat.testBit_div_two_pow, Nat.testBit_mod_two_pow, ← Bool.and_assoc, ← Bool.decide_and, decide_eq_decide.2 hj]
  · rw [if_neg hk, Nat.zero_testBit, Bool.and_false, decide_eq_false (by omega), Bool.false_and]

/-- The floor of a signed quotient by a power of two is the arithmetic shift. -/
theorem wrapInt_sval_div {w : Nat} (hw : 0 < w) (x k : Nat) :
    wrapInt w (sval w x / ((2 ^ k : Nat) : Int)) = ((BitVec.ofNat w x).sshiftRight k).toNat := by
  rw [sval_eq_toInt hw, ← Int.shiftRight_eq_div_pow, ← BitVec.toInt_sshiftRight, wrapInt_toInt]

theorem shraVal_testBit (ty : Ty) (a : Dword) (k j : Nat) : ((shraVal ty a k).toNat % 2 ^ width ty).testBit j =
    (decide (j < width ty) &&
      (if j + k < width ty then a.toNat.testBit (j + k) else a.toNat.testBit (width ty - 1))) := by
  have hw := width_pos ty
  unfold shraVal
  rw [tyExt_mod, Nat.testBit_mod_two_pow, tyWidth_eq_width, wrapInt_sval_div hw, BitVec.testBit_toNat,
    BitVec.getLsbD_sshiftRight, BitVec.msb_eq_getLsbD_last, BitVec.getLsbD_ofNat, BitVec.getLsbD_ofNat]
  by_cases hj : j < width ty
  · by_cases hk : j + k < width ty
    · have hm : min k (width ty) + j = j + k := by omega
      rw [hm, if_pos hk, if_pos hk, decide_eq_true hk, decide_eq_false (Nat.not_le.2 hj), Bool.not_false, Bool.true_and,
        Bool.true_and]
    · have hm : ¬ min k (width ty) + j < width ty := by omega
      have hlast : width ty - 1 < width ty := by omega
      rw [if_neg hm, if_neg hk, decide_eq_true hlast, decide_eq_false (Nat.not_le.2 hj), Bool.not_false, Bool.true_and,
        Bool.true_and]
  · rw [decide_eq_false hj, Bool.false_and, Bool.false_and]

/-- Two parts of a number, the upper moved up and the lower moved down past it, rotate it. -/
theorem rotate_testBit {w r j x : Nat} (hr : r < w) (hx : x < 2 ^ w) (hj : j < w) :
    (x * 2 ^ r + x / 2 ^ (w - r)).testBit j = x.testBit ((j + (w - r)) % w) := by
  have hlt : x / 2 ^ (w - r) < 2 ^ r := by
    rw [Nat.div_lt_iff_lt_mul (Nat.two_pow_pos _), ← Nat.pow_add, Nat.add_sub_cancel' (Nat.le_of_lt hr)]
    exact hx
  rw [Nat.mul_comm, Nat.testBit_two_pow_mul_add _ hlt]
  by_cases hlow : j < r
  · rw [if_pos hlow, Nat.testBit_div_two_pow, Nat.mod_eq_of_lt (by omega)]
  · rw [if_neg hlow, show j + (w - r) = (j - r) + w by omega, Nat.add_mod_right, Nat.mod_eq_of_lt (by omega)]

theorem rotlVal_testBit (ty : Ty) (a : Dword) (k j : Nat) : ((rotlVal ty a k).toNat % 2 ^ width ty).testBit j =
    (decide (j < width ty) && a.toNat.testBit ((j + (width ty - k % width ty)) % width ty)) := by
  have hw := width_pos ty
  unfold rotlVal
  rw [tyExt_mod, Nat.testBit_mod_two_pow, tyWidth_eq_width]
  by_cases hj : j < width ty
  · rw [rotate_testBit (Nat.mod_lt _ hw) (Nat.mod_lt _ (Nat.two_pow_pos _)) hj, Nat.testBit_mod_two_pow,
      decide_eq_true (Nat.mod_lt _ hw), Bool.true_and]
  · rw [decide_eq_false hj, Bool.false_and, Bool.false_and]

/-- R266, R304: in the short form B is the immediate of bits [31:26]. -/
theorem srcB_imm {i : Instr} {s : State} {t : Team} {f : Frag} {gc : GCtx} {o : SOps} (ho : o.lit = none)
    (hi : i = .shlShort o ∨ i = .shrlShort o ∨ i = .shraShort o ∨ i = .rotlShort o) (n l : Nat) :
    (ctx i s t f).srcB gc n l = o.b.setWidth 64 := by
  have hops : ops i = normShort .bImm .b32 o := by rcases hi with rfl | rfl | rfl | rfl <;> rfl
  have hlit : litPos i = .b := by rcases hi with rfl | rfl | rfl | rfl <;> rfl
  unfold Ctx.srcB Ctx.litAt ctx
  simp only [hops, hlit, normShort, ho, if_true]

/-- An instruction that shifts by `F`: it accepts the types of R304, and is executed as a shift. -/
def IsShift (i : Instr) (F : Ty → Dword → Nat → Dword) : Prop :=
  (form i).map (fun fm => fm.spec.tys) = some bitTys ∧ ∀ s, exec i s = issue i s (fun c => c.shift F)

theorem isShift_shl {i : Instr} (h : (∃ o, i = .shlShort o) ∨ (∃ o, i = .shl o)) : IsShift i shlVal := by
  rcases h with ⟨o, rfl⟩ | ⟨o, rfl⟩ <;> exact ⟨rfl, fun _ => rfl⟩

theorem isShift_shrl {i : Instr} (h : (∃ o, i = .shrlShort o) ∨ (∃ o, i = .shrl o)) : IsShift i shrlVal := by
  rcases h with ⟨o, rfl⟩ | ⟨o, rfl⟩ <;> exact ⟨rfl, fun _ => rfl⟩

theorem isShift_shra {i : Instr} (h : (∃ o, i = .shraShort o) ∨ (∃ o, i = .shra o)) : IsShift i shraVal := by
  rcases h with ⟨o, rfl⟩ | ⟨o, rfl⟩ <;> exact ⟨rfl, fun _ => rfl⟩

theorem isShift_rotl {i : Instr} (h : (∃ o, i = .rotlShort o) ∨ (∃ o, i = .rotl o)) : IsShift i rotlVal := by
  rcases h with ⟨o, rfl⟩ | ⟨o, rfl⟩ <;> exact ⟨rfl, fun _ => rfl⟩

/-- A shift completes with what its value says of the low bits of the registers D. -/
theorem IsShift.yields {i : Instr} {s : State} {t : Team} {f : Frag} {g : Group} {m : Word}
    {F : Ty → Dword → Nat → Dword} {R : Nat → Nat → Prop} (hF : IsShift i F) (h : Issues i s t f g m)
    (hR : ∀ l, R l ((F (ops i).ty ((ctx i s t f).srcA (gctx i g m) (wide (ops i).ty) l)
      (((ctx i s t f).srcB (gctx i g m) 1 l).toNat % 2 ^ 32)).toNat % 2 ^ width (ops i).ty)) :
    Yields i s t f g m (wide (ops i).ty) R := by
  obtain ⟨htys, hexec⟩ := hF
  refine yields_of_typed h (fun c gc n l => F c.o.ty (c.srcA gc n l) ((c.srcB gc 1 l).toNat % 2 ^ 32)) (hexec s)
    (fun c u a n l => by rw [srcA_eq a h, srcB_eq a h, ops_eq a]) (fun l => ?_)
  rw [width_eq_wide (.inr (ty_mem_of_issues h htys))]
  exact hR l

/-- Settles O47: bit by bit, each shift by the whole amount; the shift amount of a short form is its immediate. -/
theorem shifts : Obligations.Shifts := by
  intro i s t f g m h w n a k
  refine ⟨fun o l ho hi => ?_, fun hi => ?_, fun hi => ?_, fun hi => ?_, fun hi => ?_⟩
  · have hb := o.b.isLt
    simp only [k, srcB_imm ho hi, BitVec.toNat_setWidth]
    omega
  · exact (isShift_shl hi).yields h (fun _ _ => shlVal_testBit ..)
  · exact (isShift_shrl hi).yields h (fun _ _ => shrlVal_testBit ..)
  · exact (isShift_shra hi).yields h (fun _ _ => shraVal_testBit ..)
  · exact (isShift_rotl hi).yields h (fun _ _ => rotlVal_testBit ..)

/-! ### Bit fields (R305) -/

theorem fld_eight (x : Dword) : fld x 0 8 = x.toNat % 256 := fld_zero x 8

/-- A field of `n` bits from bit `p`, extended to `w` bits by its highest bit. -/
theorem wrapInt_sval_testBit {n w : Nat} (hn : 0 < n) (hw : n ≤ w) (x j : Nat) :
    (wrapInt w (sval n x)).testBit j = (decide (j < w) && (if j < n then x.testBit j else x.testBit (n - 1))) := by
  rw [sval_eq_toInt hn, ← BitVec.toInt_signExtend_of_le hw, wrapInt_toInt, BitVec.testBit_toNat,
    BitVec.getLsbD_signExtend, BitVec.msb_eq_getLsbD_last, BitVec.getLsbD_ofNat, BitVec.getLsbD_ofNat]
  have hlast : n - 1 < n := by omega
  by_cases hj : j < n
  · rw [if_pos hj, if_pos hj, decide_eq_true hj, Bool.true_and]
  · rw [if_neg hj, if_neg hj, decide_eq_true hlast, Bool.true_and]

/-- A bit of a field of the low 32 bits of a number. -/
theorem field_testBit (x p n j : Nat) : (x % 2 ^ 32 / 2 ^ p % 2 ^ n).testBit j =
    (decide (j < n) && (decide (p + j < 32) && x.testBit (p + j))) := by
  rw [Nat.testBit_mod_two_pow, Nat.testBit_div_two_pow, Nat.testBit_mod_two_pow, Nat.add_comm j p]

theorem w64_mod_word (x : Nat) : (w64 x).toNat % 2 ^ 32 = x % 2 ^ 32 := by
  unfold w64
  rw [BitVec.toNat_ofNat, Nat.mod_mod_of_dvd _ (by decide)]

theorem bfxVal_testBit (ty : Ty) (a b x : Dword) (j : Nat) :
    let p := min (b.toNat % 256) 32
    let n := min (x.toNat % 256) 32
    let bitA := fun j => decide (j < 32) && a.toNat.testBit j
    ((bfxVal ty a b x).toNat % 2 ^ 32).testBit j = (decide (j < 32) && (
      if j < n then bitA (p + j) else decide (0 < n) && decide (ty = .s32) && bitA (p + n - 1))) := by
  unfold bfxVal
  simp only [fld_eight]
  have hn32 : min (x.toNat % 256) 32 ≤ 32 := Nat.min_le_right _ _
  generalize min (b.toNat % 256) 32 = p
  generalize min (x.toNat % 256) 32 = n at hn32 ⊢
  by_cases hn : n = 0
  · subst hn
    rw [if_pos rfl, if_neg (Nat.not_lt_zero j), decide_eq_false (Nat.lt_irrefl 0), Bool.false_and, Bool.false_and,
      Bool.and_false, show BitVec.toNat (0 : Dword) = 0 from rfl, Nat.zero_mod, Nat.zero_testBit]
  · have hpos : 0 < n := Nat.pos_of_ne_zero hn
    rw [if_neg hn]
    by_cases hty : ty = .s32
    · have hlast : p + (n - 1) = p + n - 1 := by omega
      rw [if_pos hty, w64_mod_word, Nat.testBit_mod_two_pow, wrapInt_sval_testBit hpos hn32, field_testBit, field_testBit, hlast]
      by_cases hj : j < n
      · rw [if_pos hj, if_pos hj, decide_eq_true hj, Bool.true_and, ← Bool.and_assoc, Bool.and_self]
      · have hlt : n - 1 < n := by omega
        rw [if_neg hj, if_neg hj, decide_eq_true hlt, decide_eq_true hpos, decide_eq_true hty, Bool.true_and, Bool.true_and,
          Bool.true_and, ← Bool.and_assoc, Bool.and_self]
    · rw [if_neg hty, w64_mod_word, Nat.testBit_mod_two_pow, field_testBit]
      by_cases hj : j < n
      · rw [if_pos hj, decide_eq_true hj, Bool.true_and]
      · rw [if_neg hj, decide_eq_false hj, decide_eq_false hty, Bool.and_false, Bool.false_and, Bool.and_false, Bool.false_and,
          Bool.and_false]

/-- The mask of the `n` bits from bit `p`. -/
theorem getLsbD_mask (w n p j : Nat) : (BitVec.ofNat w ((2 ^ n - 1) * 2 ^ p)).getLsbD j =
    (decide (j < w) && decide (p ≤ j ∧ j < p + n)) := by
  have hin : (p ≤ j ∧ j - p < n) ↔ (p ≤ j ∧ j < p + n) := by omega
  rw [BitVec.getLsbD_ofNat, Nat.testBit_mul_two_pow, Nat.testBit_two_pow_sub_one, ← Bool.decide_and, decide_eq_decide.2 hin]

theorem bfiVal_testBit (ty : Ty) (a b x : Dword) (j : Nat) :
    let p := min (x.toNat % 256) 32
    let n := min (x.toNat / 256 % 256) 32
    ((bfiVal ty a b x).toNat % 2 ^ 32).testBit j = (decide (j < 32) && (
      if p ≤ j ∧ j < p + n then b.toNat.testBit (j - p) else a.toNat.testBit j)) := by
  unfold bfiVal w32
  simp only [fld_eight, show fld x 8 8 = x.toNat / 256 % 256 from rfl]
  generalize min (x.toNat % 256) 32 = p
  generalize min (x.toNat / 256 % 256) 32 = n
  rw [Nat.testBit_mod_two_pow, BitVec.testBit_toNat]
  by_cases hj : j < 32
  · have hb : j - p < 32 := by omega
    have hj64 : j < 64 := by omega
    have hfield : (BitVec.ofNat 32 (b.toNat % 2 ^ 32 * 2 ^ p)).getLsbD j = (decide (p ≤ j) && b.toNat.testBit (j - p)) := by
      rw [BitVec.getLsbD_ofNat, Nat.testBit_mul_two_pow, Nat.testBit_mod_two_pow, decide_eq_true hj, decide_eq_true hb,
        Bool.true_and, Bool.true_and]
    simp only [BitVec.getLsbD_setWidth, BitVec.getLsbD_or, BitVec.getLsbD_and, BitVec.getLsbD_not, getLsbD_mask, hfield,
      BitVec.testBit_toNat, hj, hj64, decide_true, Bool.true_and]
    by_cases hin : p ≤ j ∧ j < p + n
    · rw [if_pos hin, decide_eq_true hin, decide_eq_true hin.1, Bool.not_true, Bool.and_false, Bool.false_or, Bool.true_and,
        Bool.and_true]
    · rw [if_neg hin, decide_eq_false hin, Bool.not_false, Bool.and_true, Bool.and_false, Bool.or_false]
  · rw [decide_eq_false hj, Bool.false_and, Bool.false_and]

/-- R305: the bit-field instructions take single words. -/
theorem wide_of_bitField {ty : Ty} (h : ty ∈ [Ty.n32, .s32, .b32]) : wide ty = 1 := by
  revert h
  cases ty <;> decide

/-- Settles O48: bit by bit, the field of A with its extension, and A with the field of B put into it. -/
theorem bitFields : Obligations.BitFields := by
  intro o s t f g m
  refine ⟨fun h => ?_, fun h => ?_⟩
  · have hw : wide (ops (.bfx o)).ty = 1 := wide_of_bitField (ty_mem_of_issues h rfl)
    rw [← hw]
    refine yields_of_int3 (F := bfxVal) h rfl (fun l => ?_)
    rw [hw]
    exact fun _ => bfxVal_testBit ..
  · have hb : (ops (.bfi o)).ty ∈ [Ty.b32] := ty_mem_of_issues h rfl
    have hw : wide (ops (.bfi o)).ty = 1 := wide_of_bitField (by rw [List.mem_singleton.1 hb]; decide)
    rw [← hw]
    refine yields_of_int3 (F := bfiVal) h rfl (fun l => ?_)
    rw [hw]
    exact fun _ => bfiVal_testBit ..

/-! ### Comparisons and selections (R306) -/

theorem icmpVal_iff (ty : Ty) (cc : Cc) (a b : Dword) :
    icmpVal ty cc a b = true ↔ holds cc (number ty a) (number ty b) := by
  unfold icmpVal
  rw [tyVal_eq_number, tyVal_eq_number]
  cases cc <;> exact decide_eq_true_iff

theorem iselVal_mod (ty : Ty) (a b x : Dword) : (iselVal ty a b x).toNat % 2 ^ width ty =
    (if x.toNat % 2 ^ width ty ≠ 0 then a.toNat else b.toNat) % 2 ^ width ty := by
  unfold iselVal
  rw [tyExt_mod, tyWidth_eq_width, ite_not]

/-- Settles O49: the predicate takes the comparison of the two numbers, and the registers the selected operand at the
type's width. -/
theorem comparisonsAndSelections : Obligations.ComparisonsAndSelections := by
  refine ⟨fun cc o s t f g m h => ?_, fun o s t f g m h => ?_⟩
  · intro i ty n
    obtain ⟨s', t', f', g', e, hran, hpreds, hbit⟩ := perPred_runs h
      (fun c gc l => icmpVal c.o.ty cc (c.srcA gc (tyRegs c.o.ty) l) (c.srcB gc (tyRegs c.o.ty) l))
      (fun c u a => by funext l; rw [srcA_eq a h, srcB_eq a h, ops_eq a])
    refine ⟨s', t', f', g', e, hran, hpreds, fun q l hl => ⟨fun hq => ?_, fun hq => ?_⟩⟩
    · rw [hbit q l hl, if_pos hq, icmpVal_iff, tyRegs_eq_wide]; rfl
    · rw [hbit q l hl, if_neg hq]
  · intro i n w
    have hw := width_eq_wide (.inr (ty_mem_of_issues (tys := bitTys) h rfl))
    refine yields_of_int3 (F := iselVal) h rfl (fun l => ?_)
    rw [hw]
    exact iselVal_mod ..

/-! ### Scaled addresses (R307) -/

/-- R307: the offset of `LEA` in 64 bits. -/
def leaOffset (t : Ty) (b : Dword) : Dword :=
  match t with
  | .s32 => (b.setWidth 32).signExtend 64
  | .n32 => (b.setWidth 32).setWidth 64
  | _ => b

theorem leaVal_eq (t : Ty) (sh : Nat) (a b : Dword) :
    leaVal t sh a b = setFld a 0 56 ((fld a 0 56 + (leaOffset t b).toNat * 2 ^ sh) % 2 ^ 56) := by
  cases t <;> rfl

theorem toNat_emod_eq_toInt {n w : Nat} (hn : n ≤ w) (x : BitVec w) :
    (x.toNat : Int) % (2 ^ n : Nat) = x.toInt % (2 ^ n : Nat) := by
  have hd : ((2 ^ n : Nat) : Int) ∣ ((2 ^ w : Nat) : Int) := Int.natCast_dvd_natCast.2 (Nat.pow_dvd_pow 2 hn)
  rw [BitVec.toInt_eq_toNat_bmod, ← Int.emod_emod_of_dvd ((x.toNat : Int).bmod (2 ^ w)) hd, Int.bmod_emod,
    Int.emod_emod_of_dvd _ hd]

/-- The offset stands for the number of its type, modulo 2^56. -/
theorem leaOffset_emod {ty : Ty} (h : ty ∈ leaSpec.tys) (b : Dword) :
    ((leaOffset ty b).toNat : Int) % (2 ^ 56 : Nat) = number ty b % (2 ^ 56 : Nat) := by
  have hcases : ty = .s32 ∨ ty = .n32 ∨ ty = .s64 := by revert h; cases ty <;> decide
  rcases hcases with rfl | rfl | rfl
  · have hnum : number .s32 b = (leaOffset .s32 b).toInt := by
      unfold leaOffset
      rw [BitVec.toInt_signExtend_of_le (by decide), ← BitVec.ofNat_toNat]; rfl
    rw [hnum]; exact toNat_emod_eq_toInt (by decide) _
  · have hnum : number .n32 b = (leaOffset .n32 b).toNat := by
      unfold leaOffset
      rw [BitVec.toNat_setWidth_of_le (by decide), BitVec.toNat_setWidth]; rfl
    rw [hnum]
  · have hnum : number .s64 b = (leaOffset .s64 b).toInt := by
      rw [← BitVec.setWidth_eq (leaOffset .s64 b), ← BitVec.ofNat_toNat]; rfl
    rw [hnum]; exact toNat_emod_eq_toInt (by decide) _

/-- A register with its low bits replaced. -/
theorem setFld_low_toNat (a : Dword) (v : Nat) :
    (setFld a 0 56 v).toNat = 2 ^ 56 * (a.toNat / 2 ^ 56) + v % 2 ^ 56 := by
  refine Nat.eq_of_testBit_eq fun j => ?_
  rw [Nat.testBit_two_pow_mul_add _ (Nat.mod_lt _ (Nat.two_pow_pos _)), BitVec.testBit_toNat]
  unfold setFld
  simp only [BitVec.getLsbD_or, BitVec.getLsbD_and, BitVec.getLsbD_not, getLsbD_mask]
  rw [BitVec.getLsbD_ofNat, Nat.pow_zero, Nat.mul_one, Nat.testBit_mod_two_pow, Nat.testBit_div_two_pow,
    BitVec.testBit_toNat]
  by_cases hj : j < 56
  · have hj64 : j < 64 := by omega
    have hin : 0 ≤ j ∧ j < 0 + 56 := by omega
    rw [if_pos hj, decide_eq_true hj, decide_eq_true hj64, decide_eq_true hin, Bool.and_self, Bool.not_true, Bool.and_false,
      Bool.and_false, Bool.false_or, Bool.true_and, Bool.true_and]
  · have hsub : j - 56 + 56 = j := by omega
    have hout : ¬ (0 ≤ j ∧ j < 0 + 56) := by omega
    rw [if_neg hj, hsub, decide_eq_false hj, decide_eq_false hout, Bool.and_false, Bool.not_false, Bool.and_true,
      Bool.false_and, Bool.and_false, Bool.or_false]
    by_cases hj64 : j < 64
    · rw [decide_eq_true hj64, Bool.and_true]
    · rw [decide_eq_false hj64, Bool.and_false, BitVec.getLsbD_of_ge a j (Nat.not_lt.1 hj64)]

theorem leaVal_upper (t : Ty) (sh : Nat) (a b : Dword) : (leaVal t sh a b).toNat / 2 ^ 56 = a.toNat / 2 ^ 56 := by
  rw [leaVal_eq, setFld_low_toNat]
  omega

theorem leaVal_lower {ty : Ty} (h : ty ∈ leaSpec.tys) (sh : Nat) (a b : Dword) :
    (((leaVal ty sh a b).toNat % 2 ^ 56 : Nat) : Int) =
      (((a.toNat % 2 ^ 56 : Nat) : Int) + number ty b * (2 ^ sh : Nat)) % (2 ^ 56 : Nat) := by
  have hlow : (leaVal ty sh a b).toNat % 2 ^ 56 = (a.toNat % 2 ^ 56 + (leaOffset ty b).toNat * 2 ^ sh) % 2 ^ 56 := by
    rw [leaVal_eq, setFld_low_toNat, Nat.mul_add_mod, Nat.mod_mod, Nat.mod_mod, fld_zero]
  rw [hlow, Int.natCast_emod, Int.natCast_add, Int.natCast_mul, Int.add_emod, Int.mul_emod, leaOffset_emod h,
    ← Int.mul_emod, ← Int.add_emod]

theorem reservedField_of_w3 {i : Instr} {fm : Form} (h : fm.x.w3 &&& ~~~fm.spec.w3 ≠ 0) : reservedField i fm = true := by
  have hb : (fm.x.w3 &&& ~~~fm.spec.w3 != 0) = true := bne_iff_ne.2 h
  unfold reservedField
  simp only [hb, Bool.or_true, Bool.true_or]

/-- R252: the bits of word 3 above the scale are reserved. -/
theorem formCause_lea_reserved (o : XOps) (h : 8 ≤ o.w3.toNat) : formCause (.lea o) = some .reservedField := by
  have hw3 : o.w3 &&& ~~~leaSpec.w3 ≠ 0 := by
    intro h0
    refine absurd (Nat.lt_pow_two_of_testBit o.w3.toNat (n := 3) fun j hj => ?_) (by omega)
    have hbit := congrArg (fun x : Word => x.getLsbD j) h0
    rw [show leaSpec.w3 = BitVec.ofNat 32 ((2 ^ 3 - 1) * 2 ^ 0) from rfl] at hbit
    simp only [BitVec.getLsbD_and, BitVec.getLsbD_not, getLsbD_mask] at hbit
    rw [BitVec.testBit_toNat]
    by_cases hj32 : j < 32
    · have hout : ¬ (0 ≤ j ∧ j < 0 + 3) := by omega
      rw [decide_eq_true hj32, decide_eq_false hout, Bool.and_false, Bool.not_false, Bool.and_true, Bool.and_true]
        at hbit
      exact hbit.trans BitVec.getLsbD_zero
    · exact BitVec.getLsbD_of_ge o.w3 j (by omega)
  have hres : reservedField (.lea o) ⟨leaSpec, o, false, false⟩ = true := reservedField_of_w3 hw3
  unfold formCause
  simp only [form, hres, if_true]; rfl

/-- Settles O50: the window byte is bits [63:56] of A, and the rest the sum with the scaled number, modulo 2^56. -/
theorem scaledAddresses : Obligations.ScaledAddresses := by
  refine ⟨formCause_lea_reserved, fun o => rfl, fun i s t f g m h hi => ?_⟩
  intro ty
  have he : exec i s = issue i s (fun c => c.leaBody) := by
    rcases hi with ⟨o, rfl⟩ | ⟨o, rfl⟩ <;> rfl
  have hty : ty ∈ leaSpec.tys := by
    refine ty_mem_of_issues h ?_
    rcases hi with ⟨o, rfl⟩ | ⟨o, rfl⟩ <;> rfl
  refine yields_of_perLane h 2 (.inr rfl) (fun _ => 2)
    (fun c gc l => leaVal c.o.ty (fld c.o.w3 0 3) (c.srcA gc 2 l) (c.srcB gc (tyRegs c.o.ty) l)) he
    (fun _ _ => rfl) (fun c u a => ?_) (fun l => ?_)
  · funext l; rw [srcA_eq a h, srcB_eq a h, ops_eq a]
  · have hs : fld (ops i).w3 0 3 = (ops i).w3.toNat % 8 := fld_zero (ops i).w3 3
    have hv : ∀ x : Dword, x.toNat % 2 ^ (32 * 2) = x.toNat := fun x => Nat.mod_eq_of_lt x.isLt
    simp only [hv, ← hs, ← tyRegs_eq_wide]
    exact ⟨leaVal_upper .., leaVal_lower hty ..⟩

end Sys2Proof.Laws.IntegerResults
